-- ==== Sys2Proof/Word.lean ====
section
/-! DEFINITION. Words, bytes, timers and fixed-size tables: the plain data every other file is written over. -/

namespace Sys2Proof

/-- One byte on a line or in the image (R197). -/
abbrev Byte := BitVec 8
/-- A two-byte field (R197). -/
abbrev Word16 := BitVec 16
/-- A three-byte field: only the outstanding expected mass (R197, role part of the CUTTER). -/
abbrev Word24 := BitVec 24
/-- A four-byte field (R197). -/
abbrev Word32 := BitVec 32

/-- A station number 0 to 7. -/
abbrev Station := Fin 8

/-- Time, in ticks of 250 microseconds: every time the manual gives in ms or s, and every R/8 and R/4, is a whole
number of ticks (log entry 1). -/
abbrev Ticks := Nat

/-- A timer: the ticks left, or `none` while it does not run. -/
abbrev Timer := Option Ticks

/-- `n` milliseconds. -/
def ms (n : Nat) : Ticks := 4 * n
/-- `n` seconds. -/
def sec (n : Nat) : Ticks := 4000 * n
/-- A tenth of a second, the unit of the dwell, the allowance, the open span and belt time. -/
def tenth : Ticks := 400
/-- `n` refresh-period units of 10 ms. -/
def tenMs (n : Nat) : Ticks := 40 * n

/-- One tick of a running timer; a timer at 0 has run out and waits for its expiry to be taken. -/
def Timer.tick (t : Timer) : Timer := t.map (· - 1)

/-- A timer that has run out. -/
def Timer.out (t : Timer) : Bool := t == some 0

/-- A timer that runs exactly while `c` holds, started at `d` when `c` becomes true. -/
def Timer.follow (c : Bool) (d : Ticks) (t : Timer) : Timer := if c then some (t.getD d) else none

/-- A table of a fixed number of like things. -/
structure Tbl (α : Type) (n : Nat) where
  toList : List α
  size : toList.length = n
deriving DecidableEq, Repr

namespace Tbl
variable {α β : Type} {n : Nat}

theorem ext' {t u : Tbl α n} (h : t.toList = u.toList) : t = u := by cases t; cases u; simp_all

/-- The same value everywhere. -/
def fill (n : Nat) (x : α) : Tbl α n := ⟨List.replicate n x, by simp⟩

/-- The item at a position of the table. -/
def get (t : Tbl α n) (i : Fin n) : α := t.toList[i.val]'(by rw [t.size]; exact i.isLt)

/-- The item at a position replaced. -/
def set (t : Tbl α n) (i : Fin n) (x : α) : Tbl α n := ⟨t.toList.set i.val x, by simp [t.size]⟩

/-- Every item mapped. -/
def map (f : α → β) (t : Tbl α n) : Tbl β n := ⟨t.toList.map f, by simp [t.size]⟩

/-- A list mapped with the position of each item, counted from `k`. -/
def mapFrom (f : Nat → α → β) : Nat → List α → List β
  | _, [] => []
  | k, x :: xs => f k x :: mapFrom f (k + 1) xs

theorem mapFrom_length (f : Nat → α → β) (k : Nat) (l : List α) : (mapFrom f k l).length = l.length := by
  induction l generalizing k with
  | nil => rfl
  | cons x xs ih => simp [mapFrom, ih]

theorem mapFrom_get (f : Nat → α → β) (k : Nat) (l : List α) (i : Nat) (h : i < l.length) :
    (mapFrom f k l)[i]'(by rw [mapFrom_length]; exact h) = f (k + i) l[i] := by
  induction l generalizing k i with
  | nil => simp at h
  | cons x xs ih =>
    cases i with
    | zero => simp [mapFrom]
    | succ j => simp only [mapFrom, List.getElem_cons_succ]; rw [ih _ _ (by simpa using h)]; congr 1; omega

/-- Every item mapped with its position. -/
def mapIdx (f : Nat → α → β) (t : Tbl α n) : Tbl β n := ⟨mapFrom f 0 t.toList, by rw [mapFrom_length, t.size]⟩

/-- The table whose item at each position is given by a function of the position. -/
def ofIdx (n : Nat) (f : Nat → α) : Tbl α n := (fill n ()).mapIdx (fun i _ => f i)

@[simp] theorem get_fill (x : α) (i : Fin n) : (fill n x).get i = x := by simp [fill, get]
@[simp] theorem get_set_self (t : Tbl α n) (i : Fin n) (x : α) : (t.set i x).get i = x := by simp [get, set]
theorem get_set_ne (t : Tbl α n) {i j : Fin n} (x : α) (h : j ≠ i) : (t.set i x).get j = t.get j := by
  have : i.val ≠ j.val := fun e => h (Fin.ext e.symm)
  simp [get, set, this]
theorem get_set (t : Tbl α n) (i j : Fin n) (x : α) : (t.set i x).get j = if j = i then x else t.get j := by
  by_cases h : j = i
  · subst h; simp
  · simp [h, get_set_ne t x h]
@[simp] theorem get_map (f : α → β) (t : Tbl α n) (i : Fin n) : (t.map f).get i = f (t.get i) := by simp [get, map]
@[simp] theorem get_mapIdx (f : Nat → α → β) (t : Tbl α n) (i : Fin n) : (t.mapIdx f).get i = f i.val (t.get i) := by
  have := mapFrom_get f 0 t.toList i.val (by rw [t.size]; exact i.isLt)
  simpa [get, mapIdx] using this
@[simp] theorem get_ofIdx (f : Nat → α) (i : Fin n) : (ofIdx n f).get i = f i.val := by simp [ofIdx]

end Tbl

/-- The eight station numbers, or notice slots, lowest first. -/
def eight : List (Fin 8) := [0, 1, 2, 3, 4, 5, 6, 7]

/-- The sixteen channel table entries, lowest first (R185). -/
def sixteen : List (Fin 16) := [0, 1, 2, 3, 4, 5, 6, 7, 8, 9, 10, 11, 12, 13, 14, 15]

/-- The twenty-four rows of the face grid, lowest first (R1). -/
def rows24 : List (Fin 24) :=
  [0, 1, 2, 3, 4, 5, 6, 7, 8, 9, 10, 11, 12, 13, 14, 15, 16, 17, 18, 19, 20, 21, 22, 23]

end Sys2Proof
end

