-- ==== Sys2Proof/Syntax.lean ====
section
/-! DEFINITION. The commands of the block: one constructor for each row of spec/opcode_table.json, with the row's
operands. The table gives no operands of its own; each operand here is what the row's rule says the event brings (the
bytes of an accepted payload, the sender, the debounced level, the entry or order concerned). -/

namespace Sys2Proof

/-- One character as the line unit's receiver reads it (R130): its data bits, and whether its stop bit read
recessive. -/
structure LineChar where
  data : Byte
  stopOk : Bool
deriving DecidableEq, Repr

/-- A command: one step of the part, whole and indivisible. -/
inductive Instr where
  /-- POWER_ON (R191): power-on or the release of RESET; the straps S2 S1 S0 as they read. -/
  | powerOn (straps : BitVec 3)
  /-- RESET_ASSERT (R191): a RESET level of at least 1 ms. -/
  | resetAssert
  /-- IMAGE_READ_START (R201): the end of the 36 ms memory power-up wait. -/
  | imageReadStart
  /-- IMAGE_READ_COMPLETE (R192): the bytes sampled on MISO (R201, Machine.imageRead); bytes not answered read as 1 bits. -/
  | imageReadComplete (bytes : List Byte)
  /-- STATUS_PATTERN_STEP (R195): the next step of the STATUS pulse pattern. -/
  | statusPatternStep
  /-- LINE_GAP (R132, R143): the 12th recessive bit time. -/
  | lineGap
  /-- CONTENTION_DELAY_END (R132): 8 further recessive bit times after the gap. -/
  | contentionDelayEnd
  /-- ARBITRATION_LOST (R133, R134): a recessive bit of the named character read back dominant. -/
  | arbitrationLost (character : Fin 68)
  /-- SEND_ERROR (R133): any other read-back mismatch, in the named character. -/
  | sendError (character : Fin 68)
  /-- FRAME_REJECTED (R136): the characters read from the frame's start until the gap or the failing check. -/
  | frameRejected (chars : List LineChar)
  /-- STATE_SENT_WHOLE (R162). -/
  | stateSentWhole
  /-- ORDER_SENT_WHOLE (R123). -/
  | orderSentWhole
  /-- CLAIM_SENT_WHOLE (R151). -/
  | claimSentWhole
  /-- MAP_SENT_WHOLE (R175). -/
  | mapSentWhole
  /-- TRIP_SENT_WHOLE (R135). -/
  | tripSentWhole
  /-- CLAIM_TAKEN (R152): an accepted CLAIM frame's sender and payload. -/
  | claimTaken (sender : Station) (payload : List Byte)
  /-- CLAIM_WINDOW_EXPIRY (R151). -/
  | claimWindowExpiry
  /-- LINE_SILENCE_WATCH_EXPIRY (R150). -/
  | lineSilenceWatchExpiry
  /-- SILENCE_TIMER_EXPIRY (R156): the peer whose timer expires. -/
  | silenceTimerExpiry (station : Station)
  /-- STATE_TAKEN (R168): an accepted STATE frame's sender and payload. -/
  | stateTaken (sender : Station) (payload : List Byte)
  /-- TRIP_TAKEN (R172): an accepted TRIP frame's sender and payload. -/
  | tripTaken (sender : Station) (payload : List Byte)
  /-- MAP_TAKEN (R176): an accepted MAP frame's sender and payload. -/
  | mapTaken (sender : Station) (payload : List Byte)
  /-- MAP_REQUEST_TIMEOUT (R174). -/
  | mapRequestTimeout
  /-- RECOVERY_EXPIRY (R177). -/
  | recoveryExpiry
  /-- PUBLICATION_TIMER_EXPIRY (R162). -/
  | publicationTimerExpiry
  /-- EARLY_STATE_PLACE (R163). -/
  | earlyStatePlace
  /-- TAG_FIRST (R10): an order's sender, order number and argument bytes (column, row). -/
  | tagFirst (sender : Station) (number : Byte) (args : List Byte)
  /-- TAG_LAST (R11): column, row. -/
  | tagLast (sender : Station) (number : Byte) (args : List Byte)
  /-- RELEASE (R12). -/
  | release (sender : Station) (number : Byte)
  /-- WITHDRAW (R13). -/
  | withdraw (sender : Station) (number : Byte)
  /-- PROTECT (R5): zone. -/
  | protect (sender : Station) (number : Byte) (args : List Byte)
  /-- UNPROTECT (R6): zone. -/
  | unprotect (sender : Station) (number : Byte) (args : List Byte)
  /-- ADVANCE (R16). -/
  | advance (sender : Station) (number : Byte)
  /-- WASH_NOW (R54). -/
  | washNow (sender : Station) (number : Byte)
  /-- SCRUB_RESET (R50). -/
  | scrubReset (sender : Station) (number : Byte)
  /-- CONVEY_ON (R70). -/
  | conveyOn (sender : Station) (number : Byte)
  /-- CONVEY_OFF (R70). -/
  | conveyOff (sender : Station) (number : Byte)
  /-- CONVEY_RESET (R76). -/
  | conveyReset (sender : Station) (number : Byte)
  /-- MAP_REQUEST (R175). -/
  | mapRequest (sender : Station) (number : Byte)
  /-- ACK (R98): slot, raise number. -/
  | ack (sender : Station) (number : Byte) (args : List Byte)
  /-- CLEAR_FAULT (R146). -/
  | clearFault (sender : Station) (number : Byte)
  /-- RELINK (R144). -/
  | relink (sender : Station) (number : Byte)
  /-- ORDER_UNKNOWN_KIND (R170): an ORDER frame for this station with this kind code. -/
  | orderUnknownKind (sender : Station) (number : Byte) (kind : Byte)
  /-- ORDER_OTHER_TARGET (R170): an ORDER frame whose target field names this target. -/
  | orderOtherTarget (sender : Station) (target : Byte)
  /-- CUT_REQUEST_CHANGE (R26): the new debounced value. -/
  | cutRequestChange (active : Bool)
  /-- HEAD_RUNNING_CHANGE (R39). -/
  | headRunningChange (active : Bool)
  /-- POSE_EXPIRY (R25). -/
  | poseExpiry
  /-- DWELL_COMPLETE (R40). -/
  | dwellComplete
  /-- PERIOD_START (R63). -/
  | periodStart
  /-- MID_PERIOD_LOWERING (R64). -/
  | midPeriodLowering
  /-- ALLOWANCE_EXHAUSTED (R65). -/
  | allowanceExhausted
  /-- FAN_PROVEN_CHANGE (R47, R49). -/
  | fanProvenChange (active : Bool)
  /-- SPRAY_PRESSURE_CHANGE (R60). -/
  | sprayPressureChange (active : Bool)
  /-- START_WINDOW_EXPIRY (R47). -/
  | startWindowExpiry
  /-- PROOF_LOSS_EXPIRY (R49). -/
  | proofLossExpiry
  /-- RUN_ON_EXPIRY (R48). -/
  | runOnExpiry
  /-- QUIET_TIME_10S (R53). -/
  | quietTime10s
  /-- WASH_TIME_EXPIRY (R55). -/
  | washTimeExpiry
  /-- SETTLING_EXPIRY (R55). -/
  | settlingExpiry
  /-- BELT_PROVEN_CHANGE (R71, R73). -/
  | beltProvenChange (active : Bool)
  /-- CHAIN_PROVEN_CHANGE (R71, R73). -/
  | chainProvenChange (active : Bool)
  /-- PULL_WIRE_CHANGE (R75). -/
  | pullWireChange (active : Bool)
  /-- WARNING_EXPIRY (R71). -/
  | warningExpiry
  /-- BELT_WINDOW_EXPIRY (R71). -/
  | beltWindowExpiry
  /-- CHAIN_WINDOW_EXPIRY (R71). -/
  | chainWindowExpiry
  /-- BELT_LOSS_EXPIRY (R73). -/
  | beltLossExpiry
  /-- CHAIN_LOSS_EXPIRY (R73). -/
  | chainLossExpiry
  /-- STALL_EXPIRY (R74). -/
  | stallExpiry
  /-- RUN_OFF_EXPIRY (R72). -/
  | runOffExpiry
  /-- BELT_TIME_TICK (R85). -/
  | beltTimeTick
  /-- LOT_WINDOW_OPEN (R86). -/
  | lotWindowOpen
  /-- LOT_RETIREMENT (R87). -/
  | lotRetirement
  /-- HORN_TIME_EXPIRY (R105). -/
  | hornTimeExpiry
  /-- VIGILANCE_PERIOD_EXPIRY (R109). -/
  | vigilancePeriodExpiry
  /-- GRACE_EXPIRY (R109, R110). -/
  | graceExpiry
  /-- VIGIL_PAIR_EXPIRY (R111). -/
  | vigilPairExpiry
  /-- PANEL_FRAME_SEND (R126). -/
  | panelFrameSend
  /-- KEY_REPORT (R126): the bytes sampled on PDI (R200, Machine.keyReportRead). -/
  | keyReport (bytes : List Byte)
  /-- KEY_REPORT_MISSING (R127): the end of the 50 ms. -/
  | keyReportMissing
  /-- KEY_PAGE (R114). -/
  | keyPage
  /-- KEY_UP (R117). -/
  | keyUp
  /-- KEY_DOWN (R117). -/
  | keyDown
  /-- KEY_LEFT (R117). -/
  | keyLeft
  /-- KEY_RIGHT (R117). -/
  | keyRight
  /-- KEY_SELECT (R118, R120). -/
  | keySelect
  /-- KEY_RELEASE (R118). -/
  | keyRelease
  /-- KEY_WITHDRAW (R118). -/
  | keyWithdraw
  /-- KEY_PROTECT (R118). -/
  | keyProtect
  /-- KEY_ADVANCE (R118). -/
  | keyAdvance
  /-- KEY_ACK (R119, R122). -/
  | keyAck
  /-- KEY_VIGIL_A (R111). -/
  | keyVigilA
  /-- KEY_VIGIL_B (R111). -/
  | keyVigilB
  /-- PENDING_ORDER_TIMEOUT (R125): the order number of the entry whose limit passes. -/
  | pendingOrderTimeout (number : Byte)
  /-- CHANNEL_DUE (R182): the entry whose poll interval has passed. -/
  | channelDue (entry : Fin 16)
  /-- POLL_SEND (R182). -/
  | pollSend
  /-- QUIET_WAIT_END (R182). -/
  | quietWaitEnd
  /-- ANSWER_TIMEOUT (R183). -/
  | answerTimeout
  /-- GAP_LIMIT_EXPIRY (R184). -/
  | gapLimitExpiry
  /-- SENSOR_CHARACTER (R180, R184): the data bits, the parity bit (read only when the image enables parity) and
  whether the stop bit read mark. -/
  | sensorCharacter (data : Byte) (parity : Bool) (stopMark : Bool)
  /-- SENSOR_BREAK (R181). -/
  | sensorBreak
  /-- VALUE_STALE (R187): the entry whose value age reaches 4 times its interval. -/
  | valueStale (entry : Fin 16)
deriving DecidableEq, Repr

end Sys2Proof
end

