-- ==== Sys2Proof/Machine/Records.lean ====
section
/-! DEFINITION. The names and records of the part: the enumerations of chapter 12, the entries and frames of the
machine line as their fields stand on the wire, and the parameters of the configuration image. -/

namespace Sys2Proof.Machine

/-- The four roles (chapter 12, code 0 is NONE and stands in the image only). -/
inductive Role where
  | cutter | scrubber | conveyor | cab
deriving DecidableEq, Repr

/-- Line states (chapter 07, "Line states"). -/
inductive LineState where
  | start | claiming | run | quiet | withdrawn | inactive
deriving DecidableEq, Repr

/-- Why a part is INACTIVE (R195). -/
inductive InactiveCause where
  | config | duplicate | role
deriving DecidableEq, Repr

/-- Frame classes, lowest class value first (R131). -/
inductive FrameClass where
  | trip | claim | order | map | state
deriving DecidableEq, Repr

/-- Permit states (R27). -/
inductive PermitState where
  | held | free | trim | stopped
deriving DecidableEq, Repr

/-- Recovery states (R174, R177). -/
inductive RecoveryState where
  | none | restoring | lost
deriving DecidableEq, Repr

/-- Fan states (chapter 03, "Fan sequence"). -/
inductive FanState where
  | stopped | starting | running | runOn | fault
deriving DecidableEq, Repr

/-- Wash states (R52). -/
inductive WashState where
  | clear | due | washing | settling | uncleared
deriving DecidableEq, Repr

/-- Conveyor states (chapter 04, "Conveyor sequence"). -/
inductive ConvState where
  | stopped | warning | beltStarting | chainStarting | running | runOff | fault
deriving DecidableEq, Repr

/-- What took the conveyor into FAULT (R76). -/
inductive ConvFault where
  | windowOrLoss | stall | pullWire
deriving DecidableEq, Repr

/-- Vigilance states (R109). -/
inductive VigState where
  | idle | running | warned | lapsed
deriving DecidableEq, Repr

/-- Notice classes (R92). -/
inductive NoticeClass where
  | trip | warn | note
deriving DecidableEq, Repr

/-- Notice states (R92). -/
inductive NoticeState where
  | active | acked | cleared
deriving DecidableEq, Repr

/-- The notice catalogue, codes 1 to 28 in order (chapter 05). -/
inductive NoticeCode where
  | profileBreach | faceComplete | spoilAccountLost | mapRestored | mapLost | fanFault | filterNotCleared
  | washAborted | dustAction | dustLimit | pullWire | faceFall | conveyorFault | chainStall | overbreakSuspected
  | spoilShort | straySpoil | vigilanceLapsed | vigilance | stationSilent | panelLost | answerMissing | lineWarning
  | lineQuiet | lineLate | ordersDropped | channelFault | sensorLineBreak
deriving DecidableEq, Repr

/-- Outcomes of a retirement OK, SHORT, OVER, FALL (R87). -/
inductive LotOutcome where
  | ok | short | overbreak | fall
deriving DecidableEq, Repr

/-- Fault kinds of the line fault record (R145). -/
inductive FaultKind where
  | framing | malformed | length | check | sendBit
deriving DecidableEq, Repr

/-- Answer codes (R170). -/
inductive AnswerCode where
  | done | sequence | range | zoneProtected | state | notFound | role
deriving DecidableEq, Repr

/-- Cell states (R3); the cell codes of chapter 12. -/
inductive CellState where
  | outside | solid | released | cut
deriving DecidableEq, Repr

/-- Cell kinds (R2). -/
inductive CellKind where
  | outside | inside | trim
deriving DecidableEq, Repr

/-- Channel meanings (R185). -/
inductive Meaning where
  | unused | poseX | poseY | dust | pressure | massRate | chainLoad
deriving DecidableEq, Repr

/-- Order kinds, codes 1 to 16 in order (chapter 12). -/
inductive OrderKind where
  | tagFirst | tagLast | release | withdraw | protect | unprotect | advance | washNow | scrubReset | conveyOn
  | conveyOff | conveyReset | mapRequest | ack | clearFault | relink
deriving DecidableEq, Repr

/-- The thirteen keys of the panel module, key codes 1 to 13 in order (chapter 12). -/
inductive Key where
  | page | up | down | left | right | select | release | withdraw | protect | advance | ack | vigilA | vigilB
deriving DecidableEq, Repr

/-- Panel pages in the order of R114. -/
inductive Page where
  | face | notices | dust | spoil | line | firstOut
deriving DecidableEq, Repr

/-- Roster states (R156). -/
inductive RosterState where
  | present | silent | excluded | foreign
deriving DecidableEq, Repr

/-- Channel states (R185). -/
inductive ChannelState where
  | never | good | missing | fault
deriving DecidableEq, Repr

/-- States of the answer assembly with the characters kept so far (R184). -/
inductive Assembly where
  | hunt
  | channel
  | high
  | low (high : Byte)
  | check (high low : Byte)
deriving DecidableEq, Repr

/-- A cell named by column and row (R1). -/
structure Cell where
  col : Fin 32
  row : Fin 24
deriving DecidableEq, Repr

/-! ## Entries and frames as they stand on the wire

Fields that peers send are kept as they stand (a code that names nothing is held, not refused), so that a replica
holds exactly what was taken. -/

/-- A NOTICE entry, after its kind byte (chapter 12); `cls` and `state` are the two-bit fields. -/
structure NoticeEntry where
  slot : Byte
  code : Byte
  cls : BitVec 2
  state : BitVec 2
  raise : Byte
  detail : Byte
deriving DecidableEq, Repr

/-- A LOT entry. -/
structure LotEntry where
  number : Word16
  advance : Word16
  count : Word16
  expected : Word16
  span : Word16
deriving DecidableEq, Repr

/-- A RETIRE entry. -/
structure RetireEntry where
  number : Word16
  outcome : Byte
  mass : Word32
deriving DecidableEq, Repr

/-- A TAG entry; `record` is bit 7 and `state` bits 1 to 0 of its second byte. -/
structure TagEntry where
  bound : Byte
  record : Bool
  state : BitVec 2
  firstCol : Byte
  firstRow : Byte
  lastCol : Byte
  lastRow : Byte
deriving DecidableEq, Repr

/-- Thirty-two cells of one row of the face, column 0 first. -/
abbrev RowCells := Tbl CellState 32

/-- A ROW entry, and the payload of a MAP frame: the two have one layout after the kind byte. -/
structure RowEntry where
  row : Byte
  advance : Word16
  cells : RowCells
deriving DecidableEq, Repr

/-- A FAULT entry. -/
structure FaultEntry where
  kind : Byte
  cls : Byte
  position : Byte
  count : Byte
deriving DecidableEq, Repr

/-- An ANSWER entry. -/
structure AnswerEntry where
  requester : Byte
  number : Byte
  code : Byte
deriving DecidableEq, Repr

/-- The common part of a STATUS entry. -/
structure StatusCommon where
  role : Byte
  lineState : Byte
  ready : Bool
  overflow : Bool
  late : Byte
  mask : Byte
  sfc : Byte
  hfc : Byte
deriving DecidableEq, Repr

/-- The CUTTER's part of a STATUS entry (23 bytes). Of the two mask fields only the bits the layout names are kept: the
others are disregarded (R197). -/
structure CutterPart where
  permit : Byte
  reasons : BitVec 11
  headCol : Byte
  headRow : Byte
  demand : Bool
  faceComplete : Bool
  lotOpen : Bool
  allowance : Word16
  position : Word16
  advance : Word16
  recovery : Byte
  tempZones : BitVec 6
  issued : Word16
  outstanding : Word24
  cutMass : Word32
deriving DecidableEq, Repr

/-- The SCRUBBER's part of a STATUS entry (7 bytes). -/
structure ScrubberPart where
  fan : Byte
  wash : BitVec 3
  spray : Bool
  capacity : Byte
  dust : Word16
  pressure : Word16
deriving DecidableEq, Repr

/-- The CONVEYOR's part of a STATUS entry (16 bytes). -/
structure ConveyorPart where
  state : Byte
  resync : Bool
  taken : Word16
  retired : Word16
  headMass : Word32
  stray : Word32
  rate : Word16
deriving DecidableEq, Repr

/-- A CAB's part of a STATUS entry (4 bytes). -/
structure CabPart where
  vigilance : Byte
  duty : Bool
  mapComplete : Bool
  mapAdvance : Word16
deriving DecidableEq, Repr

/-- The role part of a STATUS entry: that of the role its role byte names, and none for a byte that names no role
(R168). -/
inductive RolePart where
  | cutter (p : CutterPart)
  | scrubber (p : ScrubberPart)
  | conveyor (p : ConveyorPart)
  | cab (p : CabPart)
  | none
deriving DecidableEq, Repr

/-- A STATUS record: what a replica keeps and what the station publishes of itself. -/
structure StatusRecord where
  common : StatusCommon
  part : RolePart
deriving DecidableEq, Repr

/-- The eight kinds of entry of a STATE frame. -/
inductive Entry where
  | status (r : StatusRecord)
  | answer (a : AnswerEntry)
  | notice (n : NoticeEntry)
  | lot (l : LotEntry)
  | retire (r : RetireEntry)
  | tag (t : TagEntry)
  | row (r : RowEntry)
  | fault (f : FaultEntry)
deriving DecidableEq, Repr

/-- The fields of a CLAIM frame (R148). -/
structure ClaimFrame where
  role : Byte
  serial : Word32
  signature : Word16
  bid : Byte
  joining : Bool
  ready : Bool
deriving DecidableEq, Repr

/-- An ORDER frame this station sends. -/
structure OrderFrame where
  target : Station
  number : Byte
  kind : OrderKind
  args : List Byte
deriving DecidableEq, Repr

/-- A STATE frame this station sends: its entries, STATUS first, and the number of its build. -/
structure StateFrame where
  entries : List Entry
  build : Nat
deriving DecidableEq, Repr

/-- A frame being sent, as it stood when its sending began (R135). -/
inductive OutFrame where
  | trip (n : NoticeEntry)
  | claim (c : ClaimFrame)
  | order (o : OrderFrame)
  | map (r : RowEntry)
  | state (f : StateFrame)
deriving DecidableEq, Repr

/-! ## The configuration image (chapter 11, "Image parameters"; chapter 12, "Configuration image") -/

/-- One entry of a station's channel table. The interval is in 10 ms units. -/
structure ChannelCfg where
  address : Byte
  meaning : Meaning
  interval : Nat
deriving DecidableEq, Repr

/-- The parameters of one station number. -/
structure StationCfg where
  role : Option Role
  duty : Bool
  autoRejoin : Bool
  mapRecovery : Bool
  bid : Nat
  sensorRate : Fin 4
  parity : Bool
  channels : Tbl ChannelCfg 16
deriving DecidableEq, Repr

/-- The image's parameters as the part holds them after START. -/
structure Image where
  signature : Word16
  stations : Tbl StationCfg 8
  lineRate : Nat
  warningLevel : Nat
  kinds : Tbl (Tbl CellKind 32) 24
  permZones : BitVec 6
  pitch : Nat
  massInside : Nat
  massTrim : Nat
  dwellInside : Nat
  dwellTrim : Nat
  period : Nat
  base : Nat
  actionLevel : Nat
  limitLevel : Nat
  washDue : Nat
  blocked : Nat
  washTime : Nat
  runOff : Nat
  stallLevel : Nat
  transit : Nat
  settle : Nat
  lotLimit : Nat
  holdLevel : Nat
  shortLevel : Nat
  overLevel : Nat
  fallLevel : Nat
  strayLimit : Nat
  vigilance : Nat
deriving DecidableEq, Repr

/-! ## What a panel line shows (chapter 06) -/

/-- The text the status line shows (R114). -/
inductive StatusLine where
  | blank
  | answer (kind : OrderKind) (target : Station) (code : Byte)
  | noAnswer (kind : OrderKind) (target : Station)
  | busy
  | noStation
  | active
deriving DecidableEq, Repr

/-- One line of the NOTICES snapshot (R119). -/
structure SnapLine where
  owner : Station
  code : Byte
  slot : Byte
  cls : BitVec 2
  raise : Byte
  state : BitVec 2
deriving DecidableEq, Repr

/-- Glyphs of the FACE page (chapter 12, "Panel exchange"). -/
inductive Glyph where
  | cursor | head | tag | unknown | zone | cell (c : CellState)
deriving DecidableEq, Repr

/-- What the permit line shows of a CUTTER STATUS (R117). -/
structure PermitShown where
  permit : Byte
  reasons : BitVec 11
  advance : Word16
  faceComplete : Bool
deriving DecidableEq, Repr

/-- What the LINE page shows of a roster entry (R121). -/
structure RosterShown where
  role : Byte
  state : RosterState
  bid : Nat
  ready : Option Bool
deriving DecidableEq, Repr

/-- The content of one panel line: what the line shows. Where the manual gives the characters, they are in
`Machine/PanelView.lean`; where it gives only the content, the characters are the free value `Config.lineText`. -/
inductive LineContent where
  | blank
  | faceRow (glyphs : List Glyph)
  | cursorCell (cell : Cell) (kind : CellKind) (state : Option CellState) (zone : Nat) (isProtected : Bool)
  | permitLine (shown : Option PermitShown) (stale : Bool)
  | header (page : Page) (station : Station) (state : LineState) (overflow : Bool) (isNew : Bool)
  | status (line : StatusLine)
  | notice (line : SnapLine) (isNew : Bool) (selected : Bool)
  | record (status : StatusRecord) (stale : Bool)
  | noRecord
  | cutterDust (allowance : Word16) (position : Word16) (stale : Bool)
  | cutterSpoil (issued : Word16) (lotOpen : Bool) (outstanding : Word24) (cutMass : Word32) (stale : Bool)
  | retired (sender : Station) (entry : RetireEntry) (stale : Bool)
  | offer (kinds : List OrderKind) (chosen : Nat)
  | stationLine (station : Station) (entry : Option RosterShown) (status : Option (Byte × Byte × Byte))
      (fault : Option FaultEntry) (selected : Bool)
  | ownLine (r : Nat) (sfc : Nat) (hfc : Nat) (fault : Option FaultEntry)
  | firstOutOwner (owner : Station)
  | firstOutCode (code : Byte) (raise : Byte)
  | firstOutState (state : Option (BitVec 2))
  | empty
deriving DecidableEq, Repr

/-- A panel frame: page id and lines, each with its number (R126). -/
structure PanelFrame where
  page : Page
  lines : List (Nat × LineContent)
deriving DecidableEq, Repr

end Sys2Proof.Machine
end

