-- ==== Sys2Proof/Config.lean ====
section
/-! DEFINITION. What the manual leaves open (free values, constants without a body) and the fixed times of the
manual, in ticks. -/

namespace Sys2Proof.Config
open Sys2Proof.Machine

/-- FREE VALUE (DESIGN CHOICE, log entry 2): the ratio of R87, as a percentage, of a lot whose LOT entry gave an expected
mass of 0. The manual states no ratio there; the argument is the measured mass in 0.1 kg. -/
opaque ratioOfZeroExpected : Nat → Nat

/-- FREE VALUE (DESIGN CHOICE, log entry 3): the 40 characters of a panel line whose content the manual gives but whose
characters it does not. -/
opaque lineText : LineContent → List Byte

/-- The memory power-up wait of R201. -/
def memoryWait : Ticks := ms 36
/-- The debounce time of R189. -/
def debounce : Ticks := ms 20
/-- The claim window of R151. -/
def claimWindow : Ticks := ms 100
/-- The pose freshness limit of R25. -/
def poseLimit : Ticks := ms 100
/-- The start window of R47. -/
def startWindow : Ticks := sec 20
/-- The proof loss time of R49. -/
def proofLoss : Ticks := sec 2
/-- The run-on time of R48. -/
def runOn : Ticks := sec 120
/-- The quiet time of R53. -/
def quietTime : Ticks := sec 10
/-- The settling time of R55. -/
def settling : Ticks := sec 10
/-- The siren warning of R71. -/
def warning : Ticks := sec 5
/-- The belt window of R71. -/
def beltWindow : Ticks := sec 10
/-- The chain window of R71. -/
def chainWindow : Ticks := sec 5
/-- The belt and chain loss times of R73. -/
def driveLoss : Ticks := sec 1
/-- The stall time of R74. -/
def stall : Ticks := sec 2
/-- The horn time of R105. -/
def horn : Ticks := sec 3
/-- The grace time of R109. -/
def grace : Ticks := sec 10
/-- The time of a half-taken pair, R111. -/
def vigilPair : Ticks := sec 2
/-- The spacing of panel frames, R126. -/
def panelPeriod : Ticks := ms 100
/-- The wait for a key report, R126. -/
def keyWait : Ticks := ms 50
/-- The recovery time of R174. -/
def recovery : Ticks := sec 2
/-- A pulse of the STATUS pattern, R195. -/
def statusPulse : Ticks := ms 200
/-- The pause of the STATUS pattern, R195. -/
def statusPause : Ticks := sec 1
/-- The largest measured or stray mass in 0.1 kg: 4294967295 kg (R85). -/
def massTop : Nat := 42949672950

end Sys2Proof.Config
end

