-- ==== Sys2Proof/Machine/State.lean ====
section
/-! DEFINITION. The state of one DS12, block by block, as plain data; the outcomes a step can have beside a next state;
and the state right after power-on.

Outputs and other published values that a rule defines from these (P0 to P3, the STATUS code, SPRAY, the capacity,
face complete, map complete, demand) are computed views in `Machine/Views.lean`, so that each fact has one home. -/

namespace Sys2Proof.Machine

/-! ## Start-up and outputs of the part itself -/

/-- The configuration port (R201): waiting out the memory's power-up time, reading, or idle. -/
inductive Spi where
  | waiting (left : Ticks)
  | reading
  | idle
deriving DecidableEq, Repr

/-- Where the STATUS pattern stands (R195): the pause, or pulse `k` active, or the inactive part after pulse `k`. -/
inductive StatusPhase where
  | pause
  | on (k : Nat)
  | off (k : Nat)
deriving DecidableEq, Repr

/-- The STATUS output (R195): the code shown, the place in its pattern, and the time left there. -/
structure StatusOut where
  code : Nat
  phase : StatusPhase
  timer : Timer
deriving DecidableEq, Repr

/-- The debounced values of the discrete inputs (R189), true for active. -/
structure Inputs where
  i0 : Bool
  i1 : Bool
  i2 : Bool
  i3 : Bool
deriving DecidableEq, Repr

/-- The pin of a discrete input (R189, R196). -/
structure Pin where
  /-- the raw level: high, as an open input reads through its pull-up; low is active -/
  high : Bool
  /-- what is left of the 20 ms for which the raw level must stand at the other value; none while it does not -/
  left : Timer
deriving DecidableEq, Repr

/-! ## Line unit (chapter 07) -/

/-- The line fault record while it holds a fault (R145). -/
structure FaultRecord where
  kind : FaultKind
  cls : Option FrameClass
  position : Fin 68
  count : Nat
deriving DecidableEq, Repr

/-- What the line unit knows of the line (R132): not in a gap, 12 recessive bit times passed, 20 passed. -/
inductive Bus where
  | busy | gap12 | gap20
deriving DecidableEq, Repr

/-- The line unit. -/
structure LineUnit where
  /-- line state (R129, chapter 07 "Line states") -/
  state : LineState
  /-- why the part is INACTIVE (R195) -/
  cause : Option InactiveCause
  /-- send fault count, 0 to 255 (R138) -/
  sfc : Nat
  /-- hear fault count, 0 to 255 (R138) -/
  hfc : Nat
  /-- line fault record (R145) -/
  record : Option FaultRecord
  /-- the two TRIP slots, the frame queued first at the front (R135) -/
  trip : List NoticeEntry
  /-- the CLAIM slot (R135) -/
  claim : Option ClaimFrame
  /-- the ORDER slot (R135) -/
  order : Option OrderFrame
  /-- the MAP slot (R135) -/
  map : Option RowEntry
  /-- the STATE slot (R135) -/
  stateSlot : Option StateFrame
  /-- the frame being sent, as it stood when its sending began (R135) -/
  sending : Option OutFrame
  /-- the line as last seen (R132) -/
  bus : Bus
  /-- a frame has been accepted or rejected, or a send error met, and no gap has passed since: what the line carries counts
  for nothing (R133, R136) -/
  awaitsGap : Bool
  /-- idle gap count, held while WITHDRAWN (R143) -/
  idleGaps : Option Nat
deriving DecidableEq, Repr

/-! ## Claim and roster unit (chapter 08) -/

/-- A roster entry (R156); the signature is kept for the reassessment of R159. -/
structure RosterEntry where
  role : Byte
  serial : Word32
  signature : Word16
  bid : Nat
  state : RosterState
  ready : Option Bool
  claimedReady : Bool
  silence : Timer
deriving DecidableEq, Repr

/-- An entry of the candidate roster (R152). -/
structure CandEntry where
  role : Byte
  serial : Word32
  signature : Word16
  bid : Nat
  ready : Bool
deriving DecidableEq, Repr

/-- The claim and roster unit. -/
structure ClaimUnit where
  /-- the roster of 8 entries (R155, R156) -/
  roster : Tbl (Option RosterEntry) 8
  /-- the refresh period R in 10 ms units (R155) -/
  r : Nat
  /-- the candidate roster while a claim is in progress (R149) -/
  candidate : Option (Tbl (Option CandEntry) 8)
  /-- the claim window (R151) -/
  window : Timer
  /-- the line silence watch (R150) -/
  watch : Timer
  /-- the station's own joining mark (R148, R155) -/
  joining : Bool
  /-- the own CLAIM has been sent whole in this claim (R152) -/
  ownSent : Bool
  /-- a claim has closed since power-on (R62, R174) -/
  closed : Bool
deriving DecidableEq, Repr

/-! ## Publication unit and shared picture (chapter 09) -/

/-- The publication unit. A changed mark is the number of builds made when the item last changed (R166). -/
structure PubUnit where
  /-- the publication timer (R162) -/
  timer : Timer
  /-- the late count, 0 to 255 (R164) -/
  late : Nat
  /-- time since the last STATE sent whole, none before the first; held at 62.5 ms, the largest R/4 (R163) -/
  sinceSent : Option Ticks
  /-- an early STATE waits for its R/4 (R163) -/
  early : Bool
  /-- the answer queue, oldest first, at most 4 (R171) -/
  answers : List AnswerEntry
  /-- an order dropped since the answer queue last emptied (R170, R171) -/
  dropped : Bool
  /-- an event within the command being taken has changed an early field (R163); false between commands -/
  asked : Bool
  /-- rolling row index (R166) -/
  rollRow : Fin 24
  /-- rolling slot index (R166) -/
  rollSlot : Fin 8
  /-- STATE frames built since power-on (orders builds against changes, R166) -/
  builds : Nat
  /-- changed marks of the 24 rows (R19, R166) -/
  rowMarks : Tbl (Option Nat) 24
  /-- changed marks of the two tag range records (R7, R166) -/
  tagMarks : Tbl (Option Nat) 2
deriving DecidableEq, Repr

/-- The replica set of one station number (R169). -/
structure Replica where
  status : Option StatusRecord
  slots : Tbl (Option NoticeEntry) 8
  fault : Option FaultEntry
  tags : Tbl (Option TagEntry) 2
deriving DecidableEq, Repr

/-- A MAP send in progress at a CAB: the copy, and the number of the next row to place (R175). -/
structure SendCopy where
  rows : Tbl RowEntry 24
  next : Nat
deriving DecidableEq, Repr

/-- The CAB's map replica, its RETIRE entries and its MAP send (R168, R173, R175). -/
structure CabMap where
  /-- the row replica (R173) -/
  rows : Tbl (Option RowEntry) 24
  /-- held for recovery (R173) -/
  held : Bool
  /-- rows from before a restart that no ROW entry has replaced since (R173) -/
  old : Tbl Bool 24
  /-- the latest RETIRE entries taken, newest first, at most 8, each with its sender (R168) -/
  retires : List (Station × RetireEntry)
  /-- the send copy (R175) -/
  send : Option SendCopy
deriving DecidableEq, Repr

/-- An outstanding MAP_REQUEST: its timer runs once the request has been sent whole (R174). -/
structure MapRequest where
  source : Station
  number : Byte
  timer : Timer
deriving DecidableEq, Repr

/-- Map recovery at the CUTTER (R174 to R177). -/
structure RecoveryUnit where
  /-- recovery state -/
  state : RecoveryState
  /-- the 2 s recovery time -/
  timer : Timer
  /-- request counter -/
  counter : Byte
  /-- recovery buffer of 24 rows -/
  buffer : Tbl (Option RowEntry) 24
  /-- the outstanding request -/
  request : Option MapRequest
  /-- the CAB to which the latest MAP_REQUEST was addressed -/
  source : Option Station
  /-- CABs that answered STATE and have not shown map complete since -/
  refused : Tbl Bool 8
  /-- a recovered map has been adopted since power-on (R33) -/
  adopted : Bool
  /-- adopted, and no ADVANCE since: the condition of "MAP RESTORED" (R176) -/
  restored : Bool
  /-- "MAP LOST" has been acknowledged (R177) -/
  lostAcked : Bool
deriving DecidableEq, Repr

/-! ## Notice queue (chapter 05) -/

/-- A notice of the own queue (R92). -/
structure Notice where
  code : NoticeCode
  raise : Byte
  state : NoticeState
  detail : Byte
deriving DecidableEq, Repr

/-- The notice queue. -/
structure NoticeQueue where
  /-- the 8 slots (R92) -/
  slots : Tbl (Option Notice) 8
  /-- changed marks of the slots (R100, R166) -/
  marks : Tbl (Option Nat) 8
  /-- the raise counter (R92) -/
  counter : Byte
  /-- the raise order: occupied slots, earliest raise first (R92) -/
  order : List (Fin 8)
  /-- the waiting set, by catalogue position (R96) -/
  waiting : Tbl Bool 28
  /-- the notice overflow flag (R92) -/
  overflow : Bool
  /-- the conditions as last judged, by catalogue position (R93) -/
  holds : Tbl Bool 28
deriving DecidableEq, Repr

/-! ## Sensor unit (chapter 10) -/

/-- A channel table entry's live fields (R185); its address, meaning and interval are in the image. -/
structure Channel where
  value : Option Word16
  /-- time since the latest good answer; 0 while none has come (R185) -/
  age : Ticks
  /-- the value has become stale since (R187) -/
  stale : Bool
  /-- miss count, 0 to 3 -/
  miss : Nat
  state : ChannelState
  /-- due for a poll (R182) -/
  due : Bool
  /-- time to the next due moment (R182) -/
  next : Timer
deriving DecidableEq, Repr

/-- The sensor unit. -/
structure SensorUnit where
  channels : Tbl Channel 16
  /-- answer assembly (R184) -/
  assembly : Assembly
  /-- the entry whose poll is outstanding (R182) -/
  polled : Option (Fin 16)
  /-- the quiet wait after a discard runs (R182) -/
  quietWait : Bool
  /-- the sensor line is BROKEN (R181) -/
  broken : Bool
  /-- the station's ready flag (R188) -/
  ready : Bool
deriving DecidableEq, Repr

/-! ## Face map and permit unit (chapters 01, 02) -/

/-- State and cells of a tag range record (R7). -/
inductive TagRange where
  | none
  | first (a : Cell)
  | range (a b : Cell)
deriving DecidableEq, Repr

/-- A tag range record (R7). -/
structure TagRecord where
  bound : Option Station
  range : TagRange
deriving DecidableEq, Repr

/-- The face map of the CUTTER; the cell kinds and the permanent zone mask are in the image (R1 to R8). -/
structure FaceMap where
  cells : Tbl RowCells 24
  /-- temporary zone flags, bit z for zone z (R4) -/
  temp : BitVec 6
  tags : Tbl TagRecord 2
  advance : Word16
deriving DecidableEq, Repr

/-- The eleven hold reasons (R28 to R33). -/
structure Reasons where
  demand : Bool
  line : Bool
  roster : Bool
  pose : Bool
  cell : Bool
  zone : Bool
  dust : Bool
  spoil : Bool
  trip : Bool
  vigil : Bool
  restore : Bool
deriving DecidableEq, Repr

/-- The permit unit (chapter 02). -/
structure PermitUnit where
  state : PermitState
  reasons : Reasons
  /-- latest POSE_X and POSE_Y (R23) -/
  poseX : Option Word16
  poseY : Option Word16
  /-- time since each latest delivery, held at 100 ms (R25) -/
  ageX : Ticks
  ageY : Ticks
  /-- POSE_X was delivered last -/
  lastX : Bool
  /-- the pose is fresh (R25) -/
  fresh : Bool
  /-- head cell, none for OFF-GRID (R24) -/
  head : Option Cell
  /-- dwell timer, in ticks (R39); the unit that completes the dwell is left to DWELL_COMPLETE (R41) -/
  dwell : Ticks
  /-- at this tick the dwell timer, running, has come to the configured dwell: DWELL_COMPLETE is due (R40) -/
  reached : Bool
  /-- a pose event has reset a running dwell timer at this moment: its completion, taken after, gives no credit (R41) -/
  superseded : Bool
  /-- "PROFILE BREACH" has entered the queue for this breach (R38, R44) -/
  breachEntered : Bool
deriving DecidableEq, Repr

/-- The dust allowance unit (R62 to R67). -/
structure DustUnit where
  /-- period position in ticks; none until the first claim close -/
  position : Option Ticks
  /-- compare A has been made in this period -/
  midDone : Bool
  /-- allowance remaining, 0.1 s -/
  remaining : Nat
  /-- allowance used this period, 0.1 s -/
  used : Nat
  /-- carried fraction of a unit, in ticks -/
  fraction : Ticks
deriving DecidableEq, Repr

/-- A lot of the ring (R78). -/
structure Lot where
  number : Word16
  advance : Word16
  count : Nat
  expected : Nat
  /-- open span, 0.1 s, held at 65535 -/
  span : Nat
  isOpen : Bool
deriving DecidableEq, Repr

/-- The lot ring (R78 to R83). -/
structure LotRing where
  lots : List Lot
  issued : Word16
  cutMass : Word32
  retiredHeld : Word16
  takenHeld : Word16
  /-- conveyor resync flag (R82) -/
  resync : Bool
  /-- lots removed as UNACCOUNTED, and no lot removed as retired since (R82) -/
  accountLost : Bool
  /-- the part of 0.1 s the open span has run beyond its value, in ticks -/
  spanPart : Ticks
deriving DecidableEq, Repr

/-! ## Scrubber and conveyor sequencers (chapters 03, 04) -/

/-- The scrubber sequencer (R45 to R61). -/
structure Scrubber where
  fan : FanState
  wash : WashState
  /-- latest DUST and PRESSURE values (R45) -/
  dust : Option Word16
  pressure : Option Word16
  /-- demand shown, as last judged (R46) -/
  demand : Bool
  /-- what the quiet time lacks of 10 s; none once it has reached it (R46, R53) -/
  quietLeft : Timer
  startWindow : Timer
  proofLoss : Timer
  runOn : Timer
  washTime : Timer
  settling : Timer
  /-- conditions of "DUST ACTION", "DUST LIMIT" (R58) and "WASH ABORTED" (R56) -/
  dustAction : Bool
  dustLimit : Bool
  washAborted : Bool
deriving DecidableEq, Repr

/-- A lot record of the CONVEYOR (R84); masses in 0.1 kg, times in 0.1 s of belt time. -/
structure LotRec where
  lot : LotEntry
  arrival : Nat
  measured : Nat
deriving DecidableEq, Repr

/-- The conveyor sequencer and lot tally (R68 to R91). -/
structure Conveyor where
  state : ConvState
  /-- what took it into the present FAULT -/
  fault : Option ConvFault
  /-- the standing flag (R70) -/
  standing : Bool
  /-- run demand, as last judged (R69) -/
  runDemand : Bool
  warning : Timer
  beltWindow : Timer
  chainWindow : Timer
  runOff : Timer
  beltLoss : Timer
  chainLoss : Timer
  stall : Timer
  /-- latest MASS_RATE and CHAIN_LOAD values (R68) -/
  rate : Option Word16
  load : Option Word16
  /-- lot records, oldest first (R84) -/
  records : List LotRec
  taken : Word16
  retired : Word16
  /-- the resync mark (R88) -/
  resync : Bool
  /-- belt time, 0.1 s, and the part of a tenth run since (R85) -/
  beltTime : Nat
  beltPart : Ticks
  /-- stray mass, 0.1 kg (R85) -/
  stray : Nat
  /-- the current advance (R85) -/
  advance : Option Word16
  /-- the close of the window of the lot retired last since the records were last discarded (R86) -/
  lastClose : Option Nat
  /-- the head lot's window is open (R86) -/
  windowOpen : Bool
  /-- an OVER, or a SHORT, retirement since the last OK one (R87) -/
  overSeen : Bool
  shortSeen : Bool
  /-- RETIRE entries waiting, oldest first, at most 16 (R87) -/
  retires : List RetireEntry
deriving DecidableEq, Repr

/-! ## Cab (chapters 05, 06) -/

/-- A candidate of the display list (R101). -/
structure Cand where
  owner : Station
  entry : NoticeEntry
deriving DecidableEq, Repr

/-- A captured first-out record (R106). -/
structure FirstOut where
  owner : Station
  code : Byte
  raise : Byte
deriving DecidableEq, Repr

/-- Display list, first-out record, horn and vigilance (R101 to R113). -/
structure CabUnit where
  /-- the candidates by arrival, earliest first (R101) -/
  cands : List Cand
  /-- the display list (R102) -/
  list : List Cand
  firstOut : Option FirstOut
  /-- the 3 s horn time (R105) -/
  horn : Timer
  vig : VigState
  period : Timer
  grace : Timer
  /-- this CAB is the vigilance CAB, as last judged (R108) -/
  standing : Bool
  /-- demand shown, as last judged (R108) -/
  demand : Bool
  /-- a half-taken pair with its 2 s time (R111) -/
  pair : Timer
  /-- a keyed pair has restarted a running period and no time has passed since: an expiry of this moment is that of the
  time it discarded (R112) -/
  superseded : Bool
deriving DecidableEq, Repr

/-- A SENT order's time since its send and its answer limit (R123). -/
structure SentTimes where
  elapsed : Ticks
  limit : Ticks
deriving DecidableEq, Repr

/-- An entry of the pending order table; `sent` is none while WAITING (chapter 06, "The pending order table"). -/
structure PendingOrder where
  number : Byte
  target : Station
  kind : OrderKind
  args : List Byte
  sent : Option SentTimes
deriving DecidableEq, Repr

/-- An open offer (R120). -/
structure Offer where
  kinds : List OrderKind
  chosen : Nat
deriving DecidableEq, Repr

/-- The panel unit (chapter 06). -/
structure PanelUnit where
  page : Page
  cursor : Cell
  /-- the tag step: FIRST when true (R118) -/
  tagFirst : Bool
  snapshot : List SnapLine
  selection : Nat
  lineSelection : Station
  offer : Option Offer
  status : StatusLine
  counter : Byte
  orders : List PendingOrder
  up : Bool
  missing : Nat
  /-- time to the next panel frame; none while no frames are sent (R126) -/
  frameTimer : Timer
  /-- the 50 ms wait for a key report (R126) -/
  keyWait : Timer
  /-- PCK is clocked for a report: none has been read to its end in this wait (R200) -/
  clocking : Bool
  /-- the next frame carries all lines because the page has changed (R114) -/
  redraw : Bool
  /-- the content of the lines in the last frame that drew a reply (R126) -/
  replied : Option (List LineContent)
  /-- the content of the lines when the last frame was sent -/
  drawn : List LineContent
  /-- the last panel frame sent -/
  frame : Option PanelFrame
  /-- an order timed out, and no answer taken since (R125) -/
  answerMissing : Bool
deriving DecidableEq, Repr

/-! ## The whole part -/

/-- The state of one DS12. -/
structure State where
  /-- commands waiting, first in, first out -/
  pending : List Instr
  /-- the expiries of times that an event of this moment has started afresh while they ran: one that is taken now is that
  of the time discarded (R150, R151, R156, R184, R187) -/
  restarted : List Instr
  /-- the factory number of the part (R148) -/
  serial : Word32
  /-- the strap pins S2 S1 S0 as last read (R191) -/
  straps : BitVec 3
  /-- the station number (R191) -/
  station : Station
  /-- RESET is held active (R191) -/
  resetHeld : Bool
  spi : Spi
  image : Image
  status : StatusOut
  inputs : Inputs
  pins : Tbl Pin 4
  line : LineUnit
  claim : ClaimUnit
  pub : PubUnit
  notices : NoticeQueue
  replicas : Tbl Replica 8
  cabMap : CabMap
  recovery : RecoveryUnit
  sensor : SensorUnit
  face : FaceMap
  permit : PermitUnit
  dust : DustUnit
  ring : LotRing
  scrub : Scrubber
  conv : Conveyor
  cab : CabUnit
  panel : PanelUnit
deriving DecidableEq, Repr

/-- Faults: the manual names no event that stops the part, so this block raises none and the type has no
constructor. (INACTIVE is a state of the part, left by RESET or power-on.) Safe. -/
inductive Fault
deriving DecidableEq, Repr

/-- Refusals. -/
inductive Refusal where
  /-- Raised only by an arm of the dispatch that has no meaning yet, with the command's mnemonic; no command is in
  this case. Safe. -/
  | notModelled (mnemonic : String)
deriving DecidableEq, Repr

/-! ## Values at power-on -/

/-- A channel configuration before an image is loaded. -/
def ChannelCfg.blank : ChannelCfg := { address := 0, meaning := .unused, interval := 0 }

/-- A station's parameters before an image is loaded. -/
def StationCfg.blank : StationCfg :=
  { role := none, duty := false, autoRejoin := false, mapRecovery := false, bid := 0, sensorRate := 0, parity := false,
    channels := .fill 16 .blank }

/-- No image loaded: the parameters are absent until START ends; DESIGN CHOICE, log entry 4: all zero. -/
def Image.blank : Image :=
  { signature := 0, stations := .fill 8 .blank, lineRate := 0, warningLevel := 0,
    kinds := .fill 24 (.fill 32 .outside), permZones := 0, pitch := 0, massInside := 0, massTrim := 0,
    dwellInside := 0, dwellTrim := 0, period := 0, base := 0, actionLevel := 0, limitLevel := 0, washDue := 0,
    blocked := 0, washTime := 0, runOff := 0, stallLevel := 0, transit := 0, settle := 0, lotLimit := 0,
    holdLevel := 0, shortLevel := 0, overLevel := 0, fallLevel := 0, strayLimit := 0, vigilance := 0 }

/-- R147. No wait for a gap stands: DESIGN CHOICE, log entry 60. -/
def LineUnit.reset : LineUnit :=
  { state := .start, cause := none, sfc := 0, hfc := 0, record := none, trip := [], claim := none, order := none,
    map := none, stateSlot := none, sending := none, bus := .busy, awaitsGap := false, idleGaps := none }

/-- R161. Before the image is loaded the own entry's role, signature and bid, and R, are 0, and its claimed ready, which
R161 does not give, is clear (DESIGN CHOICE, log entry 4). -/
def ClaimUnit.reset (serial : Word32) (station : Station) : ClaimUnit :=
  { roster := (Tbl.fill 8 none).set station
      (some { role := 0, serial := serial, signature := 0, bid := 0, state := .present, ready := some false,
              claimedReady := false, silence := none }),
    r := 0, candidate := none, window := none, watch := none, joining := true, ownSent := false, closed := false }

/-- R178. -/
def PubUnit.reset : PubUnit :=
  { timer := none, late := 0, sinceSent := none, early := false, answers := [], dropped := false, asked := false, rollRow := 0,
    rollSlot := 0, builds := 0, rowMarks := .fill 24 none, tagMarks := .fill 2 none }

/-- An empty replica set (R169). -/
def Replica.empty : Replica :=
  { status := none, slots := .fill 8 none, fault := none, tags := .fill 2 none }

/-- R173, R178. -/
def CabMap.reset : CabMap :=
  { rows := .fill 24 none, held := false, old := .fill 24 false, retires := [], send := none }

/-- R178. -/
def RecoveryUnit.reset : RecoveryUnit :=
  { state := .none, timer := none, counter := 0, buffer := .fill 24 none, request := none, source := none,
    refused := .fill 8 false, adopted := false, restored := false, lostAcked := false }

/-- R92. -/
def NoticeQueue.reset : NoticeQueue :=
  { slots := .fill 8 none, marks := .fill 8 none, counter := 0, order := [], waiting := .fill 28 false,
    overflow := false, holds := .fill 28 false }

/-- R185. -/
def Channel.reset : Channel :=
  { value := none, age := 0, stale := false, miss := 0, state := .never, due := false, next := none }

/-- R181, R184, R185, R188. -/
def SensorUnit.reset : SensorUnit :=
  { channels := .fill 16 .reset, assembly := .hunt, polled := none, quietWait := false, broken := false, ready := false }

/-- R22. The cells take their values from the kinds when the image is loaded; until then every cell shows OUTSIDE, the
state of the blank image's kinds (log entry 4). -/
def FaceMap.reset : FaceMap :=
  { cells := .fill 24 (.fill 32 .outside), temp := 0, tags := .fill 2 ⟨none, .none⟩, advance := 0 }

/-- R44. RESTORE joins the reasons when the loaded image enables map recovery. -/
def PermitUnit.reset : PermitUnit :=
  { state := .held,
    reasons := { demand := true, line := true, roster := true, pose := true, cell := false, zone := false, dust := true,
                 spoil := true, trip := false, vigil := false, restore := false },
    poseX := none, poseY := none, ageX := 0, ageY := 0, lastX := false, fresh := false, head := none, dwell := 0,
    reached := false, superseded := false, breachEntered := false }

/-- R67. -/
def DustUnit.reset : DustUnit := { position := none, midDone := false, remaining := 0, used := 0, fraction := 0 }

/-- R91. -/
def LotRing.reset : LotRing :=
  { lots := [], issued := 0, cutMass := 0, retiredHeld := 0, takenHeld := 0, resync := false, accountLost := false,
    spanPart := 0 }

/-- R61. -/
def Scrubber.reset : Scrubber :=
  { fan := .stopped, wash := .clear, dust := none, pressure := none, demand := false,
    quietLeft := some Config.quietTime, startWindow := none, proofLoss := none, runOn := none, washTime := none,
    settling := none, dustAction := false, dustLimit := false, washAborted := false }

/-- R77, R91. -/
def Conveyor.reset : Conveyor :=
  { state := .stopped, fault := none, standing := false, runDemand := false, warning := none, beltWindow := none,
    chainWindow := none, runOff := none, beltLoss := none, chainLoss := none, stall := none, rate := none,
    load := none, records := [], taken := 0, retired := 0, resync := true, beltTime := 0, beltPart := 0, stray := 0,
    advance := none, lastClose := none, windowOpen := false, overSeen := false, shortSeen := false, retires := [] }

/-- R105, R106, R109, R111. -/
def CabUnit.reset : CabUnit :=
  { cands := [], list := [], firstOut := none, horn := none, vig := .idle, period := none, grace := none,
    standing := false, demand := false, pair := none, superseded := false }

/-- R128. -/
def PanelUnit.reset (station : Station) : PanelUnit :=
  { page := .face, cursor := ⟨16, 12⟩, tagFirst := false, snapshot := [], selection := 0, lineSelection := station,
    offer := none, status := .blank, counter := 0, orders := [], up := false, missing := 0, frameTimer := none,
    keyWait := none, clocking := false, redraw := false, replied := none, drawn := [], frame := none, answerMissing := false }

/-- Every block at its power-on value (R191), for a part with this factory number, these straps and open inputs, with the
START sequence at its 36 ms wait. The station number is 4 S2 + 2 S1 + S0. The STATUS pattern stands at its 1 s pause:
DESIGN CHOICE, log entry 37, for R195 gives that pause at a change of code only. -/
def State.powerOn (serial : Word32) (straps : BitVec 3) (pending : List Instr) : State :=
  let n : Station := ⟨straps.toNat, straps.isLt⟩
  { pending := pending, restarted := [], serial := serial, straps := straps, station := n, resetHeld := false,
    spi := .waiting Config.memoryWait, image := .blank, status := { code := 1, phase := .pause, timer := some Config.statusPause },
    inputs := ⟨false, false, false, false⟩, pins := .fill 4 ⟨true, none⟩, line := .reset, claim := .reset serial n, pub := .reset, notices := .reset,
    replicas := .fill 8 .empty, cabMap := .reset, recovery := .reset, sensor := .reset, face := .reset,
    permit := .reset, dust := .reset, ring := .reset, scrub := .reset, conv := .reset, cab := .reset,
    panel := .reset n }

/-- The part right after power-on, all straps open (each reads 1, R191) and factory number 0: DESIGN CHOICE, log
entry 5; the next POWER_ON reads the straps anew. -/
def State.reset : State := State.powerOn 0 0b111 []

end Sys2Proof.Machine
end

