-- ==== Sys2Proof/Machine/Formats.lean ====
section
/-! DEFINITION. Chapter 12: the codes of the enumerations, byte order, the 16-bit check, and the layouts of entries,
frames and key reports, each with its reader. -/

namespace Sys2Proof.Machine

/-! ## Codes (chapter 12, "Enumerations") -/

def Role.code : Role → Byte
  | .cutter => 1 | .scrubber => 2 | .conveyor => 3 | .cab => 4

/-- The role a code names; 0 is NONE and every other code names none of the four. -/
def Role.ofCode (b : Byte) : Option Role :=
  if b = 1 then some .cutter else if b = 2 then some .scrubber else if b = 3 then some .conveyor
  else if b = 4 then some .cab else none

/-- INACTIVE has no code: an INACTIVE part publishes nothing (R194, R142). -/
def LineState.code : LineState → Byte
  | .start => 0 | .claiming => 1 | .run => 2 | .quiet => 3 | .withdrawn => 4 | .inactive => 5

def PermitState.code : PermitState → Byte
  | .held => 0 | .free => 1 | .trim => 2 | .stopped => 3

def RecoveryState.code : RecoveryState → Byte
  | .none => 0 | .restoring => 1 | .lost => 2

def FanState.code : FanState → Byte
  | .stopped => 0 | .starting => 1 | .running => 2 | .runOn => 3 | .fault => 4

def WashState.code : WashState → BitVec 3
  | .clear => 0 | .due => 1 | .washing => 2 | .settling => 3 | .uncleared => 4

def ConvState.code : ConvState → Byte
  | .stopped => 0 | .warning => 1 | .beltStarting => 2 | .chainStarting => 3 | .running => 4 | .runOff => 5
  | .fault => 6

def VigState.code : VigState → Byte
  | .idle => 0 | .running => 1 | .warned => 2 | .lapsed => 3

def NoticeClass.code : NoticeClass → BitVec 2
  | .trip => 0 | .warn => 1 | .note => 2

def NoticeState.code : NoticeState → BitVec 2
  | .active => 0 | .acked => 1 | .cleared => 2

def LotOutcome.code : LotOutcome → Byte
  | .ok => 0 | .short => 1 | .overbreak => 2 | .fall => 3

def FaultKind.code : FaultKind → Byte
  | .framing => 1 | .malformed => 2 | .length => 3 | .check => 4 | .sendBit => 5

def FrameClass.value : FrameClass → BitVec 3
  | .trip => 0 | .claim => 1 | .order => 2 | .map => 3 | .state => 4

/-- The class a class value names; 5, 6 and 7 are unknown (R131). -/
def FrameClass.ofValue (v : BitVec 3) : Option FrameClass :=
  if v = 0 then some .trip else if v = 1 then some .claim else if v = 2 then some .order
  else if v = 3 then some .map else if v = 4 then some .state else none

/-- The minimum payload length of a class (R131, with the layouts of chapter 12). -/
def FrameClass.minLength : FrameClass → Nat
  | .trip => 6 | .claim => 9 | .order => 3 | .map => 11 | .state => 8

def AnswerCode.code : AnswerCode → Byte
  | .done => 0 | .sequence => 1 | .range => 2 | .zoneProtected => 3 | .state => 4 | .notFound => 5 | .role => 6

def CellState.code : CellState → BitVec 2
  | .outside => 0 | .solid => 1 | .released => 2 | .cut => 3

def CellState.ofCode (b : BitVec 2) : CellState :=
  if b = 0 then .outside else if b = 1 then .solid else if b = 2 then .released else .cut

def OrderKind.code : OrderKind → Byte
  | .tagFirst => 1 | .tagLast => 2 | .release => 3 | .withdraw => 4 | .protect => 5 | .unprotect => 6 | .advance => 7
  | .washNow => 8 | .scrubReset => 9 | .conveyOn => 10 | .conveyOff => 11 | .conveyReset => 12 | .mapRequest => 13
  | .ack => 14 | .clearFault => 15 | .relink => 16

def OrderKind.all : List OrderKind :=
  [.tagFirst, .tagLast, .release, .withdraw, .protect, .unprotect, .advance, .washNow, .scrubReset, .conveyOn,
   .conveyOff, .conveyReset, .mapRequest, .ack, .clearFault, .relink]

/-- The kind a kind code names; 0 and 17 to 255 belong to no role. -/
def OrderKind.ofCode (b : Byte) : Option OrderKind := OrderKind.all.find? (fun k => k.code == b)

/-- Argument bytes a kind takes (R170, chapter 12). -/
def OrderKind.argCount : OrderKind → Nat
  | .tagFirst | .tagLast | .ack => 2
  | .protect | .unprotect => 1
  | _ => 0

/-- Whether a station of a role takes orders of a kind (R170). -/
def OrderKind.takenBy : OrderKind → Role → Bool
  | .tagFirst, r | .tagLast, r | .release, r | .withdraw, r | .protect, r | .unprotect, r | .advance, r => r == .cutter
  | .washNow, r | .scrubReset, r => r == .scrubber
  | .conveyOn, r | .conveyOff, r | .conveyReset, r => r == .conveyor
  | .mapRequest, r => r == .cab
  | .ack, _ | .clearFault, _ | .relink, _ => true

def Key.all : List Key :=
  [.page, .up, .down, .left, .right, .select, .release, .withdraw, .protect, .advance, .ack, .vigilA, .vigilB]

/-- Key codes 1 to 13; any other code names no key (R126). -/
def Key.ofCode (b : Byte) : Option Key := if b = 0 then none else Key.all[b.toNat - 1]?

def Page.id : Page → Byte
  | .face => 0 | .notices => 1 | .dust => 2 | .spoil => 3 | .line => 4 | .firstOut => 5

/-- The catalogue in code order. -/
def NoticeCode.all : List NoticeCode :=
  [.profileBreach, .faceComplete, .spoilAccountLost, .mapRestored, .mapLost, .fanFault, .filterNotCleared,
   .washAborted, .dustAction, .dustLimit, .pullWire, .faceFall, .conveyorFault, .chainStall, .overbreakSuspected,
   .spoilShort, .straySpoil, .vigilanceLapsed, .vigilance, .stationSilent, .panelLost, .answerMissing, .lineWarning,
   .lineQuiet, .lineLate, .ordersDropped, .channelFault, .sensorLineBreak]

/-- A code's place in the catalogue, from 0. -/
def NoticeCode.index : NoticeCode → Fin 28
  | .profileBreach => 0 | .faceComplete => 1 | .spoilAccountLost => 2 | .mapRestored => 3 | .mapLost => 4
  | .fanFault => 5 | .filterNotCleared => 6 | .washAborted => 7 | .dustAction => 8 | .dustLimit => 9
  | .pullWire => 10 | .faceFall => 11 | .conveyorFault => 12 | .chainStall => 13 | .overbreakSuspected => 14
  | .spoilShort => 15 | .straySpoil => 16 | .vigilanceLapsed => 17 | .vigilance => 18 | .stationSilent => 19
  | .panelLost => 20 | .answerMissing => 21 | .lineWarning => 22 | .lineQuiet => 23 | .lineLate => 24
  | .ordersDropped => 25 | .channelFault => 26 | .sensorLineBreak => 27

/-- The notice code, 1 to 28. -/
def NoticeCode.code (c : NoticeCode) : Byte := BitVec.ofNat 8 (c.index.val + 1)

/-- The class fixed by the code (notice catalogue). -/
def NoticeCode.cls : NoticeCode → NoticeClass
  | .profileBreach | .pullWire | .faceFall | .vigilanceLapsed => .trip
  | .faceComplete | .mapRestored | .washAborted | .dustAction | .straySpoil | .answerMissing | .ordersDropped => .note
  | .spoilAccountLost | .mapLost | .fanFault | .filterNotCleared | .dustLimit | .conveyorFault | .chainStall
  | .overbreakSuspected | .spoilShort | .vigilance | .stationSilent | .panelLost | .lineWarning | .lineQuiet
  | .lineLate | .channelFault | .sensorLineBreak => .warn

def Meaning.ofCode (b : Byte) : Option Meaning :=
  if b = 0 then some .unused else if b = 1 then some .poseX else if b = 2 then some .poseY
  else if b = 3 then some .dust else if b = 4 then some .pressure else if b = 5 then some .massRate
  else if b = 6 then some .chainLoad else none

/-- The hold reasons as the eleven named bits of their mask, DEMAND in bit 0 to RESTORE in bit 10 (chapter 12). -/
def Reasons.mask (r : Reasons) : BitVec 11 :=
  BitVec.ofBool r.restore ++ BitVec.ofBool r.vigil ++ BitVec.ofBool r.trip ++ BitVec.ofBool r.spoil
    ++ BitVec.ofBool r.dust ++ BitVec.ofBool r.zone ++ BitVec.ofBool r.cell ++ BitVec.ofBool r.pose
    ++ BitVec.ofBool r.roster ++ BitVec.ofBool r.line ++ BitVec.ofBool r.demand

/-! ## Byte order (R197): most significant byte first -/

def be16 (w : Word16) : List Byte := [w.extractLsb' 8 8, w.extractLsb' 0 8]
def be24 (w : Word24) : List Byte := [w.extractLsb' 16 8, w.extractLsb' 8 8, w.extractLsb' 0 8]
def be32 (w : Word32) : List Byte :=
  [w.extractLsb' 24 8, w.extractLsb' 16 8, w.extractLsb' 8 8, w.extractLsb' 0 8]
def of16 (a b : Byte) : Word16 := a ++ b
def of24 (a b c : Byte) : Word24 := a ++ b ++ c
def of32 (a b c d : Byte) : Word32 := a ++ b ++ c ++ d

/-- The bytes of a station set or a flag table, bit n for item n. -/
def maskOf (t : Tbl Bool 8) : Byte :=
  BitVec.ofBool (t.get 7) ++ BitVec.ofBool (t.get 6) ++ BitVec.ofBool (t.get 5) ++ BitVec.ofBool (t.get 4)
    ++ BitVec.ofBool (t.get 3) ++ BitVec.ofBool (t.get 2) ++ BitVec.ofBool (t.get 1) ++ BitVec.ofBool (t.get 0)

/-- Cell codes packed four to a byte, the lowest column in bits 7 to 6 (chapter 12). -/
def packCells : List CellState → List Byte
  | a :: b :: c :: d :: rest => (a.code ++ b.code ++ c.code ++ d.code) :: packCells rest
  | _ => []

/-- The two-bit code of column `c` in the eight bytes of a row. -/
def cellBits (bytes : List Byte) (c : Nat) : BitVec 2 := ((bytes.getD (c / 4) 0) >>> (6 - 2 * (c % 4))).setWidth 2

/-- A row of 32 cells from its eight bytes. -/
def unpackRow (bytes : List Byte) : RowCells := Tbl.ofIdx 32 (fun c => CellState.ofCode (cellBits bytes c))

/-! ## The 16-bit check (R198) -/

/-- `f n`, with `n` evaluated first: it keeps the kernel's evaluation of long sums short. -/
def evalFirst {α : Type} (n : Nat) (f : Nat → α) : α :=
  match n with
  | 0 => f 0
  | k + 1 => f (k + 1)

/-- Step 3 of R198, once. -/
def crcBit (r : Nat) : Nat := if 32768 ≤ r then ((2 * r) % 65536) ^^^ 0x1021 else 2 * r

def crcBits : Nat → Nat → Nat
  | 0, r => r
  | k + 1, r => evalFirst (crcBit r) (crcBits k)

def crcFrom : List Byte → Nat → Nat
  | [], r => r
  | b :: bs, r => evalFirst (crcBits 8 (r ^^^ (b.toNat * 256))) (crcFrom bs)

/-- The check over the covered bytes. -/
def crc16 (bytes : List Byte) : Word16 := BitVec.ofNat 16 (crcFrom bytes 0xFFFF)

/-! ## Entries -/

def NoticeEntry.bytes (n : NoticeEntry) : List Byte :=
  [3, n.slot, n.code, (0 : BitVec 2) ++ n.cls ++ (0 : BitVec 2) ++ n.state, n.raise, n.detail]

/-- The layout shared by a ROW entry (after its kind byte) and a MAP payload. -/
def RowEntry.bytes (r : RowEntry) : List Byte := r.row :: be16 r.advance ++ packCells r.cells.toList

def StatusCommon.bytes (c : StatusCommon) : List Byte :=
  [1, c.role, c.lineState, (0 : BitVec 6) ++ BitVec.ofBool c.overflow ++ BitVec.ofBool c.ready, c.late, c.mask, c.sfc,
   c.hfc]

def RolePart.bytes : RolePart → List Byte
  | .cutter p =>
    p.permit :: (be16 (p.reasons.setWidth 16) ++ [p.headCol, p.headRow,
      (0 : BitVec 5) ++ BitVec.ofBool p.lotOpen ++ BitVec.ofBool p.faceComplete ++ BitVec.ofBool p.demand]
      ++ be16 p.allowance ++ be16 p.position ++ be16 p.advance ++ [p.recovery, p.tempZones.setWidth 8] ++ be16 p.issued
      ++ be24 p.outstanding ++ be32 p.cutMass)
  | .scrubber p =>
    [p.fan, BitVec.ofBool p.spray ++ (0 : BitVec 4) ++ p.wash, p.capacity] ++ be16 p.dust ++ be16 p.pressure
  | .conveyor p =>
    [p.state, (0 : BitVec 7) ++ BitVec.ofBool p.resync] ++ be16 p.taken ++ be16 p.retired ++ be32 p.headMass
      ++ be32 p.stray ++ be16 p.rate
  | .cab p =>
    [p.vigilance, (0 : BitVec 6) ++ BitVec.ofBool p.mapComplete ++ BitVec.ofBool p.duty] ++ be16 p.mapAdvance
  | .none => []

/-- The bytes of an entry. DESIGN CHOICE, log entry 64: the bits that chapter 12 does not name in a byte or mask that is no
flags byte are sent as 0. -/
def Entry.bytes : Entry → List Byte
  | .status r => r.common.bytes ++ r.part.bytes
  | .answer a => [2, a.requester, a.number, a.code]
  | .notice n => n.bytes
  | .lot l => 4 :: (be16 l.number ++ be16 l.advance ++ be16 l.count ++ be16 l.expected ++ be16 l.span)
  | .retire r => 5 :: (be16 r.number ++ [r.outcome] ++ be32 r.mass)
  | .tag t =>
    [6, t.bound, BitVec.ofBool t.record ++ (0 : BitVec 5) ++ t.state, t.firstCol, t.firstRow, t.lastCol, t.lastRow]
  | .row r => 7 :: r.bytes
  | .fault f => [8, f.kind, f.cls, f.position, f.count]

/-- The length of an entry in bytes (chapter 09, "What a STATE frame carries"). -/
def Entry.length : Entry → Nat
  | .status r =>
    8 + (match r.part with | .cutter _ => 23 | .scrubber _ => 7 | .conveyor _ => 16 | .cab _ => 4 | .none => 0)
  | .answer _ => 4
  | .notice _ => 6
  | .lot _ => 11
  | .retire _ => 8
  | .tag _ => 7
  | .row _ => 12
  | .fault _ => 5

/-- A NOTICE entry. DESIGN CHOICE, log entry 64: bits 7, 6, 3 and 2 of the class and state byte, which chapter 12 does not
name, are disregarded. -/
def readNotice : List Byte → Option (NoticeEntry × List Byte)
  | slot :: code :: cs :: raise :: detail :: rest =>
    some ({ slot := slot, code := code, cls := cs.extractLsb' 4 2, state := cs.extractLsb' 0 2, raise := raise,
            detail := detail }, rest)
  | _ => none

def readRow : List Byte → Option (RowEntry × List Byte)
  | row :: a1 :: a0 :: b0 :: b1 :: b2 :: b3 :: b4 :: b5 :: b6 :: b7 :: rest =>
    some ({ row := row, advance := of16 a1 a0, cells := unpackRow [b0, b1, b2, b3, b4, b5, b6, b7] }, rest)
  | _ => none

/-- The role part of a CUTTER. DESIGN CHOICE, log entry 64: the unnamed bits 15 to 11 of the hold reasons, and 7 and 6 of the
zone mask, are disregarded. -/
def readCutter : List Byte → Option (RolePart × List Byte)
  | p :: r1 :: r0 :: hc :: hr :: fl :: a1 :: a0 :: q1 :: q0 :: v1 :: v0 :: rec :: tz :: i1 :: i0 :: o2 :: o1 :: o0 ::
      c3 :: c2 :: c1 :: c0 :: rest =>
    some (.cutter { permit := p, reasons := (of16 r1 r0).setWidth 11, headCol := hc, headRow := hr, demand := fl.getLsbD 0,
                    faceComplete := fl.getLsbD 1, lotOpen := fl.getLsbD 2, allowance := of16 a1 a0,
                    position := of16 q1 q0, advance := of16 v1 v0, recovery := rec, tempZones := tz.setWidth 6,
                    issued := of16 i1 i0, outstanding := of24 o2 o1 o0, cutMass := of32 c3 c2 c1 c0 }, rest)
  | _ => none

/-- The role part of a SCRUBBER. DESIGN CHOICE, log entry 64: the unnamed bits 6 to 3 of the wash byte are disregarded. -/
def readScrubber : List Byte → Option (RolePart × List Byte)
  | fan :: w :: cap :: d1 :: d0 :: p1 :: p0 :: rest =>
    some (.scrubber { fan := fan, wash := w.extractLsb' 0 3, spray := w.getLsbD 7, capacity := cap, dust := of16 d1 d0,
                      pressure := of16 p1 p0 }, rest)
  | _ => none

def readConveyor : List Byte → Option (RolePart × List Byte)
  | st :: fl :: t1 :: t0 :: r1 :: r0 :: h3 :: h2 :: h1 :: h0 :: s3 :: s2 :: s1 :: s0 :: m1 :: m0 :: rest =>
    some (.conveyor { state := st, resync := fl.getLsbD 0, taken := of16 t1 t0, retired := of16 r1 r0,
                      headMass := of32 h3 h2 h1 h0, stray := of32 s3 s2 s1 s0, rate := of16 m1 m0 }, rest)
  | _ => none

def readCab : List Byte → Option (RolePart × List Byte)
  | v :: fl :: a1 :: a0 :: rest =>
    some (.cab { vigilance := v, duty := fl.getLsbD 0, mapComplete := fl.getLsbD 1, mapAdvance := of16 a1 a0 }, rest)
  | _ => none

/-- The role part the role byte names; a byte that names no role gives none (R168). -/
def readPart (role : Byte) (bytes : List Byte) : Option (RolePart × List Byte) :=
  match Role.ofCode role with
  | some .cutter => readCutter bytes
  | some .scrubber => readScrubber bytes
  | some .conveyor => readConveyor bytes
  | some .cab => readCab bytes
  | none => some (.none, bytes)

def readStatus : List Byte → Option (Entry × List Byte)
  | role :: ls :: fl :: late :: mask :: sfc :: hfc :: rest =>
    (readPart role rest).map fun (part, rest') =>
      (.status { common := { role := role, lineState := ls, ready := fl.getLsbD 0, overflow := fl.getLsbD 1, late := late,
                             mask := mask, sfc := sfc, hfc := hfc }, part := part }, rest')
  | _ => none

def readAnswer : List Byte → Option (Entry × List Byte)
  | r :: n :: c :: rest => some (.answer { requester := r, number := n, code := c }, rest)
  | _ => none

def readLot : List Byte → Option (Entry × List Byte)
  | n1 :: n0 :: a1 :: a0 :: c1 :: c0 :: e1 :: e0 :: s1 :: s0 :: rest =>
    some (.lot { number := of16 n1 n0, advance := of16 a1 a0, count := of16 c1 c0, expected := of16 e1 e0,
                 span := of16 s1 s0 }, rest)
  | _ => none

def readRetire : List Byte → Option (Entry × List Byte)
  | n1 :: n0 :: o :: m3 :: m2 :: m1 :: m0 :: rest =>
    some (.retire { number := of16 n1 n0, outcome := o, mass := of32 m3 m2 m1 m0 }, rest)
  | _ => none

/-- A TAG entry. DESIGN CHOICE, log entry 64: the unnamed bits 6 to 2 of the record and state byte are disregarded. -/
def readTag : List Byte → Option (Entry × List Byte)
  | b :: s :: fc :: fr :: lc :: lr :: rest =>
    some (.tag { bound := b, record := s.getLsbD 7, state := s.extractLsb' 0 2, firstCol := fc, firstRow := fr,
                 lastCol := lc, lastRow := lr }, rest)
  | _ => none

def readFault : List Byte → Option (Entry × List Byte)
  | k :: c :: p :: n :: rest => some (.fault { kind := k, cls := c, position := p, count := n }, rest)
  | _ => none

/-- One entry off the front of a payload; none for an unknown kind or one that runs past the end (R168). -/
def readEntry : List Byte → Option (Entry × List Byte)
  | [] => none
  | k :: rest =>
    if k = 1 then readStatus rest
    else if k = 2 then readAnswer rest
    else if k = 3 then (readNotice rest).map fun (n, r) => (.notice n, r)
    else if k = 4 then readLot rest
    else if k = 5 then readRetire rest
    else if k = 6 then readTag rest
    else if k = 7 then (readRow rest).map fun (e, r) => (.row e, r)
    else if k = 8 then readFault rest
    else none

def readEntriesUpTo : Nat → List Byte → List Entry
  | 0, _ => []
  | fuel + 1, bytes =>
    match readEntry bytes with
    | some (e, rest) => e :: readEntriesUpTo fuel rest
    | none => []

/-- The entries of a STATE payload, in order, up to the entry that ends the reading (R168). -/
def readEntries (bytes : List Byte) : List Entry := readEntriesUpTo bytes.length bytes

/-! ## Frames -/

def ClaimFrame.bytes (c : ClaimFrame) : List Byte :=
  c.role :: (be32 c.serial ++ be16 c.signature ++ [c.bid, (0 : BitVec 6) ++ BitVec.ofBool c.ready ++ BitVec.ofBool c.joining])

/-- The CLAIM record at the front of a payload (R148). DESIGN CHOICE, log entry 50: further bytes are disregarded. -/
def readClaim : List Byte → Option ClaimFrame
  | role :: s3 :: s2 :: s1 :: s0 :: g1 :: g0 :: bid :: fl :: _ =>
    some { role := role, serial := of32 s3 s2 s1 s0, signature := of16 g1 g0, bid := bid, joining := fl.getLsbD 0,
           ready := fl.getLsbD 1 }
  | _ => none

/-- The NOTICE entry of a TRIP payload, its kind byte included (chapter 12). DESIGN CHOICE, log entry 50: further bytes are
disregarded. -/
def readTrip : List Byte → Option NoticeEntry
  | k :: rest => if k = 3 then (readNotice rest).map Prod.fst else none
  | [] => none

def OutFrame.cls : OutFrame → FrameClass
  | .trip _ => .trip | .claim _ => .claim | .order _ => .order | .map _ => .map | .state _ => .state

def OutFrame.payload : OutFrame → List Byte
  | .trip n => n.bytes
  | .claim c => c.bytes
  | .order o => [BitVec.ofNat 8 o.target.val, o.number, o.kind.code] ++ o.args
  | .map r => r.bytes
  | .state f => f.entries.flatMap Entry.bytes

/-- Character 0: class, station, two 0 bits (R131). -/
def headerByte (c : FrameClass) (n : Station) : Byte := c.value ++ BitVec.ofNat 3 n.val ++ (0 : BitVec 2)

/-- The characters of a frame sent by station `n`, header to check (R131). -/
def OutFrame.bytes (n : Station) (f : OutFrame) : List Byte :=
  let body := headerByte f.cls n :: BitVec.ofNat 8 f.payload.length :: f.payload
  body ++ be16 (crc16 body)

/-- The class of character 0 when it is known: read with a recessive stop bit and a value from 0 to 4 (R136). -/
def headerClass (c : LineChar) : Option FrameClass :=
  if c.stopOk then FrameClass.ofValue (c.data.extractLsb' 5 3) else none

/-- A frame's failure: its kind, its class when known, and the character position (R136). -/
abbrev FrameFailure := FaultKind × Option FrameClass × Fin 68

/-- The characters from the payload on, `i` the position of the next one, `before` the bytes read so far. -/
def checkBody (cls : FrameClass) (len : Nat) : List LineChar → Nat → List Byte → Option FrameFailure
  | [], i, _ => some (.length, some cls, Fin.ofNat 68 i)
  | c :: rest, i, before =>
    if !c.stopOk then some (.framing, some cls, Fin.ofNat 68 i)
    else if i = 3 + len then
      let all := before ++ [c.data]
      if be16 (crc16 (all.take (2 + len))) = all.drop (2 + len) then none
      else some (.check, some cls, Fin.ofNat 68 (2 + len))
    else checkBody cls len rest (i + 1) (before ++ [c.data])

/-- The checks of R136 in the order the characters arrive; the first failing check, or none if the frame passes. The
list ends where a gap ended the frame. -/
def checkFrame : List LineChar → Option FrameFailure
  | [] => some (.length, none, 0)
  | c0 :: rest =>
    if !c0.stopOk then some (.framing, none, 0)
    else
      match FrameClass.ofValue (c0.data.extractLsb' 5 3) with
      | none => some (.malformed, none, 0)
      | some cls =>
        if c0.data.extractLsb' 0 2 ≠ 0 then some (.malformed, some cls, 0)
        else
          match rest with
          | [] => some (.length, some cls, 1)
          | c1 :: rest' =>
            if !c1.stopOk then some (.framing, some cls, 1)
            else if 64 < c1.data.toNat ∨ c1.data.toNat < cls.minLength then some (.length, some cls, 1)
            else checkBody cls c1.data.toNat rest' 2 [c0.data, c1.data]

/-- Whether an accepted frame of this class can have had this payload (R131, R136). -/
def payloadFits (c : FrameClass) (payload : List Byte) : Bool := c.minLength ≤ payload.length && payload.length ≤ 64

/-! ## Key reports (R126, chapter 12 "Panel exchange") -/

/-- The key codes of a report that passes its check; bytes before the lead byte are passed over. -/
def readKeyReport (bytes : List Byte) : Option (List Byte) :=
  match bytes.dropWhile (fun b => b != 0xA6) with
  | _ :: n :: rest =>
    if n.toNat ≤ 4 ∧ n.toNat + 2 ≤ rest.length ∧
        (rest.drop n.toNat).take 2 = be16 (crc16 (n :: rest.take n.toNat)) then some (rest.take n.toNat)
    else none
  | _ => none

/-- The report a panel module sends for these key codes. -/
def keyReportBytes (codes : List Byte) : List Byte :=
  let body := BitVec.ofNat 8 codes.length :: codes
  0xA6 :: body ++ be16 (crc16 body)

end Sys2Proof.Machine
end

