-- ==== Sys2Proof/Machine/Image.lean ====
section
/-! DEFINITION. Chapter 11: the checks of the configuration image (R192), its layout (chapter 12, "Configuration
image") and the range test of its parameters (R193). -/

namespace Sys2Proof.Machine

/-- The image length of the layout: 788 bytes, from the lead word to the last check byte. -/
def imageLength : Nat := 788

/-- The bytes as the part reads them: a memory that stops answering returns 1 bits from then on (R192). -/
def imageBytes (bytes : List Byte) : List Byte :=
  bytes.take imageLength ++ List.replicate (imageLength - bytes.length) 0xFF

/-- The lead word, length and check of R192, in that order. -/
def imageSound (b : List Byte) : Bool :=
  b.take 2 == [0x4B, 0x56] && (b.drop 2).take 2 == [0x03, 0x14] &&
    (b.drop (imageLength - 2)).take 2 == be16 (crc16 (b.take (imageLength - 2)))

/-- The unsigned value of `n` bytes from an offset, most significant byte first (R197). -/
def natAt (b : List Byte) (offset n : Nat) : Nat := ((b.drop offset).take n).foldl (fun v x => v * 256 + x.toNat) 0

/-- A station table byte: 0 is NONE; a code above 4 names nothing. -/
def stationRole (b : Byte) : Option (Option Role) := if b = 0 then some none else (Role.ofCode b).map some

/-- A cell kind code: 0 OUTSIDE, 1 INSIDE, 2 TRIM; 3 names nothing. -/
def CellKind.ofCode (b : BitVec 2) : Option CellKind :=
  if b = 0 then some .outside else if b = 1 then some .inside else if b = 2 then some .trim else none

/-- A table from a list in which every item is legal. -/
def tblOf {α : Type} (n : Nat) (l : List (Option α)) : Option (Tbl α n) :=
  match l.mapM id with
  | some xs => if h : xs.length = n then some ⟨xs, h⟩ else none
  | none => none

/-- One channel table entry of four bytes. -/
def channelOf : List Byte → Option ChannelCfg
  | a :: m :: i1 :: i0 :: _ =>
    let interval := (of16 i1 i0).toNat
    if 1 ≤ interval ∧ interval ≤ 500 then
      (Meaning.ofCode m).map fun meaning => { address := a, meaning := meaning, interval := interval }
    else none
  | _ => none

/-- The sixteen entries that stand in the 64 bytes of one station. -/
def channelsOf (b : List Byte) : Option (Tbl ChannelCfg 16) :=
  tblOf 16 (sixteen.map fun e => channelOf (b.drop (4 * e.val)))

/-- The parameters of station `n`, each in its range. DESIGN CHOICE, log entry 40: bits 6 to 2 of the sensor settings byte,
which the layout does not name, may hold any value. -/
def stationOf (b : List Byte) (n : Station) : Option StationCfg :=
  let flags : Byte := BitVec.ofNat 8 (natAt b (14 + n.val) 1)
  let bid := natAt b (22 + n.val) 1
  let sensor : Byte := BitVec.ofNat 8 (natAt b (32 + n.val) 1)
  match stationRole (BitVec.ofNat 8 (natAt b (6 + n.val) 1)), channelsOf ((b.drop (40 + 64 * n.val)).take 64) with
  | some role, some channels =>
    if 2 ≤ bid ∧ bid ≤ 25 then
      some { role := role, duty := flags.getLsbD 0, autoRejoin := flags.getLsbD 1, mapRecovery := flags.getLsbD 2,
             bid := bid, sensorRate := Fin.ofNat 4 sensor.toNat, parity := sensor.getLsbD 7, channels := channels }
    else none
  | _, _ => none

/-- One row of the profile: 32 cell kinds in eight bytes, packed as cell codes. -/
def kindRowOf (b : List Byte) : Option (Tbl CellKind 32) :=
  tblOf 32 ((List.range 32).map fun c => CellKind.ofCode (cellBits b c))

/-- The profile. -/
def kindsOf (b : List Byte) : Option (Tbl (Tbl CellKind 32) 24) :=
  tblOf 24 (rows24.map fun r => kindRowOf ((b.drop (8 * r.val)).take 8))

/-- A value within its range, both ends included. -/
def within (lo hi v : Nat) : Bool := lo ≤ v && v ≤ hi

/-- The drive's parameters within the ranges and the orders of chapter 11, "Image parameters". -/
def Image.inRange (i : Image) : Bool :=
  within 0 2 i.lineRate && within 32 127 i.warningLevel && within 20 50 i.pitch && within 1 4000 i.massInside &&
  within 1 4000 i.massTrim && within 1 20 i.dwellInside && within 1 30 i.dwellTrim && within 30 120 i.period &&
  within 1 i.period i.base && within 1 65535 i.actionLevel && within 1 65535 i.limitLevel &&
  (i.actionLevel ≤ i.limitLevel) && within 1 5000 i.washDue && within 1 5000 i.blocked && (i.washDue < i.blocked) &&
  within 10 60 i.washTime && within 10 120 i.runOff && within 100 500 i.stallLevel && within 1 600 i.transit &&
  within 0 120 i.settle && within 100 60000 i.lotLimit && within 100 1000000 i.holdLevel &&
  within 1 1000 i.shortLevel && within 1 1000 i.overLevel && within 1 1000 i.fallLevel &&
  (i.shortLevel < i.overLevel) && (i.overLevel ≤ i.fallLevel) && within 0 1000000 i.strayLimit &&
  within 20 90 i.vigilance

/-- The parameters of a sound image, if every one is in its range (R193). -/
def imageOf (b : List Byte) : Option Image :=
  match tblOf 8 (eight.map (stationOf b)), kindsOf ((b.drop 552).take 192) with
  | some stations, some kinds =>
    let zones := natAt b 744 1
    let i : Image :=
      { signature := BitVec.ofNat 16 (natAt b 4 2), stations := stations, lineRate := natAt b 30 1,
        warningLevel := natAt b 31 1, kinds := kinds, permZones := BitVec.ofNat 6 zones, pitch := natAt b 745 1,
        massInside := natAt b 746 2, massTrim := natAt b 748 2, dwellInside := natAt b 750 1,
        dwellTrim := natAt b 751 1, period := natAt b 752 1, base := natAt b 753 1, actionLevel := natAt b 754 2,
        limitLevel := natAt b 756 2, washDue := natAt b 758 2, blocked := natAt b 760 2, washTime := natAt b 762 1,
        runOff := natAt b 763 1, stallLevel := natAt b 764 2, transit := natAt b 766 2, settle := natAt b 768 1,
        lotLimit := natAt b 769 2, holdLevel := natAt b 771 4, shortLevel := natAt b 775 2,
        overLevel := natAt b 777 2, fallLevel := natAt b 779 2, strayLimit := natAt b 781 4,
        vigilance := natAt b 785 1 }
    if i.inRange ∧ zones < 64 then some i else none
  | _, _ => none

/-- The image a part with station number `n` takes from the bytes read: none where a check of R192 or a test of R193
fails. -/
def readImage (n : Station) (bytes : List Byte) : Option Image :=
  let b := imageBytes bytes
  if imageSound b then
    match imageOf b with
    | some i => if (i.stations.get n).role.isSome then some i else none
    | none => none
  else none

end Sys2Proof.Machine
end

