-- ==== Sys2Proof/Machine/Views.lean ====
section
/-! DEFINITION. What the rules define from the state: the own role, roster lookups, the records of peers, demand,
the face, the capacity, the STATUS entry of the station, and the outputs. -/

namespace Sys2Proof.Machine

/-! ## The station itself -/

/-- The image's parameters of the station. -/
def State.cfg (s : State) : StationCfg := s.image.stations.get s.station

/-- The station's role; none before the image is loaded. -/
def State.role (s : State) : Option Role := s.cfg.role

def State.isRole (s : State) (r : Role) : Bool := s.role == some r

/-- The blocks of the part run: every line state but START and INACTIVE. -/
def State.live (s : State) : Bool := s.line.state != .start && s.line.state != .inactive

/-- The line unit receives a frame: the blocks run, and it does not await a gap (R129, R133, R136). -/
def State.hears (s : State) : Bool := s.live && !s.line.awaitsGap

/-- The role a station number has by the image (log entry 20). -/
def State.roleOf (s : State) (n : Station) : Option Role := (s.image.stations.get n).role

/-- The STATUS code of R195. -/
def State.statusCode (s : State) : Nat :=
  match s.line.state with
  | .start => 1
  | .claiming => 2
  | .run => 3
  | .quiet => 4
  | .withdrawn => 5
  | .inactive =>
    match s.line.cause with
    | some .duplicate => 7
    | some .role => 8
    | _ => 6

/-! ## Wrapping order (R78) -/

/-- `a` precedes `b`, `b` is ahead of `a`. -/
def precedes (a b : Word16) : Bool := 1 ≤ (b - a).toNat && (b - a).toNat ≤ 32767

/-- `a` is at or above `b`: equal or ahead. -/
def atOrAbove (a b : Word16) : Bool := a == b || precedes b a

/-! ## The roster -/

def State.entry (s : State) (n : Station) : Option RosterEntry := s.claim.roster.get n

/-- The entry of `n` has role `r` and is in roster state `st`. -/
def State.entryIs (s : State) (r : Role) (st : RosterState) (n : Station) : Bool :=
  match s.entry n with
  | some e => e.role == r.code && e.state == st
  | none => false

def State.isPresent (s : State) (r : Role) (n : Station) : Bool := s.entryIs r .present n

/-- The PRESENT station of a role, the lowest-numbered where there are two. -/
def State.presentOf (s : State) (r : Role) : Option Station := eight.find? (s.isPresent r)

def State.entryState (s : State) (n : Station) : Option RosterState := (s.entry n).map (·.state)

/-- R29: an entry is READY by the flag of its latest STATUS, else by its claimed ready. -/
def RosterEntry.isReady (e : RosterEntry) : Bool := e.ready.getD e.claimedReady

def State.presentReady (s : State) (r : Role) (n : Station) : Bool :=
  s.isPresent r n && ((s.entry n).map (·.isReady)).getD false

/-- The SILENT stations, as the detail of "STATION SILENT" (R104). -/
def State.silentSet (s : State) : Byte :=
  maskOf (s.claim.roster.map (fun e => match e with | some e => e.state == .silent | none => false))

/-- The station's entries whose records the shared picture counts: PRESENT or SILENT (R32, R101). -/
def State.counted (s : State) (n : Station) : Bool :=
  s.entryState n == some .present || s.entryState n == some .silent

/-! ## Records of peers -/

def State.replica (s : State) (n : Station) : Replica := s.replicas.get n

def RolePart.hasRole : RolePart → Role → Bool
  | .cutter _, .cutter | .scrubber _, .scrubber | .conveyor _, .conveyor | .cab _, .cab => true
  | _, _ => false

/-- Station `n` holds a STATUS record of role `r`. -/
def State.hasRecord (s : State) (r : Role) (n : Station) : Bool :=
  match (s.replica n).status with
  | some rec => rec.part.hasRole r
  | none => false

/-- The station whose STATUS is "the latest STATUS of role r held": the PRESENT one, else a SILENT one, else one
that the image gives the role (log entry 20). -/
def State.recordStation (s : State) (r : Role) : Option Station :=
  let held := eight.filter fun n => n != s.station && s.hasRecord r n
  match held.find? (s.isPresent r), held.find? (s.entryIs r .silent), held.find? (fun n => s.roleOf n == some r) with
  | some n, _, _ => some n
  | none, some n, _ => some n
  | none, none, c => c

/-- A record of a station's is stale while its roster entry is SILENT (R169). -/
def State.stale (s : State) (n : Station) : Bool := s.entryState n == some .silent

/-- The latest STATUS of a role held, and whether it is stale (R169). -/
def State.record (s : State) (r : Role) : Option (StatusRecord × Bool) :=
  match s.recordStation r with
  | some n => ((s.replica n).status).map fun rec => (rec, s.stale n)
  | none => none

def State.cutterRecord (s : State) : Option (CutterPart × Bool) :=
  match s.record .cutter with
  | some ({ part := .cutter p, .. }, stale) => some (p, stale)
  | _ => none

/-- The STATUS of the PRESENT CUTTER, taken since its record was last discarded (R46). -/
def State.presentCutter (s : State) : Option CutterPart :=
  match s.presentOf .cutter with
  | some n =>
    match (s.replica n).status with
    | some rec => (match rec.part with | .cutter p => some p | _ => none)
    | none => none
  | none => none

def State.presentScrubber (s : State) : Option ScrubberPart :=
  match s.presentOf .scrubber with
  | some n =>
    match (s.replica n).status with
    | some rec => (match rec.part with | .scrubber p => some p | _ => none)
    | none => none
  | none => none

def State.presentConveyor (s : State) : Option ConveyorPart :=
  match s.presentOf .conveyor with
  | some n =>
    match (s.replica n).status with
    | some rec => (match rec.part with | .conveyor p => some p | _ => none)
    | none => none
  | none => none

def State.cabPart (s : State) (n : Station) : Option CabPart :=
  match (s.replica n).status with
  | some rec => (match rec.part with | .cab p => some p | _ => none)
  | none => none

/-- Demand shown at a SCRUBBER, a CONVEYOR and a CAB (R46, R69, R108). -/
def State.demandShown (s : State) : Bool := (s.presentCutter.map (·.demand)).getD false

/-- Run demand at the CONVEYOR (R69). -/
def State.wantsRun (s : State) : Bool :=
  s.demandShown || ((s.presentCutter.map (fun p => p.outstanding != 0)).getD false) || s.conv.standing

/-- The capacity the CUTTER reads (R31, R63). -/
def State.capacityRead (s : State) : Nat := (s.presentScrubber.map (·.capacity.toNat)).getD 0

/-! ## The face -/

/-- A cell's zone: its row divided by 4 (R1). -/
def zoneOf (row : Fin 24) : Nat := row.val / 4

def State.kind (s : State) (c : Cell) : CellKind := (s.image.kinds.get c.row).get c.col
def State.cell (s : State) (c : Cell) : CellState := (s.face.cells.get c.row).get c.col

/-- A zone is protected while its permanent or its temporary flag is set (R4). -/
def State.zoneProtected (s : State) (z : Nat) : Bool := s.image.permZones.getLsbD z || s.face.temp.getLsbD z

/-- A legal cell is RELEASED or CUT and lies in an unprotected zone (R4). -/
def State.legalCell (s : State) (c : Cell) : Bool :=
  (s.cell c == .released || s.cell c == .cut) && !s.zoneProtected (zoneOf c.row)

/-- The condition of "PROFILE BREACH": the held head cell is not legal (R37). -/
def State.headIllegal (s : State) : Bool :=
  match s.permit.head with
  | some c => !s.legalCell c
  | none => true

/-- Every INSIDE and TRIM cell of a row is CUT. -/
def rowComplete (kinds : List CellKind) (cells : RowCells) : Bool :=
  (kinds.zip cells.toList).all fun (k, c) => k == .outside || c == .cut

/-- The face is complete (R15): rows of permanently protected zones take no part. DESIGN CHOICE, log entry 34: a profile
with no INSIDE or TRIM cell outside those zones is complete by R15, and stays so at an ADVANCE, where R17 has a face cease
to be complete. -/
def State.faceComplete (s : State) : Bool :=
  rows24.all fun r =>
    s.image.permZones.getLsbD (zoneOf r) || rowComplete (s.image.kinds.get r).toList (s.face.cells.get r)

/-- The permit is FREE or TRIM. -/
def PermitState.on : PermitState → Bool
  | .free | .trim => true
  | .held | .stopped => false

def State.permitOn (s : State) : Bool := s.permit.state.on

/-- The configured dwell of a kind (R40). -/
def State.dwellOf (s : State) : CellKind → Ticks
  | .trim => sec s.image.dwellTrim
  | _ => sec s.image.dwellInside

/-- The dwell timer runs (R39). -/
def State.dwellRuns (s : State) : Bool :=
  s.permitOn && s.inputs.i1 && ((s.permit.head.map (fun c => s.cell c == .released)).getD false)

/-! ## The lot ring -/

def State.openLot (s : State) : Option Lot := s.ring.lots.find? (·.isOpen)

/-- The outstanding expected mass (R79). -/
def State.outstanding (s : State) : Nat := (s.ring.lots.map (·.expected)).sum

/-- The committed count of a CUTTER: lots issued, less one if a lot is OPEN (R82, R88). -/
def committedCount (issued : Word16) (lotOpen : Bool) : Word16 := if lotOpen then issued - 1 else issued

/-- The lots owed to the CONVEYOR, lowest number first (R81). -/
def State.owedLots (s : State) : List Lot :=
  if s.ring.resync then [] else s.ring.lots.filter fun l => !l.isOpen && atOrAbove l.number s.ring.takenHeld

/-! ## Channels -/

/-- The lowest-numbered entry of a meaning (R187). -/
def State.channelOf (s : State) (m : Meaning) : Option (Fin 16) :=
  sixteen.find? fun e => (s.cfg.channels.get e).meaning == m

/-- An entry's value is held (R187). -/
def Channel.held (c : Channel) : Bool := c.value.isSome && (c.state == .good || c.state == .missing) && !c.stale

/-- The value of the lowest-numbered entry of a meaning is held. -/
def State.valueHeld (s : State) (m : Meaning) : Bool :=
  match s.channelOf m with
  | some e => (s.sensor.channels.get e).held
  | none => false

/-- An age limit of 4 times the interval (R187). -/
def State.staleAge (s : State) (e : Fin 16) : Ticks := 4 * tenMs (s.cfg.channels.get e).interval

/-- The meanings a role's ready flag needs (R188). -/
def Role.needs : Role → List Meaning
  | .cutter => [.poseX, .poseY]
  | .scrubber => [.dust, .pressure]
  | .conveyor => [.massRate, .chainLoad]
  | .cab => []

/-! ## Scrubber -/

/-- The fan is RUNNING or RUN_ON. -/
def FanState.runs : FanState → Bool
  | .running | .runOn => true
  | _ => false

/-- SPRAY (R51). -/
def State.spray (s : State) : Bool := s.scrub.fan == .running && s.scrub.demand

/-- A held value compared with a level: at or above it. -/
def atLevel (level : Nat) (v : Option Word16) : Bool := (v.map (fun w => decide (level ≤ w.toNat))).getD false

/-- The smallest factor, in percent, among those whose conditions hold (R59). -/
def State.capacityFactor (s : State) : Nat :=
  let dustHeld := s.valueHeld .dust
  let pressureHeld := s.valueHeld .pressure
  if !s.scrub.fan.runs then 0
  else if !dustHeld || !pressureHeld then 0
  else if atLevel s.image.blocked s.scrub.pressure then 0
  else if atLevel s.image.limitLevel s.scrub.dust then 0
  else if s.scrub.wash == .washing then 25
  else if atLevel s.image.actionLevel s.scrub.dust then 50
  else if s.spray && !s.inputs.i1 then 50
  else if atLevel s.image.washDue s.scrub.pressure then 75
  else 100

/-- The capacity (R59, R60); 0 at a station that does not run (R61). -/
def State.capacity (s : State) : Nat := if s.live then s.image.base * s.capacityFactor / 100 else 0

/-! ## Conveyor -/

/-- Belt time advances (R85). -/
def ConvState.beltRuns : ConvState → Bool
  | .running | .runOff => true
  | _ => false

/-- The opening of a record's window (R86), in belt time. -/
def State.lotOpening (s : State) (r : LotRec) : Nat :=
  max (max (r.arrival + 10 * s.image.transit - r.lot.span.toNat) (s.conv.lastClose.getD 0)) r.arrival

/-- The close of a record's window (R86). -/
def State.lotClose (s : State) (r : LotRec) : Nat := r.arrival + 10 * s.image.transit + 10 * s.image.settle

/-- The measured mass of a record has reached the fall level of its expected mass (R87). -/
def State.atFall (s : State) (r : LotRec) : Bool := s.image.fallLevel * r.lot.expected.toNat ≤ 10 * r.measured

/-- The CHAIN_LOAD value is held and at or above the stall level (R74). -/
def State.chainLoaded (s : State) : Bool := s.valueHeld .chainLoad && atLevel s.image.stallLevel s.conv.load

/-- The MASS_RATE value held; 0 when none is (R85, R87). -/
def State.rateHeld (s : State) : Nat := if s.valueHeld .massRate then (s.conv.rate.map (·.toNat)).getD 0 else 0

/-- The head lot's measured mass in whole kg, 0 while no window is open (R87). -/
def State.headMass (s : State) : Nat :=
  if s.conv.windowOpen then ((s.conv.records.head?.map (·.measured)).getD 0) / 10 else 0

/-! ## Cab -/

/-- Every row held with one advance number, and that number. -/
def sameAdvance (rows : Tbl (Option RowEntry) 24) : Option Word16 :=
  match (rows.get 0).map (·.advance) with
  | some a => if rows.toList.all (fun r => r.map (·.advance) == some a) then some a else none
  | none => none

/-- The map advance number while the map is complete (R173); a row from before a restart counts as not held. -/
def State.mapComplete (s : State) : Option Word16 :=
  match sameAdvance s.cabMap.rows with
  | none => none
  | some a =>
    if s.cabMap.old.toList.any id then none
    else if s.cabMap.held then some a
    else if s.cutterRecord.map (fun p => p.1.advance) == some a then some a else none

/-- The CAB is the vigilance CAB (R108). -/
def State.isVigilanceCab (s : State) : Bool :=
  s.live && s.isRole .cab && s.cfg.duty &&
    !eight.any fun n => decide (n.val < s.station.val) && s.isPresent .cab n && (s.image.stations.get n).duty

/-- The vigilance CAB as the CUTTER takes it (R29). -/
def State.vigilanceCab (s : State) : Option Station :=
  eight.find? fun n => s.isPresent .cab n && (s.image.stations.get n).duty

/-- A class TRIP entry that is ACTIVE or CLEARED (R32, R105). -/
def NoticeEntry.unackedTrip (e : NoticeEntry) : Bool :=
  e.cls == NoticeClass.trip.code && (e.state == NoticeState.active.code || e.state == NoticeState.cleared.code)

/-- HORN (R105). -/
def State.hornOn (s : State) : Bool := s.cab.horn.isSome || s.cab.vig == .warned || s.cab.vig == .lapsed

/-- TRIP_LAMP (R105). -/
def State.tripLamp (s : State) : Bool := s.cab.list.any fun c => c.entry.unackedTrip

/-- The list overflow mark (R102). -/
def State.listOverflow (s : State) : Bool := 32 < s.cab.cands.length

/-! ## Outputs P0 to P3 (R190) -/

/-- The outputs P0, P1, P2, P3. -/
def State.outputs (s : State) : Bool × Bool × Bool × Bool :=
  if !s.live then (false, false, false, false)
  else
    match s.role with
    | some .cutter => (s.permitOn, s.permit.state == .trim, s.permit.state == .stopped, false)
    | some .scrubber =>
      (s.scrub.fan == .starting || s.scrub.fan.runs, s.spray, s.scrub.wash == .washing, false)
    | some .conveyor =>
      (s.conv.state == .beltStarting || s.conv.state == .chainStarting || s.conv.state == .running ||
        s.conv.state == .runOff, s.conv.state == .chainStarting || s.conv.state == .running,
        s.conv.state == .warning, false)
    | some .cab => (s.hornOn, s.tripLamp, false, false)
    | none => (false, false, false, false)

/-! ## The own notices and STATUS entry -/

/-- A notice as a NOTICE entry. -/
def Notice.entry (slot : Fin 8) (n : Notice) : NoticeEntry :=
  { slot := BitVec.ofNat 8 slot.val, code := n.code.code, cls := n.code.cls.code, state := n.state.code,
    raise := n.raise, detail := n.detail }

/-- The slot that holds a code. -/
def NoticeQueue.slotOf (q : NoticeQueue) (c : NoticeCode) : Option (Fin 8) :=
  eight.find? fun i => (q.slots.get i).map (·.code) == some c

def NoticeQueue.mask (q : NoticeQueue) : Byte := maskOf (q.slots.map Option.isSome)

/-- The column or row byte of a cell that may be absent (R197). -/
def colByte (c : Option Cell) : Byte := (c.map (fun c => BitVec.ofNat 8 c.col.val)).getD 0xFF
def rowByte (c : Option Cell) : Byte := (c.map (fun c => BitVec.ofNat 8 c.row.val)).getD 0xFF

/-- The period position in 0.1 s, 0 to D × 10 − 1 (R62). -/
def State.positionUnits (s : State) : Nat := min (s.dust.position.getD 0 / tenth) (10 * s.image.period - 1)

def State.cutterPart (s : State) : CutterPart :=
  { permit := s.permit.state.code, reasons := s.permit.reasons.mask, headCol := colByte s.permit.head,
    headRow := rowByte s.permit.head, demand := s.inputs.i0, faceComplete := s.faceComplete,
    lotOpen := s.openLot.isSome, allowance := BitVec.ofNat 16 s.dust.remaining,
    position := BitVec.ofNat 16 s.positionUnits, advance := s.face.advance, recovery := s.recovery.state.code,
    tempZones := s.face.temp, issued := s.ring.issued, outstanding := BitVec.ofNat 24 s.outstanding,
    cutMass := s.ring.cutMass }

def State.scrubberPart (s : State) : ScrubberPart :=
  { fan := s.scrub.fan.code, wash := s.scrub.wash.code, spray := s.spray, capacity := BitVec.ofNat 8 s.capacity,
    dust := s.scrub.dust.getD 0, pressure := s.scrub.pressure.getD 0 }

def State.conveyorPart (s : State) : ConveyorPart :=
  { state := s.conv.state.code, resync := s.conv.resync, taken := s.conv.taken, retired := s.conv.retired,
    headMass := BitVec.ofNat 32 s.headMass, stray := BitVec.ofNat 32 (s.conv.stray / 10),
    rate := BitVec.ofNat 16 s.rateHeld }

def State.ownCabPart (s : State) : CabPart :=
  { vigilance := s.cab.vig.code, duty := s.cfg.duty, mapComplete := s.mapComplete.isSome,
    mapAdvance := s.mapComplete.getD 0 }

/-- The station's STATUS entry (R167). -/
def State.ownStatus (s : State) : StatusRecord :=
  { common := { role := (s.role.map Role.code).getD 0, lineState := s.line.state.code, ready := s.sensor.ready,
                overflow := s.notices.overflow, late := BitVec.ofNat 8 s.pub.late, mask := s.notices.mask,
                sfc := BitVec.ofNat 8 s.line.sfc, hfc := BitVec.ofNat 8 s.line.hfc },
    part := match s.role with
      | some .cutter => .cutter s.cutterPart
      | some .scrubber => .scrubber s.scrubberPart
      | some .conveyor => .conveyor s.conveyorPart
      | some .cab => .cab s.ownCabPart
      | none => .none }

/-- A STATUS with its refreshed fields left out: what remains are the fields marked early (R167). -/
def StatusRecord.early (r : StatusRecord) : StatusRecord :=
  { common := { r.common with late := 0, sfc := 0, hfc := 0 },
    part := match r.part with
      | .cutter p => .cutter { p with allowance := 0, position := 0, cutMass := 0 }
      | .scrubber p => .scrubber { p with dust := 0, pressure := 0 }
      | .conveyor p => .conveyor { p with headMass := 0, stray := 0, rate := 0 }
      | p => p }

/-- The line fault record as a FAULT entry (R147). -/
def State.faultEntry (s : State) : FaultEntry :=
  match s.line.record with
  | some r =>
    { kind := r.kind.code, cls := (r.cls.map (fun c => (c.value.setWidth 8 : Byte))).getD 0xFF,
      position := BitVec.ofNat 8 r.position.val, count := BitVec.ofNat 8 r.count }
  | none => { kind := 0, cls := 0, position := 0, count := 0 }

/-- A tag range record as a TAG entry (R7, chapter 12). -/
def TagRecord.entry (record : Bool) (t : TagRecord) : TagEntry :=
  let bound := (t.bound.map (fun n => BitVec.ofNat 8 n.val)).getD 0xFF
  match t.range with
  | .none =>
    { bound := bound, record := record, state := 0, firstCol := 0xFF, firstRow := 0xFF, lastCol := 0xFF,
      lastRow := 0xFF }
  | .first a =>
    { bound := bound, record := record, state := 1, firstCol := colByte (some a), firstRow := rowByte (some a),
      lastCol := 0xFF, lastRow := 0xFF }
  | .range a b =>
    { bound := bound, record := record, state := 2, firstCol := colByte (some a), firstRow := rowByte (some a),
      lastCol := colByte (some b), lastRow := rowByte (some b) }

/-- A row of the CUTTER's map as a ROW entry (R19). -/
def State.rowEntry (s : State) (r : Fin 24) : RowEntry :=
  { row := BitVec.ofNat 8 r.val, advance := s.face.advance, cells := s.face.cells.get r }

def Lot.entry (l : Lot) : LotEntry :=
  { number := l.number, advance := l.advance, count := BitVec.ofNat 16 l.count,
    expected := BitVec.ofNat 16 l.expected, span := BitVec.ofNat 16 l.span }

end Sys2Proof.Machine
end

