-- ==== Sys2Proof/Machine/Flags.lean ====
section
/-! DEFINITION. Every flag a rule computes: the eleven hold reasons of the permit (R28 to R33) and the conditions of
the notice catalogue (R93). -/

namespace Sys2Proof.Machine

/-! ## Hold reasons -/

/-- POSE (R28): the pose is not fresh, or the head is OFF-GRID. -/
def State.reasonPose (s : State) : Bool := !s.permit.fresh || s.permit.head.isNone

/-- ROSTER (R29): an entry that is PRESENT and READY is lacking for the SCRUBBER, the CONVEYOR or the vigilance CAB, or
the vigilance CAB's latest STATUS does not show the duty. -/
def State.reasonRoster (s : State) : Bool :=
  !(eight.any (s.presentReady .scrubber) && eight.any (s.presentReady .conveyor) &&
    match s.vigilanceCab with
    | some n => s.presentReady .cab n && ((s.cabPart n).map (·.duty)).getD false
    | none => false)

/-- CELL (R30): the head is on the grid in a SOLID or OUTSIDE cell. -/
def State.reasonCell (s : State) : Bool :=
  (s.permit.head.map (fun c => s.cell c == .solid || s.cell c == .outside)).getD false

/-- ZONE (R30): the head is on the grid in a protected zone. -/
def State.reasonZone (s : State) : Bool :=
  (s.permit.head.map (fun c => s.zoneProtected (zoneOf c.row))).getD false

/-- DUST (R31): no allowance is left, or the capacity taken from the SCRUBBER is 0. -/
def State.reasonDust (s : State) : Bool := s.dust.remaining == 0 || s.capacityRead == 0

/-- SPOIL (R31, R83). -/
def State.reasonSpoil (s : State) : Bool :=
  (s.presentConveyor.map (·.state)) != some ConvState.running.code || s.image.holdLevel ≤ s.outstanding ||
    16 ≤ s.ring.lots.length

/-- TRIP (R32): a notice of class TRIP that is ACTIVE or CLEARED stands in the own queue or in a replica slot of a
PRESENT or SILENT station. -/
def State.reasonTrip (s : State) : Bool :=
  (eight.any fun i => ((s.notices.slots.get i).map (fun n => (n.entry i).unackedTrip)).getD false) ||
    eight.any fun n => n != s.station && s.counted n &&
      (s.replica n).slots.toList.any fun e => (e.map NoticeEntry.unackedTrip).getD false

/-- VIGIL (R32): the vigilance CAB's latest STATUS shows LAPSED. -/
def State.reasonVigil (s : State) : Bool :=
  match s.vigilanceCab with
  | some n => (s.cabPart n).map (·.vigilance) == some VigState.lapsed.code
  | none => false

/-- RESTORE (R33). -/
def State.reasonRestore (s : State) : Bool :=
  s.cfg.mapRecovery && !s.recovery.adopted && !(s.recovery.state == .lost && s.recovery.lostAcked)

/-- The hold reason set (R28 to R33). -/
def State.reasonsNow (s : State) : Reasons :=
  { demand := !s.inputs.i0
    line := s.line.state != .run && s.line.state != .quiet
    roster := s.reasonRoster
    pose := s.reasonPose
    cell := s.reasonCell
    zone := s.reasonZone
    dust := s.reasonDust
    spoil := s.reasonSpoil
    trip := s.reasonTrip
    vigil := s.reasonVigil
    restore := s.reasonRestore }

/-- No reason is set. -/
def Reasons.none (r : Reasons) : Bool :=
  !(r.demand || r.line || r.roster || r.pose || r.cell || r.zone || r.dust || r.spoil || r.trip || r.vigil ||
    r.restore)

/-! ## Conditions of the notices -/

/-- The head lot's window is open and its measured mass has reached the fall level (R87). -/
def State.faceFalling (s : State) : Bool :=
  s.conv.windowOpen && (s.conv.records.head?.map s.atFall).getD false

/-- The condition of each notice code, from the rule the catalogue cites. A code of another role's block never holds.
"PROFILE BREACH" is judged by the permit unit (R37). -/
def State.condition (s : State) : NoticeCode → Bool
  | .profileBreach => false
  | .faceComplete => s.isRole .cutter && s.faceComplete
  | .spoilAccountLost => s.isRole .cutter && s.ring.accountLost
  | .mapRestored => s.isRole .cutter && s.recovery.restored
  | .mapLost => s.isRole .cutter && s.recovery.state == .lost && !s.recovery.lostAcked
  | .fanFault => s.isRole .scrubber && s.scrub.fan == .fault
  | .filterNotCleared => s.isRole .scrubber && s.scrub.wash == .uncleared
  | .washAborted => s.isRole .scrubber && s.scrub.washAborted
  | .dustAction => s.isRole .scrubber && s.scrub.dustAction
  | .dustLimit => s.isRole .scrubber && s.scrub.dustLimit
  | .pullWire => s.isRole .conveyor && s.inputs.i2
  | .faceFall => s.isRole .conveyor && s.faceFalling
  | .conveyorFault => s.isRole .conveyor && s.conv.state == .fault && s.conv.fault == some .windowOrLoss
  | .chainStall => s.isRole .conveyor && s.conv.state == .fault && s.conv.fault == some .stall
  | .overbreakSuspected => s.isRole .conveyor && s.conv.overSeen
  | .spoilShort => s.isRole .conveyor && s.conv.shortSeen
  | .straySpoil => s.isRole .conveyor && decide (10 * s.image.strayLimit < s.conv.stray)
  | .vigilanceLapsed => s.isRole .cab && s.cab.vig == .lapsed
  | .vigilance => s.isRole .cab && (s.cab.vig == .warned || s.cab.vig == .lapsed)
  | .stationSilent => s.isRole .cab && s.silentSet != 0
  | .panelLost => s.isRole .cab && !s.panel.up
  | .answerMissing => s.isRole .cab && s.panel.answerMissing
  | .lineWarning => decide (s.image.warningLevel ≤ s.line.sfc) || decide (s.image.warningLevel ≤ s.line.hfc)
  | .lineQuiet => s.line.state == .quiet
  | .lineLate => 3 ≤ s.pub.late
  | .ordersDropped => s.pub.dropped
  | .channelFault => s.sensor.channels.toList.any (·.state == .fault)
  | .sensorLineBreak => s.sensor.broken

end Sys2Proof.Machine
end

