-- ==== Sys2Proof/Machine/Notices.lean ====
section
/-! DEFINITION. The notice queue (R92 to R100): raising, renewing, displacing, clearing, the waiting set, TRIP frames
and acknowledgement. -/

namespace Sys2Proof.Machine

def State.withNotices (s : State) (f : NoticeQueue → NoticeQueue) : State := { s with notices := f s.notices }

/-- A slot's changed mark set, at the number of builds made so far (R100, R166). -/
def markSlot (i : Fin 8) (s : State) : State :=
  s.withNotices fun q => { q with marks := q.marks.set i (some s.pub.builds) }

/-- A TRIP frame carrying the slot, where one of the two TRIP slots is free (R100, R135). -/
def queueTrip (i : Fin 8) (s : State) : State :=
  match s.notices.slots.get i with
  | some n =>
    if n.code.cls == .trip && s.line.trip.length < 2 then
      { s with line := { s.line with trip := s.line.trip ++ [n.entry i] } }
    else s
  | none => s

/-- The detail a raise of the code carries: the SILENT stations for "STATION SILENT", absent (0) otherwise (R92). -/
def detailOf (c : NoticeCode) (s : State) : Byte := if c = .stationSilent then s.silentSet else 0

/-- The code stands in slot `i`, ACTIVE with the next raise number, at the end of the raise order; a TRIP notice queues a
TRIP frame (R94, R95, R96). -/
def enterSlot (i : Fin 8) (c : NoticeCode) (s : State) : State :=
  let n : Notice := { code := c, raise := s.notices.counter + 1, state := .active, detail := detailOf c s }
  queueTrip i (markSlot i (s.withNotices fun q =>
    { q with slots := q.slots.set i (some n), counter := q.counter + 1,
             order := (q.order.filter (· != i)) ++ [i], waiting := q.waiting.set c.index false }))

/-- The lowest-numbered free slot. -/
def freeSlot (q : NoticeQueue) : Option (Fin 8) := eight.find? fun i => (q.slots.get i).isNone

/-- The slot of the NOTE that stands earliest in the raise order. -/
def oldestNote (q : NoticeQueue) : Option (Fin 8) :=
  q.order.find? fun i => (q.slots.get i).map (·.code.cls) == some .note

/-- A raise that does not enter: the code waits and the overflow flag is set (R95 case 3). -/
def refuseRaise (c : NoticeCode) (s : State) : State :=
  s.withNotices fun q => { q with waiting := q.waiting.set c.index true, overflow := true }

/-- The NOTE in slot `i` displaced (R95 case 2): it joins the waiting set if its condition still holds. -/
def displaceNote (i : Fin 8) (s : State) : State :=
  match s.notices.slots.get i with
  | some n =>
    s.withNotices fun q =>
      { q with waiting := if q.holds.get n.code.index then q.waiting.set n.code.index true else q.waiting,
               overflow := true }
  | none => s

/-- A raise (R94, R95). -/
def raiseNotice (c : NoticeCode) (s : State) : State :=
  match s.notices.slotOf c, freeSlot s.notices, oldestNote s.notices with
  | some i, _, _ => enterSlot i c s
  | none, some i, _ => enterSlot i c s
  | none, none, some i => if c.cls == .note then refuseRaise c s else enterSlot i c (displaceNote i s)
  | none, none, none => refuseRaise c s

/-- The waiting code of highest class, lowest code first (R96). -/
def nextWaiting (q : NoticeQueue) : Option NoticeCode :=
  let w := NoticeCode.all.filter fun c => q.waiting.get c.index
  match w.find? (·.cls == .trip), w.find? (·.cls == .warn), w.head? with
  | some c, _, _ => some c
  | none, some c, _ => some c
  | none, none, c => c

/-- An empty slot takes the next waiting code, if there is one (R96). -/
def fillSlot (i : Fin 8) (s : State) : State :=
  match nextWaiting s.notices with
  | some c => enterSlot i c s
  | none => s

/-- The notice in slot `i` leaves the queue. -/
def vacateSlot (i : Fin 8) (s : State) : State :=
  s.withNotices fun q =>
    { q with slots := q.slots.set i none, marks := q.marks.set i none, order := q.order.filter (· != i) }

/-- The slots that this event has emptied filled in turn, lowest slot first (R96): every free slot, for codes wait only
while there is none. -/
def refill (s : State) : State :=
  eight.foldl (fun s i => if (s.notices.slots.get i).isNone then fillSlot i s else s) s

/-- A notice's state replaced in its slot, which is marked changed (R100). -/
def setNoticeState (i : Fin 8) (n : Notice) (st : NoticeState) (s : State) : State :=
  markSlot i (s.withNotices fun q => { q with slots := q.slots.set i (some { n with state := st }) })

/-- The condition of a code goes false (R97); a slot that empties is not yet refilled. -/
def clearNotice (c : NoticeCode) (s : State) : State :=
  match s.notices.slotOf c with
  | some i =>
    match s.notices.slots.get i with
    | some n =>
      if c.cls == .note || n.state == .acked then vacateSlot i s
      else if n.state == .active then setNoticeState i n .cleared s
      else s
    | none => s
  | none => s.withNotices fun q => { q with waiting := q.waiting.set c.index false }

def setHolds (c : NoticeCode) (b : Bool) (s : State) : State :=
  s.withNotices fun q => { q with holds := q.holds.set c.index b }

/-- The state of "PROFILE BREACH" in its slot. -/
def State.breachNotice (s : State) : Option NoticeState :=
  (s.notices.slotOf .profileBreach).bind fun i => (s.notices.slots.get i).map (·.state)

/-- One code whose condition has gone false is cleared; that of "PROFILE BREACH" is judged while the notice stands in the
CUTTER's queue (R37). -/
def judgeClear (s : State) (c : NoticeCode) : State :=
  if c == .profileBreach then
    if s.isRole .cutter && s.breachNotice.isSome && !s.headIllegal then clearNotice c s else s
  else if s.notices.holds.get c.index && !s.condition c then setHolds c false (clearNotice c s) else s

/-- One code whose condition has gone true is raised. -/
def judgeRaise (s : State) (c : NoticeCode) : State :=
  if c != .profileBreach && !s.notices.holds.get c.index && s.condition c then setHolds c true (raiseNotice c s) else s

/-- A change in the set of SILENT stations while "STATION SILENT" holds changes its detail in place (R104). -/
def updateSilentDetail (s : State) : State :=
  match s.notices.slotOf .stationSilent with
  | some i =>
    match s.notices.slots.get i with
    | some n =>
      if s.condition .stationSilent && n.detail != s.silentSet then
        markSlot i (s.withNotices fun q => { q with slots := q.slots.set i (some { n with detail := s.silentSet }) })
      else s
    | none => s
  | none => s

/-- Every condition judged (R93): those gone false are cleared, emptied slots take waiting codes, and those gone true are
raised, each pass in ascending code order (log entry 12; raises that an event of the owner brings, log entry 69). -/
def judgeNotices (s : State) : State :=
  updateSilentDetail (NoticeCode.all.foldl judgeRaise (refill (NoticeCode.all.foldl judgeClear s)))

/-- The notice in slot `i` acknowledged (R98). The ACK that makes "MAP LOST" ACKED makes its condition false (R177). A slot
that it empties is refilled with those that the judging of this event empties (R96). -/
def acknowledge (i : Fin 8) (n : Notice) (s : State) : State :=
  match n.state with
  | .active =>
    let s' := setNoticeState i n .acked s
    if n.code = .mapLost then { s' with recovery := { s'.recovery with lostAcked := true } } else s'
  | .cleared => vacateSlot i s
  | .acked => s

/-- ACK {slot, raise number} past its sender check (R98 step 2). -/
def ackNotice (slot raise : Byte) (s : State) : AnswerCode × State :=
  let s := s.withNotices fun q => { q with overflow := false }
  if h : slot.toNat < 8 then
    let i : Fin 8 := ⟨slot.toNat, h⟩
    match s.notices.slots.get i with
    | some n => if n.raise = raise then (.done, acknowledge i n s) else (.notFound, s)
    | none => (.notFound, s)
  else (.notFound, s)

end Sys2Proof.Machine
end

