-- ==== Sys2Proof/Machine/Ops.lean ====
section
/-! DEFINITION. The named operations the families share: fault counts and the fault record, acceptance of a frame,
changed marks, tag records, the lot ring's commit and credit, and withdrawal. -/

namespace Sys2Proof.Machine

/-! ## Fault counts and the line fault record (R138 to R145) -/

/-- RUN and QUIET follow the counts (R140). -/
def followCounts (s : State) : State :=
  let high := 128 ≤ s.line.sfc || 128 ≤ s.line.hfc
  if s.line.state == .run && high then { s with line := { s.line with state := .quiet } }
  else if s.line.state == .quiet && !high then { s with line := { s.line with state := .run } }
  else s

/-- HFC lowered by one accepted frame (R137, R138). -/
def lowerHfc (s : State) : State := followCounts { s with line := { s.line with hfc := s.line.hfc - 1 } }

/-- HFC raised by one rejected frame, held at 255. -/
def raiseHfc (s : State) : State := followCounts { s with line := { s.line with hfc := min 255 (s.line.hfc + 1) } }

/-- SFC lowered by one frame sent whole. -/
def lowerSfc (s : State) : State := followCounts { s with line := { s.line with sfc := s.line.sfc - 1 } }

/-- A fault offered to the line fault record (R145). -/
def offerFault (kind : FaultKind) (cls : Option FrameClass) (position : Fin 68) (s : State) : State :=
  { s with line := { s.line with record := some (match s.line.record with
      | none => { kind := kind, cls := cls, position := position, count := 1 }
      | some r => { r with count := min 255 (r.count + 1) }) } }

/-! ## Acceptance of a frame (R137, R150, R156) -/

/-- The silence time of 3R. -/
def silenceTime (s : State) : Ticks := tenMs (3 * s.claim.r)

/-- The line silence watch of 4R. -/
def watchTime (s : State) : Ticks := tenMs (4 * s.claim.r)

/-- A frame accepted from a roster entry's station: PRESENT again, its silence timer reloaded (R156). -/
def hearEntry (n : Station) (s : State) : State :=
  match s.entry n with
  | some e =>
    if n != s.station && (e.state == .present || e.state == .silent) then
      { s with claim := { s.claim with
          roster := s.claim.roster.set n (some { e with state := .present, silence := some (silenceTime s) }) } }
    else s
  | none => s

/-- The line silence watch reloaded, where it runs (R150). -/
def reloadWatch (s : State) : State :=
  { s with claim := { s.claim with watch := s.claim.watch.map fun _ => watchTime s } }

/-- The line has carried a peer's frame: the station is not sending, and the next begin waits for the next gap (R132). A
begin that the model had made counts as not made: the peer's start was seen first. -/
def lineBusy (s : State) : State := { s with line := { s.line with sending := none, bus := .busy } }

/-- A frame has ended in its acceptance or its rejection: until the next gap no character counts (R136). -/
def frameEnds (s : State) : State :=
  lineBusy { s with line := { s.line with awaitsGap := true } }

/-- What the acceptance of any frame does, whatever its class. -/
def acceptFrame (sender : Station) (s : State) : State := frameEnds (reloadWatch (hearEntry sender (lowerHfc s)))

/-- What a frame on the line does, unless the receiver awaits a gap: then it is disregarded and counts no fault (R133, R136).
-/
def ifHeard (f : State → State) (s : State) : State := if s.line.awaitsGap then s else f s

/-- A frame rejected (R136): HFC raised, the fault offered. -/
def rejectFrame (kind : FaultKind) (cls : Option FrameClass) (position : Fin 68) (s : State) : State :=
  offerFault kind cls position (raiseHfc s)

/-! ## Changed marks (R166) and tag range records (R7) -/

def markRow (r : Fin 24) (s : State) : State :=
  { s with pub := { s.pub with rowMarks := s.pub.rowMarks.set r (some s.pub.builds) } }

def markAllRows (s : State) : State := { s with pub := { s.pub with rowMarks := .fill 24 (some s.pub.builds) } }

def markTags (s : State) : State := { s with pub := { s.pub with tagMarks := .fill 2 (some s.pub.builds) } }

/-- A tag range record replaced, marked changed where it changes. -/
def setTag (i : Fin 2) (t : TagRecord) (s : State) : State :=
  if s.face.tags.get i = t then s
  else
    { s with face := { s.face with tags := s.face.tags.set i t }
             pub := { s.pub with tagMarks := s.pub.tagMarks.set i (some s.pub.builds) } }

def setTagRange (i : Fin 2) (r : TagRange) (s : State) : State := setTag i { s.face.tags.get i with range := r } s

/-- The record bound to a station (R7). -/
def State.boundRecord (s : State) (n : Station) : Option (Fin 2) :=
  [(0 : Fin 2), 1].find? fun i => (s.face.tags.get i).bound == some n

/-- The rows of the map given by a function of row and cells; a row whose cells change is marked (R19). -/
def setRows (f : Fin 24 → RowCells → RowCells) (s : State) : State :=
  rows24.foldl (fun s r =>
    let cells := f r (s.face.cells.get r)
    if cells = s.face.cells.get r then s
    else markRow r { s with face := { s.face with cells := s.face.cells.set r cells } }) s

/-! ## The lot ring (R79, R80) -/

/-- The open lot, if one is open, is committed (R80). -/
def commitLot (s : State) : State :=
  { s with ring := { s.ring with lots := s.ring.lots.map fun l => { l with isOpen := false } } }

/-- A lot opens where none is open (R79). -/
def openLotIfNone (s : State) : State :=
  if s.openLot.isSome then s
  else
    { s with ring := { s.ring with
        lots := s.ring.lots ++ [{ number := s.ring.issued, advance := s.face.advance, count := 0, expected := 0,
                                  span := 0, isOpen := true }]
        issued := s.ring.issued + 1, spanPart := 0 } }

/-- A credit's mass handed to the ring (R79), with the commit at the lot limit (R80). -/
def creditMass (mass : Nat) (s : State) : State :=
  let s := openLotIfNone s
  let s := { s with ring := { s.ring with
      lots := s.ring.lots.map fun l => if l.isOpen then { l with count := l.count + 1, expected := l.expected + mass } else l
      cutMass := s.ring.cutMass + BitVec.ofNat 32 mass } }
  if s.ring.lots.any (fun l => l.isOpen && s.image.lotLimit ≤ l.expected) then commitLot s else s

/-! ## Withdrawal (R141) -/

/-- The station becomes WITHDRAWN. DESIGN CHOICE, log entry 35: an early STATE that still waits for its R/4 is dropped with
the publication timer, for R141 and R163 do not say whether it is kept for after a rejoin. -/
def withdrawStation (s : State) : State :=
  { s with
    line := { s.line with state := .withdrawn, sfc := 255, hfc := 0, trip := [], claim := none, map := none,
                          idleGaps := some 0 }
    claim := { s.claim with candidate := none, window := none, watch := none, ownSent := false }
    pub := { s.pub with timer := none, early := false }
    cabMap := { s.cabMap with send := none } }

/-- A send error (R133, R138, R141): the rest of what the line carries is not received. -/
def sendError (cls : FrameClass) (position : Fin 68) (s : State) : State :=
  let s := offerFault .sendBit (some cls) position (frameEnds s)
  if 248 ≤ s.line.sfc then withdrawStation s
  else followCounts { s with line := { s.line with sfc := s.line.sfc + 8 } }

/-! ## The ready flag (R188, R156) -/

/-- The station's ready flag set or cleared; its own roster entry carries the same flag (R156, R161). -/
def setReady (b : Bool) (s : State) : State :=
  { s with
    sensor := { s.sensor with ready := b }
    claim := { s.claim with roster := match s.entry s.station with
      | some e => s.claim.roster.set s.station (some { e with ready := some b })
      | none => s.claim.roster } }

/-! ## Orders (R170) -/

/-- The sender is a CAB whose entry in the roster is PRESENT. -/
def State.fromCab (s : State) (sender : Station) : Bool := s.isPresent .cab sender

/-- An answer put in the answer queue (R170, R171). -/
def pushAnswer (sender : Station) (number : Byte) (a : AnswerCode) (s : State) : State :=
  { s with pub := { s.pub with
      answers := s.pub.answers ++ [{ requester := BitVec.ofNat 8 sender.val, number := number, code := a.code }] } }

/-- An order accepted at its target (R170): its acceptance, then the answer queue, kind, argument and owner steps. The
owner step is the rule of the kind, which gives the answer. DESIGN CHOICE, log entry 36: where the acceptance makes a
SILENT CAB PRESENT, the order is executed first and the permit is evaluated once, at the end of the event. -/
def takeOrder (sender : Station) (number : Byte) (kind : OrderKind) (args : List Byte)
    (owner : State → AnswerCode × State) (s : State) : State :=
  let s := acceptFrame sender s
  if 4 ≤ s.pub.answers.length then { s with pub := { s.pub with dropped := true } }
  else if !((s.role.map kind.takenBy).getD false) then pushAnswer sender number .role s
  else if args.length < kind.argCount then pushAnswer sender number .range s
  else
    let (a, s') := owner s
    pushAnswer sender number a s'

end Sys2Proof.Machine
end

