-- ==== Sys2Proof/Machine/Operands.lean ====
section
/-! DEFINITION. Every operand form of the commands: how the bytes, numbers and characters a command brings are read. -/

namespace Sys2Proof.Machine

/-- The byte at a place among an order's arguments; the argument step of R170 has shown that it is there. -/
def argByte (args : List Byte) (i : Nat) : Byte := args.getD i 0

/-- The cell that two argument bytes name, column and row, if it is on the grid (R10, R11). -/
def argCell (args : List Byte) : Option Cell :=
  let col := (argByte args 0).toNat
  let row := (argByte args 1).toNat
  if h : col < 32 ∧ row < 24 then some ⟨⟨col, h.1⟩, ⟨row, h.2⟩⟩ else none

/-- The zone that an argument byte names, 0 to 5 (R5, R6). -/
def argZone (args : List Byte) : Option (Fin 6) :=
  if h : (argByte args 0).toNat < 6 then some ⟨(argByte args 0).toNat, h⟩ else none

/-- A slot byte, if it names a slot 0 to 7. -/
def slotOfByte (b : Byte) : Option (Fin 8) := if h : b.toNat < 8 then some ⟨b.toNat, h⟩ else none

/-- A row byte, if it names a row 0 to 23. -/
def rowOfByte (b : Byte) : Option (Fin 24) := if h : b.toNat < 24 then some ⟨b.toNat, h⟩ else none

/-- A received bid: below 2 read as 2, above 25 as 25 (R148). -/
def readBid (b : Byte) : Nat := max 2 (min 25 b.toNat)

/-- Role and serial of a CLAIM taken together as they are sent (R152, R153). -/
def claimValue (role : Byte) (serial : Word32) : Nat := role.toNat * 4294967296 + serial.toNat

/-- Even parity: the data bits and the parity bit hold an even number of 1 bits (R179). -/
def parityMatches (data : Byte) (parity : Bool) : Bool :=
  (List.range 8).foldl (fun p i => p != data.getLsbD i) parity == false

/-- A sensor character is valid: its stop bit reads mark and its parity, when enabled, matches (R180). -/
def characterValid (parityOn : Bool) (data : Byte) (parity stopMark : Bool) : Bool :=
  stopMark && (!parityOn || parityMatches data parity)

/-- The check of a sensor answer (R199). -/
def sensorCheck (channel high low : Byte) : Byte := ~~~ (channel ^^^ high ^^^ low)

/-- A pose value in centimetres, in two's complement (R23). -/
def poseCm (w : Word16) : Int := w.toInt

/-- The head cell of a pose (R24): none for OFF-GRID. -/
def headCellOf (pitch : Nat) (x y : Word16) : Option Cell :=
  let col := (poseCm x + 16 * pitch).fdiv pitch
  let row := (poseCm y).fdiv pitch
  if h : 0 ≤ col ∧ col < 32 ∧ 0 ≤ row ∧ row < 24 then
    some ⟨⟨col.toNat, by omega⟩, ⟨row.toNat, by omega⟩⟩
  else none

/-- A cell's place in row-major order (R11). -/
def cellIndex (c : Cell) : Nat := 32 * c.row.val + c.col.val

/-- The cells of a range (R7): part of one row, or whole rows. -/
def inRange (a b c : Cell) : Bool :=
  if a.row = b.row then c.row == a.row && decide (a.col.val ≤ c.col.val) && decide (c.col.val ≤ b.col.val)
  else decide (a.row.val ≤ c.row.val) && decide (c.row.val ≤ b.row.val)

/-- The rows a range covers. -/
def rangeRows (a b : Cell) : List (Fin 24) :=
  rows24.filter fun r => decide (a.row.val ≤ r.val) && decide (r.val ≤ b.row.val)

end Sys2Proof.Machine
end

