-- ==== Sys2Proof/Machine/Permit.lean ====
section
/-! DEFINITION. The permit unit (chapter 02): evaluation, the breach latch and its notice, pose events, dwell and
credit. -/

namespace Sys2Proof.Machine

def setPermit (st : PermitState) (s : State) : State := { s with permit := { s.permit with state := st } }

/-! ## "PROFILE BREACH" (R37, R38) -/

/-- The condition re-judged while the notice stands in the queue: false clears it (where the judging of the notices has
not: one that has just entered), true again while it is CLEARED raises it afresh (R37). DESIGN CHOICE, log entry 69: that
raise comes after the clears, refills and raises of the event. -/
def judgeBreach (s : State) : State :=
  match s.breachNotice with
  | none => s
  | some st =>
    if !s.headIllegal then clearNotice .profileBreach s
    else if st == .cleared then raiseNotice .profileBreach s
    else s

/-- The notice entered the queue for this breach (R44). -/
def noteBreachEntered (s : State) : State :=
  if s.permit.state == .stopped && s.breachNotice.isSome then { s with permit := { s.permit with breachEntered := true } }
  else s

/-- The permit is STOPPED and the notice has not entered the queue since the breach (R37). -/
def State.breachWaits (s : State) : Bool := s.permit.state == .stopped && !s.permit.breachEntered

/-- A further attempt to raise the notice at an evaluation event (R37). DESIGN CHOICE, log entry 69: at a pose event and at a
STATUS taken it comes before the clears and refills of the same event. -/
def retryBreach (s : State) : State :=
  if s.isRole .cutter && s.breachWaits then noteBreachEntered (raiseNotice .profileBreach s) else s

/-- The permit leaves STOPPED for HELD once the notice, having entered, has left the queue (R38). -/
def releaseBreach (s : State) : State :=
  if s.permit.state == .stopped && s.permit.breachEntered && s.breachNotice.isNone then
    { s with permit := { s.permit with state := .held, breachEntered := false } }
  else s

/-- A breach latches (R36): STOPPED, the cut spell ends, the notice is raised. DESIGN CHOICE, log entry 69: the raise comes
before the clears and refills of the same event (R93, R96, R97 give no order). -/
def latchBreach (s : State) : State :=
  let s := commitLot { s with permit := { s.permit with state := .stopped, breachEntered := false } }
  noteBreachEntered (raiseNotice .profileBreach s)

/-! ## Evaluation (R34, R35) -/

/-- The state an empty reason set gives: by the head cell's kind (R35). -/
def State.onState (s : State) : PermitState :=
  match s.permit.head.map s.kind with
  | some .inside => .free
  | some .trim => .trim
  | _ => .held

/-- The transitions of R35 under the hold reasons held. -/
def movePermit (s : State) : State :=
  match s.permit.state with
  | .stopped => s
  | .held => if s.permit.reasons.none then setPermit s.onState s else s
  | .free | .trim => if s.permit.reasons.none then setPermit s.onState s else setPermit .held (commitLot s)

/-- A dwell timer that an event has stopped completes nothing: it stands short of the dwell, its value kept (R41). -/
def dwellSync (s : State) : State := { s with permit := { s.permit with reached := s.permit.reached && s.dwellRuns } }

/-- The reasons as they now are, the transitions of R35 under them, and what these do to the dwell timer. -/
def applyReasons (s : State) : State := dwellSync (movePermit { s with permit := { s.permit with reasons := s.reasonsNow } })

/-- One evaluation of the permit at the CUTTER. -/
def evaluatePermit (s : State) : State := applyReasons (releaseBreach (noteBreachEntered (judgeBreach s)))

/-- The permit unit is live in the CUTTER only. -/
def permitSync (s : State) : State := if s.isRole .cutter then evaluatePermit s else s

/-! ## Pose events (R23 to R25, R36) -/

/-- A pose event after which the head is OFF-GRID, in an OUTSIDE cell or in a protected zone is a breach while the permit
is on (R36). -/
def State.poseBreach (s : State) : Bool :=
  s.permitOn && match s.permit.head with
    | some c => s.cell c == .outside || s.zoneProtected (zoneOf c.row)
    | none => true

/-- The head cell from the latest pose values (R24). -/
def State.headNow (s : State) : Option Cell :=
  match s.permit.poseX, s.permit.poseY with
  | some x, some y => headCellOf s.image.pitch x y
  | _, _ => none

/-- Both latest deliveries are less than 100 ms old (R25). -/
def State.poseRecent (s : State) : Bool :=
  s.permit.poseX.isSome && s.permit.poseY.isSome && decide (s.permit.ageX < Config.poseLimit) &&
    decide (s.permit.ageY < Config.poseLimit)

/-- A pose event: head cell, freshness, dwell and breach test; the evaluation follows. A running dwell timer that it resets
is superseded: its completion, where it comes at the same moment, is not that of the new cell (R41). -/
def poseEvent (s : State) : State :=
  let head := s.headNow
  let s := { s with permit := { s.permit with
      head := head, fresh := s.poseRecent, dwell := if head = s.permit.head then s.permit.dwell else 0
      reached := s.permit.reached && head == s.permit.head
      superseded := s.permit.superseded || (s.dwellRuns && head != s.permit.head) } }
  if s.poseBreach then latchBreach s else retryBreach s

/-- A POSE_X or POSE_Y value delivered to the permit unit (R23). -/
def deliverPose (isX : Bool) (v : Word16) (s : State) : State :=
  let p := s.permit
  poseEvent { s with permit :=
    if isX then { p with poseX := some v, ageX := 0, lastX := true }
    else { p with poseY := some v, ageY := 0, lastX := false } }

/-- The pose stops being fresh (R25): 100 ms have passed since the older of the two deliveries (log entry 18). -/
def poseExpires (s : State) : State :=
  if s.permit.fresh then
    { s with permit :=
      if s.permit.lastX then { s.permit with fresh := false, ageY := Config.poseLimit }
      else { s.permit with fresh := false, ageX := Config.poseLimit } }
  else s

/-! ## Dwell and credit (R39, R40) -/

/-- The configured cell mass of a kind (R2, R79). -/
def State.massOf (s : State) : CellKind → Nat
  | .trim => s.image.massTrim
  | _ => s.image.massInside

/-- The head cell credited (R40). -/
def creditCell (c : Cell) (s : State) : State :=
  let row := s.face.cells.get c.row
  let s := markRow c.row { s with face := { s.face with cells := s.face.cells.set c.row (row.set c.col .cut) } }
  creditMass (s.massOf (s.kind c)) { s with permit := { s.permit with dwell := 0, reached := false } }

/-- The dwell timer, which runs, reaches the configured dwell (R40). The completion of a timer that a pose event has reset
at this moment gives no credit (R41). -/
def dwellCompletes (s : State) : State :=
  if s.permit.superseded then { s with permit := { s.permit with superseded := false } }
  else
    match s.permit.head with
    | some c => if s.dwellRuns then creditCell c s else s
    | none => s

/-! ## Entry to INACTIVE (R142, R27, R61, R62, R77, R113, R128, R189) -/

/-- What the units do on entry to INACTIVE. DESIGN CHOICE, log entry 41: with the period timer the period position is
discarded and reads 0, and the allowance used and the carried fraction keep their values, where R62 says only that the
timer stops and the allowance remaining becomes 0. DESIGN CHOICE, log entry 63: map recovery (state, 2 s, request and buffer;
R177) and the send copy of a CAB (R175) stand as they are; a part in INACTIVE runs no time. -/
def stopUnits (s : State) : State :=
  { s with
    claim := { s.claim with
      window := none, watch := none
      roster := s.claim.roster.map (Option.map fun e => { e with silence := none }) }
    pins := s.pins.map fun p => { p with left := none }
    pub := { s.pub with timer := none, early := false, asked := false }
    sensor := { s.sensor with polled := none, quietWait := false, assembly := .hunt }
    dust := { s.dust with position := none, remaining := 0 }
    scrub := { s.scrub with fan := .stopped, wash := .clear, startWindow := none, proofLoss := none, runOn := none,
                            washTime := none, settling := none }
    conv := { s.conv with state := .stopped, fault := none, warning := none, beltWindow := none, chainWindow := none,
                          runOff := none, beltLoss := none, chainLoss := none, stall := none }
    cab := { s.cab with vig := .idle, period := none, grace := none, horn := none, pair := none, superseded := false }
    panel := { s.panel with frameTimer := none, keyWait := none, clocking := false } }

/-- The station enters INACTIVE and shows why (R142, R195): slots emptied, the units stopped, the permit evaluated under
LINE. Counts, fault record and notice queue stay as they stand. DESIGN CHOICE, log entry 46: the idle gap count of a
WITHDRAWN station is discarded, for R142 keeps its counts and R143 gives that count in WITHDRAWN only. -/
def enterInactive (cause : InactiveCause) (s : State) : State :=
  let s := { s with line := { s.line with
      state := .inactive, cause := some cause, trip := [], claim := none, order := none, map := none,
      stateSlot := none, sending := none, idleGaps := none } }
  let s := stopUnits s
  if s.isRole .cutter then applyReasons s else s

end Sys2Proof.Machine
end

