-- ==== Sys2Proof/Machine/Scrub.lean ====
section
/-! DEFINITION. The scrubber sequencer (R45 to R61): fan, spray, filter wash and dust levels. -/

namespace Sys2Proof.Machine

def State.withScrub (s : State) (f : Scrubber → Scrubber) : State := { s with scrub := f s.scrub }

/-- A wash begins (R53, R54). -/
def startWash (s : State) : State :=
  s.withScrub fun u => { u with wash := .washing, washTime := some (sec s.image.washTime), settling := none }

/-- The latest PRESSURE value is held and at or above the wash-due level. -/
def State.pressureDue (s : State) : Bool := s.valueHeld .pressure && atLevel s.image.washDue s.scrub.pressure

/-- A wash in progress is aborted (R56). -/
def abortWash (s : State) : State :=
  if s.scrub.wash == .washing || s.scrub.wash == .settling then
    s.withScrub fun u => { u with wash := if s.pressureDue then .due else .clear, washTime := none, settling := none,
                                  washAborted := true }
  else s

/-- The fan enters RUNNING or RUN_ON; the condition of "WASH ABORTED" goes false when it comes from outside the two
(R48, R56). -/
def fanRuns (s : State) : State :=
  s.withScrub fun u =>
    { u with fan := if u.demand then .running else .runOn, startWindow := none, washAborted := false
             runOn := if u.demand then none else some Config.runOn }

/-- The fan leaves for STOPPED on run-on expiry (R48, R56). -/
def fanStops (s : State) : State :=
  abortWash (s.withScrub fun u => { u with fan := .stopped, startWindow := none, runOn := none, proofLoss := none })

/-- Entry to FAULT (R50). -/
def fanFaults (s : State) : State :=
  abortWash (s.withScrub fun u => { u with fan := .fault, startWindow := none, runOn := none, proofLoss := none })

/-- A demand change moves the quiet time (R46): it starts from 0 at a change to not shown, and is 0 while shown. -/
def scrubDemand (s : State) : State :=
  let d := s.demandShown
  if d = s.scrub.demand then s
  else s.withScrub fun u => { u with demand := d, quietLeft := some Config.quietTime }

/-- The fan follows demand and proof (R47, R48). -/
def fanFollows (s : State) : State :=
  match s.scrub.fan with
  | .stopped =>
    if s.scrub.demand then
      let s := s.withScrub fun u => { u with fan := .starting, startWindow := some Config.startWindow }
      if s.inputs.i0 then fanRuns s else s
    else s
  | .starting => if s.inputs.i0 then fanRuns s else s
  | .running => if s.scrub.demand then s else s.withScrub fun u => { u with fan := .runOn, runOn := some Config.runOn }
  | .runOn => if s.scrub.demand then s.withScrub fun u => { u with fan := .running, runOn := none } else s
  | .fault => s

/-- The proof loss time runs while the fan runs without proof (R49). -/
def fanProofLoss (s : State) : State :=
  s.withScrub fun u => { u with proofLoss := Timer.follow (u.fan.runs && !s.inputs.i0) Config.proofLoss u.proofLoss }

/-- A DUE filter with the fan running and a quiet time of 10 s starts a wash (R53). -/
def autoWash (s : State) : State :=
  if s.scrub.wash == .due && s.scrub.fan.runs && s.scrub.quietLeft.isNone then startWash s else s

/-- The sequencer follows what its inputs and the shared picture now show. -/
def scrubSync (s : State) : State :=
  if s.isRole .scrubber then autoWash (fanProofLoss (fanFollows (scrubDemand s))) else s

/-- A DUST value delivered (R45, R58). -/
def deliverDust (v : Word16) (s : State) : State :=
  s.withScrub fun u =>
    { u with dust := some v, dustAction := decide (s.image.actionLevel ≤ v.toNat)
             dustLimit := decide (s.image.limitLevel ≤ v.toNat) }

/-- A PRESSURE value delivered, read as at most 5000 (R45), moves the wash state (R52). -/
def deliverPressure (v : Word16) (s : State) : State :=
  let p : Word16 := if 5000 < v.toNat then 5000 else v
  let high := decide (s.image.washDue ≤ p.toNat)
  s.withScrub fun u =>
    { u with pressure := some p
             wash := match u.wash with
               | .clear => if high then .due else .clear
               | .due => if high then .due else .clear
               | .uncleared => if high then .uncleared else .clear
               | w => w }

/-! ## Expiries -/

/-- R47: the start window expires. -/
def startWindowExpires (s : State) : State :=
  if s.isRole .scrubber && s.scrub.fan == .starting then fanFaults s else s

/-- R49: the proof loss time expires. -/
def proofLossExpires (s : State) : State :=
  if s.isRole .scrubber && s.scrub.fan.runs && s.scrub.proofLoss.isSome then fanFaults s else s

/-- R48: the run-on time expires. -/
def runOnExpires (s : State) : State :=
  if s.isRole .scrubber && s.scrub.fan == .runOn then fanStops s else s

/-- R53: the quiet time reaches 10 s; the wash itself starts as the sequencer follows. -/
def quietReaches (s : State) : State :=
  if s.isRole .scrubber && !s.scrub.demand then s.withScrub fun u => { u with quietLeft := none } else s

/-- R55: the wash time expires. -/
def washTimeExpires (s : State) : State :=
  if s.isRole .scrubber && s.scrub.wash == .washing then
    s.withScrub fun u => { u with wash := .settling, washTime := none, settling := some Config.settling }
  else s

/-- R55: the settling time expires and the latest PRESSURE value is judged. -/
def settlingExpires (s : State) : State :=
  if s.isRole .scrubber && s.scrub.wash == .settling then
    s.withScrub fun u =>
      { u with settling := none
               wash := if s.valueHeld .pressure && !atLevel s.image.washDue u.pressure then .clear else .uncleared }
  else s

/-! ## Orders -/

/-- WASH_NOW (R54). -/
def washNowOrder (sender : Station) (s : State) : AnswerCode × State :=
  if !s.fromCab sender then (.role, s)
  else if s.scrub.wash == .washing || s.scrub.wash == .settling || !s.scrub.fan.runs then (.state, s)
  else (.done, startWash s)

/-- SCRUB_RESET (R50); the fan goes on to STARTING as the sequencer follows (R47). -/
def scrubResetOrder (sender : Station) (s : State) : AnswerCode × State :=
  if !s.fromCab sender then (.role, s)
  else if s.scrub.fan != .fault then (.state, s)
  else (.done, s.withScrub fun u => { u with fan := .stopped })

end Sys2Proof.Machine
end

