-- ==== Sys2Proof/Machine/Conv.lean ====
section
/-! DEFINITION. The conveyor sequencer (R68 to R77) and the lot tally at the CONVEYOR (R84 to R89). -/

namespace Sys2Proof.Machine

def State.withConv (s : State) (f : Conveyor → Conveyor) : State := { s with conv := f s.conv }

/-! ## The sequence -/

/-- A state of the sequence entered with its timers; the loss and stall times follow on their own (R71 to R74). -/
def convEnter (st : ConvState) (s : State) : State :=
  s.withConv fun u =>
    { u with state := st
             warning := if st == .warning then some Config.warning else none
             beltWindow := if st == .beltStarting then some Config.beltWindow else none
             chainWindow := if st == .chainStarting then some Config.chainWindow else none
             runOff := if st == .runOff then some (sec s.image.runOff) else none }

/-- Entry to FAULT (R76); in FAULT the cause of the earlier entry stands (R75). -/
def convFault (why : ConvFault) (s : State) : State :=
  if s.conv.state == .fault then s
  else (convEnter .fault s).withConv fun u => { u with fault := some why, beltLoss := none, chainLoss := none, stall := none }

/-- A state's own way on, given run demand and the proof inputs (R71, R72). -/
def convNext (s : State) : State :=
  match s.conv.state with
  | .stopped => if s.conv.runDemand then convEnter .warning s else s
  | .runOff => if s.conv.runDemand then convEnter .chainStarting s else s
  | .beltStarting => if s.inputs.i0 then convEnter .chainStarting s else s
  | _ => s

/-- Chain proof is taken at the first moment in the window (R71). -/
def convChain (s : State) : State :=
  if s.conv.state == .chainStarting && s.inputs.i1 then convEnter .running s else s

/-- RUNNING without run demand goes on to RUN_OFF (R71, R72). -/
def convRunOff (s : State) : State :=
  if s.conv.state == .running && !s.conv.runDemand then convEnter .runOff s else s

/-- The loss and stall times run while their cause holds (R73, R74). -/
def convWatch (s : State) : State :=
  let st := s.conv.state
  s.withConv fun u =>
    { u with
      beltLoss := Timer.follow ((st == .chainStarting || st == .running || st == .runOff) && !s.inputs.i0)
        Config.driveLoss u.beltLoss
      chainLoss := Timer.follow (st == .running && !s.inputs.i1) Config.driveLoss u.chainLoss
      stall := Timer.follow (st == .running && s.chainLoaded) Config.stall u.stall }

/-- The sequencer follows run demand, its inputs and its channel values. -/
def convSync (s : State) : State :=
  if s.isRole .conveyor then
    convWatch (convRunOff (convChain (convNext (s.withConv fun u => { u with runDemand := s.wantsRun }))))
  else s

/-- PULL_WIRE goes active (R75); the notice follows its condition. -/
def pullWireActive (s : State) : State := convFault .pullWire s

/-! ## Expiries of the sequence -/

/-- R71: the warning time expires. -/
def warningExpires (s : State) : State :=
  if s.isRole .conveyor && s.conv.state == .warning then convEnter .beltStarting s else s

/-- R71: the belt window expires. -/
def beltWindowExpires (s : State) : State :=
  if s.isRole .conveyor && s.conv.state == .beltStarting then convFault .windowOrLoss s else s

/-- R71: the chain window expires. -/
def chainWindowExpires (s : State) : State :=
  if s.isRole .conveyor && s.conv.state == .chainStarting then convFault .windowOrLoss s else s

/-- R73: the belt loss time expires. -/
def beltLossExpires (s : State) : State :=
  if s.isRole .conveyor && s.conv.beltLoss.isSome then convFault .windowOrLoss s else s

/-- R73: the chain loss time expires. -/
def chainLossExpires (s : State) : State :=
  if s.isRole .conveyor && s.conv.chainLoss.isSome then convFault .windowOrLoss s else s

/-- R74: the stall time expires. -/
def stallExpires (s : State) : State :=
  if s.isRole .conveyor && s.conv.stall.isSome then convFault .stall s else s

/-- R72: the run-off time expires. -/
def runOffExpires (s : State) : State :=
  if s.isRole .conveyor && s.conv.state == .runOff then convEnter .stopped s else s

/-! ## Orders -/

/-- CONVEY_ON and CONVEY_OFF (R70). -/
def conveyOrder (on : Bool) (sender : Station) (s : State) : AnswerCode × State :=
  if !s.fromCab sender then (.role, s) else (.done, s.withConv fun u => { u with standing := on })

/-- CONVEY_RESET (R76); the sequence goes on to WARNING as it follows run demand. -/
def conveyResetOrder (sender : Station) (s : State) : AnswerCode × State :=
  if !s.fromCab sender then (.role, s)
  else if s.conv.state != .fault then (.state, s)
  else if s.inputs.i2 then (.state, s)
  else (.done, (convEnter .stopped s).withConv fun u => { u with fault := none })

/-! ## Lots (R84 to R89) -/

/-- The ratio of R87 in percent compared with a level: at or above it. For an expected mass of 0 the manual gives no
ratio: it is the free value of log entry 2. -/
def ratioAtLeast (level : Nat) (r : LotRec) : Bool :=
  if r.lot.expected = 0 then level ≤ Config.ratioOfZeroExpected r.measured
  else level * r.lot.expected.toNat ≤ 10 * r.measured

/-- The ratio of R87 at or below a level. -/
def ratioAtMost (level : Nat) (r : LotRec) : Bool :=
  if r.lot.expected = 0 then Config.ratioOfZeroExpected r.measured ≤ level
  else 10 * r.measured ≤ level * r.lot.expected.toNat

/-- The outcome of a retirement: the first row of R87 whose test holds. -/
def lotOutcome (i : Image) (r : LotRec) : LotOutcome :=
  if ratioAtLeast i.fallLevel r then .fall
  else if ratioAtLeast i.overLevel r then .overbreak
  else if ratioAtMost i.shortLevel r then .short
  else .ok

/-- The notices of an outcome: OVER and SHORT are raised at each such retirement, OK makes both conditions false
(R87, R93). DESIGN CHOICE, log entry 69: the raise comes before the clears and refills of the same event. -/
def outcomeNotices (o : LotOutcome) (s : State) : State :=
  match o with
  | .overbreak =>
    raiseNotice .overbreakSuspected (setHolds .overbreakSuspected true (s.withConv fun u => { u with overSeen := true }))
  | .short => raiseNotice .spoilShort (setHolds .spoilShort true (s.withConv fun u => { u with shortSeen := true }))
  | .ok => s.withConv fun u => { u with overSeen := false, shortSeen := false }
  | .fall => s

/-- A RETIRE entry queued; a 17th discards the oldest waiting (R87). -/
def queueRetire (e : RetireEntry) (l : List RetireEntry) : List RetireEntry :=
  let l := l ++ [e]
  l.drop (l.length - 16)

/-- The head lot retired (R87): its window closes, the record leaves, the count rises, the entry waits. -/
def retireHead (r : LotRec) (rest : List LotRec) (s : State) : State :=
  let o := lotOutcome s.image r
  let e : RetireEntry := { number := r.lot.number, outcome := o.code, mass := BitVec.ofNat 32 (r.measured / 10) }
  judgeNotices (outcomeNotices o (s.withConv fun u =>
    { u with records := rest, retired := u.retired + 1, windowOpen := false, lastClose := some (s.lotClose r)
             retires := queueRetire e u.retires }))

/-- The head lot's window opens once belt time has reached its opening; an empty window retires the lot there, and the
next lot becomes head in the same event (R86). -/
def openWindows : Nat → State → State
  | 0, s => s
  | fuel + 1, s =>
    match s.conv.records with
    | [] => s
    | r :: rest =>
      if s.conv.windowOpen || s.conv.beltTime < s.lotOpening r then s
      else if s.lotClose r ≤ s.lotOpening r then
        openWindows fuel (retireHead { r with measured := 0 } rest s)
      else s.withConv fun u => { u with windowOpen := true }

/-- Windows that are to open now open: at most 16 records, each opened or retired once. -/
def openWindow (s : State) : State := openWindows 17 s

/-- A LOT entry taken (R84). -/
def takeLot (e : LotEntry) (s : State) : State :=
  if s.conv.resync || e.number != s.conv.taken || 16 ≤ s.conv.records.length then s
  else openWindow (s.withConv fun u =>
    { u with records := u.records ++ [{ lot := e, arrival := u.beltTime, measured := 0 }], taken := u.taken + 1 })

/-- The lot records discarded (R89); waiting RETIRE entries and the resync mark are kept. -/
def discardLots (s : State) : State :=
  s.withConv fun u => { u with records := [], taken := 0, retired := 0, windowOpen := false, lastClose := none }

/-- Stray mass belongs to the current advance (R85). -/
def takeAdvance (a : Word16) (s : State) : State :=
  s.withConv fun u => { u with advance := some a, stray := if u.advance.isNone || u.advance = some a then u.stray else 0 }

/-- A CUTTER STATUS at the CONVEYOR: the current advance (R85), the counts after power-on, which only the PRESENT CUTTER
gives (R88), or the discard of R89 where the committed count is behind lots taken. DESIGN CHOICE, log entry 62: for the advance
and the discard R85 and R89 say 'a CUTTER STATUS' and name no PRESENT CUTTER, so the STATUS of any station that shows the
role CUTTER counts. -/
def conveyorTakesCutter (sender : Station) (p : CutterPart) (s : State) : State :=
  let c := committedCount p.issued p.lotOpen
  let s := takeAdvance p.advance s
  if s.conv.resync then
    if s.presentOf .cutter == some sender then
      s.withConv fun u => { u with taken := c, retired := c, resync := false }
    else s
  else if precedes c s.conv.taken then discardLots s
  else s

/-- 0.1 s of belt time (R85): one tenth of the rate held goes to the head lot in its window, else to stray mass. -/
def beltTick (s : State) : State :=
  if s.isRole .conveyor && s.conv.state.beltRuns then
    let add := s.rateHeld
    s.withConv fun u =>
      { u with
        beltTime := u.beltTime + 1, beltPart := 0
        records := match u.records with
          | r :: rest => if u.windowOpen then { r with measured := min Config.massTop (r.measured + add) } :: rest else u.records
          | [] => []
        stray := if u.windowOpen && !u.records.isEmpty then u.stray else min Config.massTop (u.stray + add) }
  else s

/-- Belt time has reached the head lot's opening (R86). -/
def lotWindowOpens (s : State) : State := if s.isRole .conveyor then openWindow s else s

/-- Belt time has reached the head lot's close (R86, R87); the next lot's window may open at that moment. -/
def lotRetires (s : State) : State :=
  match s.conv.records with
  | r :: rest =>
    if s.isRole .conveyor && s.conv.windowOpen && decide (s.lotClose r ≤ s.conv.beltTime) then
      openWindow (retireHead r rest s)
    else s
  | [] => s

end Sys2Proof.Machine
end

