-- ==== Sys2Proof/Machine/Dust.lean ====
section
/-! DEFINITION. The CUTTER's dust allowance unit (R62 to R67) and its lot ring against the CONVEYOR's counts (R82). -/

namespace Sys2Proof.Machine

/-- A period starts (R63): position 0, allowance loaded from the capacity read, allowance used 0, fraction discarded. -/
def startPeriod (s : State) : State :=
  { s with dust := { position := some 0, midDone := false, remaining := 10 * s.capacityRead, used := 0, fraction := 0 } }

/-- PERIOD_START (R62 compare B): acts while the period timer runs. -/
def periodStarts (s : State) : State :=
  if s.isRole .cutter && s.dust.position.isSome then startPeriod s else s

/-- Compare A (R64): the allowance remaining is lowered to what the capacity now leaves. -/
def midLowers (s : State) : State :=
  match s.dust.position with
  | some p =>
    if s.isRole .cutter && !s.dust.midDone then
      { s with dust := { s.dust with
          midDone := true, position := some (max p (sec s.image.period / 2))
          remaining := min s.dust.remaining (10 * s.capacityRead - s.dust.used) } }
    else s
  | none => s

/-- The allowance remaining reaches 0 (R65): acts while it counts down. -/
def allowanceEnds (s : State) : State :=
  if s.isRole .cutter && s.permitOn && decide (0 < s.dust.remaining) then
    { s with dust := { s.dust with used := s.dust.used + s.dust.remaining, remaining := 0, fraction := 0 } }
  else s

/-- The lots at the front of the ring whose numbers precede `r` (R82 step 4). -/
def passedLots (r : Word16) (lots : List Lot) : List Lot := lots.takeWhile fun l => precedes l.number r

/-- A CONVEYOR STATUS from the PRESENT CONVEYOR at the CUTTER (R82). -/
def cutterTakesConveyor (p : ConveyorPart) (s : State) : State :=
  let c := committedCount s.ring.issued s.openLot.isSome
  if p.resync then { s with ring := { s.ring with resync := true } }
  else if precedes c p.taken || precedes c p.retired then s
  else
    let g := { s.ring with takenHeld := p.taken }
    if precedes g.retiredHeld p.retired then
      let passed := passedLots p.retired g.lots
      { s with ring := { g with
          lots := g.lots.drop passed.length, retiredHeld := p.retired, resync := false
          accountLost := if passed.isEmpty then g.accountLost else g.resync } }
    else { s with ring := { g with resync := false } }

end Sys2Proof.Machine
end

