-- ==== Sys2Proof/Machine/Face.lean ====
section
/-! DEFINITION. The face map orders at the CUTTER (R5 to R17) and the rebinding of tag records (R8). -/

namespace Sys2Proof.Machine

/-- The steps every face map order passes (R9): sender with a bound record, RESTORING, the sequence break of PROTECT,
UNPROTECT and ADVANCE, then the order's own rule over the sender's record. -/
def faceOrder (breaks : Bool) (sender : Station) (rule : Fin 2 → State → AnswerCode × State) (s : State) :
    AnswerCode × State :=
  match s.boundRecord sender with
  | none => (.role, s)
  | some i =>
    if !s.fromCab sender then (.role, s)
    else if s.recovery.state == .restoring then (.state, s)
    else rule i (if breaks then setTagRange i .none s else s)

/-- TAG_FIRST (R10). -/
def tagFirstRule (args : List Byte) (i : Fin 2) (s : State) : AnswerCode × State :=
  match argCell args with
  | some c => (.done, setTagRange i (.first c) s)
  | none => (.range, setTagRange i .none s)

/-- The checks of a last cell against the first (R11). -/
def lastCellFits (a c : Cell) : Bool :=
  decide (cellIndex a ≤ cellIndex c) && (a.row == c.row || (a.col.val == 0 && c.col.val == 31))

/-- TAG_LAST (R11). -/
def tagLastRule (args : List Byte) (i : Fin 2) (s : State) : AnswerCode × State :=
  match (s.face.tags.get i).range, argCell args with
  | .first a, some c =>
    if lastCellFits a c then (.done, setTagRange i (.range a c) s) else (.range, setTagRange i .none s)
  | .first _, none => (.range, setTagRange i .none s)
  | _, _ => (.sequence, setTagRange i .none s)

/-- The cells of a range in one state put in another; cells in other states keep theirs (R12, R13). -/
def changeRange (a b : Cell) (src dst : CellState) (s : State) : State :=
  setRows (fun r cells => cells.mapIdx fun k c =>
    if c == src && inRange a b ⟨Fin.ofNat 32 k, r⟩ then dst else c) s

/-- RELEASE (R12). -/
def releaseRule (i : Fin 2) (s : State) : AnswerCode × State :=
  match (s.face.tags.get i).range with
  | .range a b =>
    if (rangeRows a b).any (fun r => s.zoneProtected (zoneOf r)) then (.zoneProtected, setTagRange i .none s)
    else (.done, setTagRange i .none (changeRange a b .solid .released s))
  | _ => (.sequence, setTagRange i .none s)

/-- WITHDRAW (R13). -/
def withdrawRule (i : Fin 2) (s : State) : AnswerCode × State :=
  match (s.face.tags.get i).range with
  | .range a b => (.done, setTagRange i .none (changeRange a b .released .solid s))
  | _ => (.sequence, setTagRange i .none s)

/-- The head cell lies in a zone while the permit is on: what a PROTECT of that zone makes a breach (R36). -/
def State.headInZone (s : State) (z : Nat) : Bool :=
  s.permitOn && ((s.permit.head.map (fun c => zoneOf c.row == z)).getD false)

/-- PROTECT (R5, R36). -/
def protectRule (args : List Byte) (_ : Fin 2) (s : State) : AnswerCode × State :=
  match argZone args with
  | none => (.range, s)
  | some z =>
    if s.zoneProtected z.val then (.done, s)
    else
      let s' := { s with face := { s.face with temp := s.face.temp ||| BitVec.twoPow 6 z.val } }
      (.done, if s'.headInZone z.val then latchBreach s' else s')

/-- UNPROTECT (R6). -/
def unprotectRule (args : List Byte) (_ : Fin 2) (s : State) : AnswerCode × State :=
  match argZone args with
  | none => (.range, s)
  | some z =>
    if s.image.permZones.getLsbD z.val then (.zoneProtected, s)
    else (.done, { s with face := { s.face with temp := s.face.temp &&& ~~~ BitVec.twoPow 6 z.val } })

/-- Every INSIDE and TRIM cell SOLID, every OUTSIDE cell OUTSIDE (R17, R22). -/
def freshRow (kinds : Tbl CellKind 32) : RowCells := kinds.map fun k => if k == .outside then .outside else .solid

def freshCells (i : Image) : Tbl RowCells 24 := i.kinds.map freshRow

/-- The effects of an executed ADVANCE (R17). -/
def advanceFace (s : State) : State :=
  let s := markAllRows (commitLot { s with
    face := { s.face with advance := s.face.advance + 1, cells := freshCells s.image }
    permit := { s.permit with dwell := 0, reached := false }
    recovery := { s.recovery with restored := false } })
  setTagRange 1 .none (setTagRange 0 .none s)

/-- ADVANCE (R16, R17). -/
def advanceRule (_ : Fin 2) (s : State) : AnswerCode × State :=
  if s.permit.state == .held && !s.inputs.i0 && s.faceComplete then (.done, advanceFace s) else (.state, s)

/-- A record bound to a station that is not a PRESENT CAB becomes unbound and NONE (R8, first step). -/
def unbindTag (i : Fin 2) (s : State) : State :=
  match (s.face.tags.get i).bound with
  | some n => if s.isPresent .cab n then s else setTag i ⟨none, .none⟩ s
  | none => s

/-- A PRESENT CAB without a record is bound to the lowest-numbered unbound record (R8, second step). -/
def bindTag (s : State) (n : Station) : State :=
  if s.isPresent .cab n && (s.boundRecord n).isNone then
    match [(0 : Fin 2), 1].find? (fun i => (s.face.tags.get i).bound.isNone) with
    | some i => setTag i ⟨some n, .none⟩ s
    | none => s
  else s

/-- The rebinding at a claim close (R8); both records count as changed (R166). -/
def rebindTags (s : State) : State := markTags (eight.foldl bindTag (unbindTag 1 (unbindTag 0 s)))

end Sys2Proof.Machine
end

