-- ==== Sys2Proof/Machine/Recovery.lean ====
section
/-! DEFINITION. Map recovery (R174 to R177, R21): the CUTTER's request, buffer, adoption and expiry, and the CAB's send
(R175). -/

namespace Sys2Proof.Machine

def State.withRecovery (s : State) (f : RecoveryUnit → RecoveryUnit) : State := { s with recovery := f s.recovery }

/-- Recovery begins at the first claim close of a CUTTER with recovery enabled (R174). -/
def startRecovery (s : State) : State :=
  if s.cfg.mapRecovery then s.withRecovery fun u => { u with state := .restoring, timer := some Config.recovery }
  else s

/-- A CAB that may be chosen: PRESENT, map complete by its latest STATUS, not refused since (R174). -/
def State.sourceAdvance (s : State) (n : Station) : Option Word16 :=
  if s.isPresent .cab n && !s.recovery.refused.get n then
    match s.cabPart n with
    | some p => if p.mapComplete then some p.mapAdvance else none
    | none => none
  else none

/-- The better of two sources: the later only where its advance number is ahead (R174). DESIGN CHOICE, log entry 52: of
numbers 32768 apart, neither ahead of the other, the lower-numbered CAB is taken. -/
def betterSource (s : State) (best : Option (Station × Word16)) (n : Station) : Option (Station × Word16) :=
  match best, s.sourceAdvance n with
  | none, some a => some (n, a)
  | some (m, b), some a => if precedes b a then some (n, a) else some (m, b)
  | best, none => best

/-- The source chosen among the CABs (R174). -/
def State.chosenSource (s : State) : Option Station := (eight.foldl (betterSource s) none).map (·.1)

/-- A MAP_REQUEST placed in the ORDER slot, replacing a waiting one (R174, R135). -/
def placeRequest (n : Station) (s : State) : State :=
  let k := s.recovery.counter + 1
  { s with
    recovery := { s.recovery with counter := k, source := some n, request := some { source := n, number := k, timer := none } }
    line := { s.line with order := some { target := n, number := k, kind := .mapRequest, args := [] } } }

/-- A request whose source is not PRESENT ceases to be outstanding (R174). -/
def dropRequest (s : State) : State :=
  match s.recovery.request with
  | some r => if s.isPresent .cab r.source then s else s.withRecovery fun u => { u with request := none }
  | none => s

/-- The choice of a source while RESTORING with no request outstanding (R174). -/
def requestSync (s : State) : State :=
  if s.isRole .cutter && s.recovery.state == .restoring then
    let s := dropRequest s
    match s.recovery.request, s.chosenSource with
    | none, some n => placeRequest n s
    | _, _ => s
  else s

/-- Recovery ends (R176, R177): time and request discarded, buffer emptied, a MAP_REQUEST waiting in the ORDER slot
removed. -/
def endRecovery (st : RecoveryState) (s : State) : State :=
  { s with
    recovery := { s.recovery with state := st, timer := none, request := none, buffer := .fill 24 none }
    line := { s.line with order := none } }

/-- The state an adopted code gives a cell of a kind (R21). -/
def adoptedCell (k : CellKind) (c : CellState) : CellState :=
  if k == .outside then .outside else if c == .outside then .solid else c

/-- A row of the map from an adopted row. -/
def adoptedRow (kinds : Tbl CellKind 32) (r : RowEntry) : RowCells :=
  kinds.mapIdx fun k kind => adoptedCell kind (r.cells.get (Fin.ofNat 32 k))

/-- A buffer of 24 rows with one advance number is adopted (R176, R21). -/
def adoptMap (a : Word16) (s : State) : State :=
  let cells := Tbl.ofIdx 24 fun r =>
    match s.recovery.buffer.get (Fin.ofNat 24 r) with
    | some e => adoptedRow (s.image.kinds.get (Fin.ofNat 24 r)) e
    | none => s.face.cells.get (Fin.ofNat 24 r)
  let s := endRecovery .none { s with face := { s.face with cells := cells, advance := a } }
  markAllRows (s.withRecovery fun u => { u with adopted := true, restored := true })

/-- The 3R of an outstanding request starts again (R174). -/
def restartRequest (s : State) : State :=
  s.withRecovery fun u => { u with request := u.request.map fun r => { r with timer := some (silenceTime s) } }

/-- A MAP frame taken from the source while RESTORING (R176). DESIGN CHOICE, log entry 39: a row byte of 24 to 255 names no
row; the frame is disregarded and the request's 3R is not restarted. -/
def takeMapRow (sender : Station) (e : RowEntry) (s : State) : State :=
  if s.isRole .cutter && s.recovery.state == .restoring && s.recovery.source == some sender then
    match rowOfByte e.row with
    | none => s
    | some r =>
      let s := restartRequest (s.withRecovery fun u => { u with buffer := u.buffer.set r (some e) })
      match sameAdvance s.recovery.buffer with
      | some a => adoptMap a s
      | none => s
  else s

/-- An ANSWER for the CUTTER (R174): DONE from the source keeps the request waiting for rows; any other code ends it, and
STATE shuts the CAB out until its STATUS shows map complete again. -/
def takeRequestAnswer (sender : Station) (a : AnswerEntry) (s : State) : State :=
  match s.recovery.request with
  | some r =>
    if r.source = sender && r.number == a.number then
      if a.code == AnswerCode.done.code then restartRequest s
      else s.withRecovery fun u =>
        { u with request := none
                 refused := if a.code == AnswerCode.state.code then u.refused.set sender true else u.refused }
    else s
  | none => s

/-- A CAB's STATUS at the CUTTER: a CAB that shows map complete may be chosen again (R174). -/
def cutterTakesCab (sender : Station) (p : CabPart) (s : State) : State :=
  if p.mapComplete then s.withRecovery fun u => { u with refused := u.refused.set sender false } else s

/-- MAP_REQUEST_TIMEOUT (R174): acts while the request's time runs. -/
def requestTimesOut (s : State) : State :=
  match s.recovery.request with
  | some r => if r.timer.isSome then s.withRecovery fun u => { u with request := none } else s
  | none => s

/-- The recovery time expires while RESTORING (R177). -/
def recoveryExpires (s : State) : State :=
  if s.recovery.state == .restoring then markAllRows (endRecovery .lost s) else s

/-- The CUTTER's MAP_REQUEST has been sent whole: its 3R start, unless they run from a MAP frame that the source sent while
the request waited (R174). -/
def requestSent (o : OrderFrame) (s : State) : State :=
  match s.recovery.request with
  | some r => if r.number = o.number && r.source = o.target && r.timer.isNone then restartRequest s else s
  | none => s

/-! ## The CAB's side (R175) -/

/-- The MAP frame for the next row of the send copy placed in the slot. -/
def placeMapFrame (s : State) : State :=
  match s.cabMap.send with
  | some c =>
    if h : c.next < 24 then
      { s with line := { s.line with map := some (c.rows.get ⟨c.next, h⟩) }
               cabMap := { s.cabMap with send := some { c with next := c.next + 1 } } }
    else { s with cabMap := { s.cabMap with send := none } }
  | none => s

/-- MAP_REQUEST at a CAB (R175). -/
def mapRequestOrder (sender : Station) (s : State) : AnswerCode × State :=
  if !s.isPresent .cutter sender then (.role, s)
  else
    match s.mapComplete with
    | none => (.state, s)
    | some a =>
      let blank : RowEntry := { row := 0, advance := a, cells := .fill 32 .outside }
      (.done, placeMapFrame { s with cabMap := { s.cabMap with
        send := some { rows := s.cabMap.rows.map (fun r => r.getD blank), next := 0 } } })

end Sys2Proof.Machine
end

