-- ==== Sys2Proof/Machine/Cab.lean ====
section
/-! DEFINITION. The CAB's display list, first-out record, horn and vigilance (R101 to R113). -/

namespace Sys2Proof.Machine

def State.withCab (s : State) (f : CabUnit → CabUnit) : State := { s with cab := f s.cab }

/-! ## Display list -/

/-- The NOTICE entries of a station's slots as the CAB sees them, its own queue in raise order (log entry 19). -/
def State.slotEntries (s : State) (n : Station) : List NoticeEntry :=
  if n = s.station then s.notices.order.filterMap fun i => (s.notices.slots.get i).map (·.entry i)
  else if s.counted n then (s.replica n).slots.toList.filterMap id
  else []

/-- The candidates now (R101), by station. -/
def State.candidatesNow (s : State) : List Cand :=
  eight.flatMap fun n => (s.slotEntries n).map fun e => { owner := n, entry := e }

/-- The same candidate: one owner's slot with one code. -/
def Cand.same (a b : Cand) : Bool := a.owner == b.owner && a.entry.slot == b.entry.slot && a.entry.code == b.entry.code

/-- The candidates by arrival: those that stay keep theirs with their present content, new ones arrive last (R101). -/
def arrivals (old now : List Cand) : List Cand :=
  old.filterMap (fun c => now.find? (·.same c)) ++ now.filter (fun c => !old.any (·.same c))

/-- The display group of an entry: class, then unacknowledged before acknowledged (R102). -/
def inGroup (cls : BitVec 2) (acked : Bool) (c : Cand) : Bool :=
  c.entry.cls == cls && (c.entry.state == NoticeState.acked.code) == acked

/-- The candidates in the order of R102; within a group they keep their order of arrival. -/
def displayOrder (cands : List Cand) : List Cand :=
  [(0 : BitVec 2), 1, 2, 3].flatMap fun cls => [false, true].flatMap fun a => cands.filter (inGroup cls a)

/-- The first 32 in that order. -/
def displayList (cands : List Cand) : List Cand := (displayOrder cands).take 32

/-- The TRIP entries that enter the list, or are renewed in it, between two lists (R105, R106). -/
def tripEvents (old new : List Cand) : List Cand :=
  new.filter fun c => c.entry.cls == NoticeClass.trip.code &&
    !old.any fun o => o.same c && o.entry.raise == c.entry.raise

/-- The display list recomputed (R103), with the horn (R105) and the first-out capture (R106). -/
def displaySync (s : State) : State :=
  if s.isRole .cab then
    let cands := arrivals s.cab.cands s.candidatesNow
    let list := displayList cands
    let events := tripEvents s.cab.list list
    s.withCab fun u =>
      { u with
        cands := cands, list := list
        horn := if events.isEmpty then u.horn else some Config.horn
        firstOut := match u.firstOut, events with
          | none, c :: _ => some { owner := c.owner, code := c.entry.code, raise := c.entry.raise }
          | f, _ => f }
  else s

/-- The candidate with the first-out record's owner and code. -/
def State.firstOutCand (s : State) (f : FirstOut) : Option Cand :=
  s.cab.cands.find? fun c => c.owner == f.owner && c.entry.code == f.code

/-- The first-out clear (R107): refused while the captured entry is ACTIVE. -/
def clearFirstOut (s : State) : State :=
  match s.cab.firstOut with
  | none => s
  | some f =>
    if (s.firstOutCand f).map (·.entry.state) == some NoticeState.active.code then
      { s with panel := { s.panel with status := .active } }
    else s.withCab fun u => { u with firstOut := none }

/-! ## Vigilance -/

/-- RUNNING with the period time from 0 (R109); `period` is what is left of V. -/
def vigRun (s : State) : State :=
  s.withCab fun u =>
    { u with vig := .running, period := some (sec s.image.vigilance), grace := none, superseded := false }

/-- IDLE, no time running. -/
def vigIdle (s : State) : State :=
  s.withCab fun u => { u with vig := .idle, period := none, grace := none, superseded := false }

/-- A change of the vigilance CAB standing (R108, R111). -/
def changeStanding (now : Bool) (s : State) : State :=
  let s := s.withCab fun u => { u with standing := now, pair := none, demand := s.demandShown }
  if now && s.cab.demand then vigRun s else vigIdle s

/-- A demand change at the CAB (R109, R110). -/
def vigDemand (s : State) : State :=
  let d := s.demandShown
  if d = s.cab.demand then s
  else
    let s := s.withCab fun u => { u with demand := d }
    if !s.cab.standing then s
    else
      match s.cab.vig, d with
      | .idle, true => vigRun s
      | .running, false | .warned, false => vigIdle s
      | _, _ => s

/-- Standing and demand as the roster and the shared picture now give them. -/
def vigSync (s : State) : State :=
  if s.isRole .cab then
    if s.isVigilanceCab = s.cab.standing then vigDemand s else changeStanding s.isVigilanceCab s
  else s

/-- The keyed pair (R109, R110, R111). A running period that it restarts is superseded: its expiry, where it comes at the
same moment, is not that of the new one (R112). -/
def keyedPair (s : State) : State :=
  if !s.cab.standing then s
  else
    match s.cab.vig with
    | .idle => s
    | .running => (vigRun s).withCab fun u => { u with superseded := true }
    | .warned => vigRun s
    | .lapsed => if s.demandShown then vigRun s else vigIdle s

/-- VIGIL_A (R111). -/
def vigilA (s : State) : State :=
  s.withCab fun u => { u with pair := if u.pair.isSome then none else some Config.vigilPair }

/-- VIGIL_B (R111). -/
def vigilB (s : State) : State :=
  if s.cab.pair.isSome then keyedPair (s.withCab fun u => { u with pair := none }) else s

/-- The period time reaches V (R109). The expiry of a period that a keyed pair has restarted at this moment gives no
warning (R112). -/
def vigWarns (s : State) : State :=
  if s.isRole .cab && s.cab.superseded then s.withCab fun u => { u with superseded := false }
  else if s.isRole .cab && s.cab.vig == .running then
    s.withCab fun u => { u with vig := .warned, period := none, grace := some Config.grace }
  else s

/-- The grace time expires (R109, R110). -/
def vigLapses (s : State) : State :=
  if s.isRole .cab && s.cab.vig == .warned then s.withCab fun u => { u with vig := .lapsed, grace := none } else s

/-- The 3 s horn time ends (R105). -/
def hornEnds (s : State) : State := if s.isRole .cab then s.withCab fun u => { u with horn := none } else s

/-- The 2 s of a half-taken pair expire (R111). -/
def pairExpires (s : State) : State := if s.isRole .cab then s.withCab fun u => { u with pair := none } else s

end Sys2Proof.Machine
end

