-- ==== Sys2Proof/Machine/Panel.lean ====
section
/-! DEFINITION. The panel unit's state (R114 to R125): snapshot, offers, composing orders, the pending order table. -/

namespace Sys2Proof.Machine

def State.withPanel (s : State) (f : PanelUnit → PanelUnit) : State := { s with panel := f s.panel }

def showStatus (l : StatusLine) (s : State) : State := s.withPanel fun u => { u with status := l }

/-! ## The NOTICES snapshot (R119) -/

def snapLine (c : Cand) : SnapLine :=
  { owner := c.owner, code := c.entry.code, slot := c.entry.slot, cls := c.entry.cls, raise := c.entry.raise,
    state := c.entry.state }

/-- The place of an owner and code in a snapshot. -/
def snapIndex (l : List SnapLine) (o : SnapLine) : Option Nat :=
  l.findIdx? fun x => x.owner == o.owner && x.code == o.code

/-- The snapshot taken again: the selection stays on its line, else at its index, reduced to the last line. -/
def takeSnapshot (s : State) : State :=
  let lines := s.cab.list.map snapLine
  let selection :=
    match (s.panel.snapshot[s.panel.selection]?).bind (snapIndex lines) with
    | some i => i
    | none => min s.panel.selection (lines.length - 1)
  s.withPanel fun u => { u with snapshot := lines, selection := selection }

/-! ## Offers (R120, R121) -/

/-- The LINE offer: RELINK while the selected station is SILENT. -/
def State.lineOffer (s : State) : List OrderKind :=
  .clearFault :: (if s.entryState s.panel.lineSelection == some .silent then [.relink] else [])

/-- The offer of the page, where it has one. -/
def State.pageOffer (s : State) : Option (List OrderKind) :=
  match s.panel.page with
  | .dust => some [.washNow, .scrubReset]
  | .spoil => some [.conveyOn, .conveyOff, .conveyReset]
  | .line => some s.lineOffer
  | _ => none

/-- RELINK in an open LINE offer is judged again as the selected station's roster state stands (R121). -/
def offerSync (s : State) : State :=
  match s.panel.offer with
  | some o =>
    if s.isRole .cab && s.panel.page == .line then
      let kinds := s.lineOffer
      s.withPanel fun u => { u with offer := some { kinds := kinds, chosen := if o.chosen < kinds.length then o.chosen else 0 } }
    else s
  | none => s

def closeOffer (s : State) : State := s.withPanel fun u => { u with offer := none }

/-! ## Composing an order (R115, R116) -/

/-- The target of a kind other than ACK, CLEAR_FAULT and RELINK: the PRESENT station of the role that takes it. -/
def State.kindTarget (s : State) : OrderKind → Option Station
  | .washNow | .scrubReset => s.presentOf .scrubber
  | .conveyOn | .conveyOff | .conveyReset => s.presentOf .conveyor
  | .clearFault | .relink => some s.panel.lineSelection
  | _ => s.presentOf .cutter

/-- An ACK or CLEAR_FAULT executed at the CAB itself (R116 step 1, R98, R146). -/
def executeOwn (kind : OrderKind) (args : List Byte) (s : State) : State :=
  let (a, s') := match kind with
    | .ack => ackNotice (argByte args 0) (argByte args 1) s
    | _ => (AnswerCode.done, { s with line := { s.line with record := none } })
  s'.withPanel fun u => { u with status := .answer kind s.station a.code, answerMissing := false }

/-- The checks of R116 in turn; the flag says whether the order was entered in the table. -/
def composeOrder (kind : OrderKind) (target : Option Station) (args : List Byte) (s : State) : Bool × State :=
  if target == some s.station && (kind == .ack || kind == .clearFault) then (false, executeOwn kind args s)
  else
    match target.filter fun n => s.entryState n == some (if kind == .relink then RosterState.silent else .present) with
    | none => (false, showStatus .noStation s)
    | some n =>
      if 4 ≤ s.panel.orders.length then (false, showStatus .busy s)
      else
        let k := s.panel.counter + 1
        (true, s.withPanel fun u =>
          { u with counter := k, orders := u.orders ++ [{ number := k, target := n, kind := kind, args := args, sent := none }] })

/-- A FACE key that composes an order and, when it is entered, sets the tag step (R118). -/
def composeTag (kind : OrderKind) (args : List Byte) (step : Bool) (s : State) : State :=
  let (entered, s') := composeOrder kind (s.presentOf .cutter) args s
  if entered then s'.withPanel fun u => { u with tagFirst := step } else s'

/-- An order of an offer, or an ACK: no tag step. -/
def composePlain (kind : OrderKind) (target : Option Station) (args : List Byte) (s : State) : State :=
  (composeOrder kind target args s).2

/-! ## The pending order table (R123 to R125) -/

/-- The oldest WAITING entry handed to the empty ORDER slot (R123). -/
def fillOrderSlot (s : State) : State :=
  if s.isRole .cab && s.line.order.isNone then
    match s.panel.orders.find? (·.sent.isNone) with
    | some p =>
      { s with line := { s.line with
          order := some { target := p.target, number := p.number, kind := p.kind, args := p.args } } }
    | none => s
  else s

/-- The ORDER frame of a WAITING entry has been sent whole (R123). -/
def pendingSent (o : OrderFrame) (s : State) : State :=
  s.withPanel fun u => { u with orders := u.orders.map fun p =>
    if p.number == o.number && p.target == o.target && p.sent.isNone then
      { p with sent := some { elapsed := 0, limit := silenceTime s } }
    else p }

/-- An ANSWER for this CAB matched to its SENT entry (R124). -/
def takePanelAnswer (sender : Station) (a : AnswerEntry) (s : State) : State :=
  match s.panel.orders.find? fun p => p.number == a.number && p.target == sender && p.sent.isSome with
  | some p =>
    s.withPanel fun u =>
      { u with
        orders := u.orders.filter fun q => !(q.number == p.number && q.target == p.target)
        status := .answer p.kind p.target a.code, answerMissing := false
        tagFirst := if p.kind == .tagFirst && a.code != AnswerCode.done.code then false else u.tagFirst }
  | none => s

/-- A SENT entry's limit passes (R125). -/
def pendingTimesOut (number : Byte) (s : State) : State :=
  match s.panel.orders.find? fun p => p.number == number && p.sent.isSome with
  | some p =>
    if s.isRole .cab then
      s.withPanel fun u =>
        { u with orders := u.orders.filter fun q => !(q.number == number && q.sent.isSome)
                 status := .noAnswer p.kind p.target, answerMissing := true }
    else s
  | none => s

/-! ## Up and down (R127, R188) -/

/-- The panel goes down: ready clears, an open offer closes, the half-taken pair is cleared. -/
def panelDown (s : State) : State :=
  setReady false { s with panel := { s.panel with up := false, offer := none }
                          cab := { s.cab with pair := none } }

/-- A report taken: the missing count returns to 0 and the panel is up. -/
def panelUp (s : State) : State :=
  setReady true (s.withPanel fun u =>
    { u with up := true, missing := 0, keyWait := none, clocking := false, replied := some u.drawn })

/-- A reply is missing: the third in a row takes the panel down. -/
def replyMissing (s : State) : State :=
  let s := s.withPanel fun u => { u with missing := min 3 (u.missing + 1), keyWait := none, clocking := false }
  if 3 ≤ s.panel.missing && s.panel.up then panelDown s else s

end Sys2Proof.Machine
end

