-- ==== Sys2Proof/Machine/Publish.lean ====
section
/-! DEFINITION. The publication unit (R162 to R167): composing a STATE frame, early STATES, the marks, and the begin of
a frame on the line (R132, R135). -/

namespace Sys2Proof.Machine

/-- Entries of one category added while the payload stays within 64 bytes; the first that does not fit ends the
category (R165). -/
def addEntries : List Entry → List Entry → List Entry
  | acc, [] => acc
  | acc, e :: rest =>
    if (acc.map Entry.length).sum + e.length ≤ 64 then addEntries (acc ++ [e]) rest else acc

/-- The slot's notice as an entry of the frame. -/
def State.noticeAt (s : State) (i : Fin 8) : Option Entry := (s.notices.slots.get i).map fun n => .notice (n.entry i)

/-- NOTICE entries of slots marked changed, lowest first. -/
def State.changedNotices (s : State) : List Entry :=
  (eight.filter fun i => (s.notices.marks.get i).isSome).filterMap s.noticeAt

/-- The line and lot categories 3 to 5 of R165 and changed rows, for the roles that own them. -/
def State.lotEntries (s : State) : List Entry := if s.isRole .cutter then s.owedLots.map fun l => .lot l.entry else []
def State.retireEntries (s : State) : List Entry := if s.isRole .conveyor then s.conv.retires.map .retire else []

def State.tagEntries (s : State) : List Entry :=
  if s.isRole .cutter then
    ([(0 : Fin 2), 1].filter fun i => (s.pub.tagMarks.get i).isSome).map fun i =>
      .tag ((s.face.tags.get i).entry (i.val == 1))
  else []

/-- Rows are carried by a CUTTER that is not RESTORING (R19). -/
def State.carriesRows (s : State) : Bool := s.isRole .cutter && s.recovery.state != .restoring

def State.changedRows (s : State) : List Entry :=
  if s.carriesRows then (rows24.filter fun r => (s.pub.rowMarks.get r).isSome).map fun r => .row (s.rowEntry r) else []

/-- The next place in a rolling index. -/
def nextIndex {n : Nat} [NeZero n] (i : Fin n) : Fin n := Fin.ofNat n (i.val + 1)

/-- The rolling ROW (R166): carried unless the row is in the frame already; the index moves on unless the row does not
fit (log entry 23). -/
def rollRow (s : State) (acc : List Entry) : List Entry × Fin 24 :=
  let e : Entry := .row (s.rowEntry s.pub.rollRow)
  if !s.carriesRows then (acc, s.pub.rollRow)
  else if acc.contains e then (acc, nextIndex s.pub.rollRow)
  else
    let acc' := addEntries acc [e]
    (acc', if acc'.length = acc.length then s.pub.rollRow else nextIndex s.pub.rollRow)

/-- The slots in order from an index, wrapping. -/
def slotsFrom (i : Fin 8) : List (Fin 8) := eight.map fun k => i + k

/-- The rolling NOTICE (R166): the first occupied slot at or after the index that is not in the frame. -/
def rollSlot (s : State) (acc : List Entry) : List Entry × Fin 8 :=
  match (slotsFrom s.pub.rollSlot).find? fun i => ((s.noticeAt i).map fun e => !acc.contains e).getD false with
  | some i =>
    let acc' := addEntries acc (s.noticeAt i).toList
    (acc', if acc'.length = acc.length then s.pub.rollSlot else i + 1)
  | none => (acc, s.pub.rollSlot)

/-- The entries of a build with the rolling indexes after it (R165). -/
def composeState (s : State) : List Entry × Fin 24 × Fin 8 :=
  let acc := [Entry.status s.ownStatus]
  let acc := addEntries acc (s.pub.answers.map .answer)
  let acc := addEntries acc s.changedNotices
  let acc := addEntries acc s.lotEntries
  let acc := addEntries acc s.retireEntries
  let acc := addEntries acc s.tagEntries
  let acc := addEntries acc s.changedRows
  let (acc, row) := rollRow s acc
  let (acc, slot) := rollSlot s acc
  (addEntries acc [.fault s.faultEntry], row, slot)

/-- A STATE frame built with current content and placed in the slot, or rebuilt in place (R162, R163). -/
def buildState (s : State) : State :=
  let (entries, row, slot) := composeState s
  { s with
    line := { s.line with stateSlot := some { entries := entries, build := s.pub.builds + 1 } }
    pub := { s.pub with builds := s.pub.builds + 1, rollRow := row, rollSlot := slot, early := false } }

/-- R in ticks. -/
def State.period (s : State) : Ticks := tenMs s.claim.r

/-- R/4 has passed since the last STATE sent whole, or none has been sent (R163). -/
def State.earlyMay (s : State) : Bool :=
  match s.pub.sinceSent with
  | some t => decide (s.period / 4 ≤ t)
  | none => true

/-- An early request (R163): a waiting frame is rebuilt; otherwise, while the publication timer runs, a frame is placed
now or at R/4. -/
def requestEarly (running : Bool) (s : State) : State :=
  if s.line.stateSlot.isSome then buildState s
  else if !running then s
  else if s.earlyMay then buildState s
  else { s with pub := { s.pub with early := true } }

/-- A change of an early STATUS field, or an answer that has entered the queue, since `pre` (R163, R167). -/
def earlyDue (pre s : State) : Bool :=
  s.ownStatus.early != pre.ownStatus.early || pre.pub.answers.length < s.pub.answers.length

/-- An event within a command has changed an early field since `pre`: the request stands until the command's end. -/
def noteEarly (pre s : State) : State :=
  if earlyDue pre s then { s with pub := { s.pub with asked := true } } else s

/-- The early request of a command, asked for by any of its events. A request taken while the publication timer does not
run places no frame: it must run before and after the event (log entry 11). -/
def earlySync (pre s : State) : State :=
  let t := { s with pub := { s.pub with asked := false } }
  if earlyDue pre s || s.pub.asked then requestEarly (pre.pub.timer.isSome && s.pub.timer.isSome) t else t

/-- EARLY_STATE_PLACE: an early STATE waiting for its R/4 is placed (R163). -/
def placeEarly (s : State) : State :=
  if s.pub.early && s.pub.timer.isSome && s.line.stateSlot.isNone then buildState s else s

/-- The publication timer expires (R162, R164). -/
def publicationExpires (s : State) : State :=
  if s.pub.timer.isSome then
    let late := if s.line.stateSlot.isSome then min 255 (s.pub.late + 1) else s.pub.late
    buildState { s with pub := { s.pub with timer := some s.period, late := late } }
  else s

/-- A mark cleared by a frame that carries its item, unless the item has changed since the frame was built (R166). -/
def clearMark (build : Nat) (m : Option Nat) : Option Nat := if m.any (· < build) then none else m

/-- What a STATE frame sent whole clears for one entry it carried (R87, R166). -/
def entrySent (build : Nat) (s : State) : Entry → State
  | .notice n =>
    match slotOfByte n.slot with
    | some i => s.withNotices fun q => { q with marks := q.marks.set i (clearMark build (q.marks.get i)) }
    | none => s
  | .tag t =>
    let i : Fin 2 := if t.record then 1 else 0
    { s with pub := { s.pub with tagMarks := s.pub.tagMarks.set i (clearMark build (s.pub.tagMarks.get i)) } }
  | .row r =>
    match rowOfByte r.row with
    | some i => { s with pub := { s.pub with rowMarks := s.pub.rowMarks.set i (clearMark build (s.pub.rowMarks.get i)) } }
    | none => s
  | .retire r => s.withConv fun u => { u with retires := u.retires.erase r }
  | _ => s

def Entry.isAnswer : Entry → Bool
  | .answer _ => true
  | _ => false

/-- The publication unit's part of a STATE frame sent whole (R162, R164, R166, R171). DESIGN CHOICE, log entry 51: the late
count becomes 0 also where the publication timer does not run. -/
def stateSent (f : StateFrame) (s : State) : State :=
  let answers := s.pub.answers.drop (f.entries.filter Entry.isAnswer).length
  f.entries.foldl (entrySent f.build)
    { s with pub := { s.pub with
        timer := s.pub.timer.map fun _ => s.period, late := 0, sinceSent := some 0, answers := answers
        dropped := s.pub.dropped && !answers.isEmpty } }

/-! ## The begin of a frame (R132, R135) -/

/-- The waiting frame of lowest class value. -/
def State.waitingFrame (s : State) : Option OutFrame :=
  match s.line.trip, s.line.claim, s.line.order, s.line.map, s.line.stateSlot with
  | n :: _, _, _, _, _ => some (.trip n)
  | [], some c, _, _, _ => some (.claim c)
  | [], none, some o, _, _ => some (.order o)
  | [], none, none, some r, _ => some (.map r)
  | [], none, none, none, some f => some (.state f)
  | [], none, none, none, none => none

/-- The station may drive the line (R129). -/
def State.drives (s : State) : Bool :=
  s.line.state == .claiming || s.line.state == .run || s.line.state == .quiet

/-- The station waits the 8 further bit times (R132). -/
def State.yields (s : State) : Bool :=
  s.line.state == .quiet || (s.line.state == .claiming && (128 ≤ s.line.sfc || 128 ≤ s.line.hfc))

/-- The recessive stretch is long enough for this station to begin. -/
def State.mayBegin (s : State) : Bool :=
  s.drives && s.line.sending.isNone && (s.line.bus == .gap20 || (s.line.bus == .gap12 && !s.yields))

/-- A waiting frame is begun when the line allows it. -/
def beginFrame (s : State) : State :=
  if s.mayBegin then
    match s.waitingFrame with
    | some f => { s with line := { s.line with sending := some f, bus := .busy } }
    | none => s
  else s

end Sys2Proof.Machine
end

