-- ==== Sys2Proof/Machine/Sync.lean ====
section
/-! DEFINITION. What follows every event (R34, R93, R103, R163): the units follow what they read, the notices are judged,
the permit is evaluated, the display list is recomputed, and the line is served. Every command ends in `event`. -/

namespace Sys2Proof.Machine

/-- The sequencers and the vigilance check follow their inputs and the shared picture. -/
def unitSync (s : State) : State := offerSync (vigSync (convSync (scrubSync s)))

/-- The units, the notices, the permit, the map request and the display list, in this order (log entry 12). Doing it
again changes nothing further. -/
def sync (s : State) : State := displaySync (requestSync (permitSync (judgeNotices (unitSync s))))

/-- One of several events that a command brings, with what follows it at once: a key of a report, an entry of a STATE frame
(R126, R168). A change of an early field asks for an early STATE even where a later event undoes it (R163). -/
def subEvent (f : State → State) (s : State) : State := noteEarly s (sync (f s))

/-- One of the evaluation events of R34 has happened since `pre`: what the permit reads has changed. DESIGN CHOICE, log
entry 43: of the CUTTER's own queue a change of the slots is such an event, a change of the overflow flag or of the waiting
set alone is none. DESIGN CHOICE, log entry 67: of the shared picture every change is one, those R34's table does not name
included (a record discarded by a joining mark, a STATUS of a second CUTTER, a TAG or FAULT record). The STATUS entries R34
names are events when taken, changed or not (`takeStatus`, log entry 66). -/
def evaluationDue (pre s : State) : Bool :=
  pre.line.state != s.line.state || pre.inputs.i0 != s.inputs.i0 || pre.permit.fresh != s.permit.fresh ||
    pre.recovery.state != s.recovery.state || pre.face.temp != s.face.temp ||
    (pre.dust.remaining == 0) != (s.dust.remaining == 0) || pre.ring.lots != s.ring.lots ||
    pre.face.cells != s.face.cells || pre.notices.slots != s.notices.slots || pre.replicas != s.replicas ||
    pre.claim.roster.map (Option.map (·.state)) != s.claim.roster.map (Option.map (·.state))

/-- The further attempt to raise "PROFILE BREACH" at an evaluation event (R37). DESIGN CHOICE, log entry 69: it comes after the
clears, refills and raises of the event. -/
def retrySync (pre s : State) : State :=
  if s.isRole .cutter && s.breachWaits && evaluationDue pre s then sync (retryBreach s) else s

/-- The end of an event at a live station: everything follows, then the ORDER slot, the early STATE and the line. -/
def settle (pre s : State) : State := beginFrame (earlySync pre (fillOrderSlot (retrySync pre (sync s))))

/-! ## Times started afresh

Where an event and the expiry of a time that the event starts afresh fall together and the event is taken first, the time
does not expire (R150, R151, R156, R184, R187): the expiry, taken next, is that of the time discarded. -/

/-- The counted times an event can start afresh. -/
def restartable : List Instr :=
  [.claimWindowExpiry, .lineSilenceWatchExpiry] ++ eight.map .silenceTimerExpiry ++ sixteen.map .valueStale

/-- What is left of the time whose expiry a command reports, while it runs. -/
def State.timeLeft (s : State) : Instr → Option Ticks
  | .claimWindowExpiry => s.claim.window
  | .lineSilenceWatchExpiry => s.claim.watch
  | .silenceTimerExpiry n => (s.entry n).bind (·.silence)
  | .valueStale e =>
    let c := s.sensor.channels.get e
    if c.value.isSome && !c.stale then some (s.staleAge e - c.age) else none
  | _ => none

/-- A character of a frame in assembly has been taken and the frame goes on: its gap limit, which no tick counts (log entry
7), starts afresh (R184). -/
def frameGoesOn (pre s : State) : Bool :=
  pre.sensor.assembly != .hunt && s.sensor.assembly != .hunt && pre.sensor.assembly != s.sensor.assembly

/-- The times that ran before an event and have more left after it. -/
def restartedSince (pre s : State) : List Instr :=
  (if frameGoesOn pre s then [.gapLimitExpiry] else []) ++ restartable.filter fun c => match pre.timeLeft c, s.timeLeft c with
    | some a, some b => decide (a < b)
    | _, _ => false

/-- The times an event has started afresh noted, until the next tick. -/
def noteRestarted (pre s : State) : State := { s with restarted := s.restarted ∪ restartedSince pre s }

/-- An expiry's act, unless its time has been started afresh at this moment: then nothing, once. -/
def unlessRestarted (c : Instr) (act : State → State) (s : State) : State :=
  if c ∈ s.restarted then { s with restarted := s.restarted.filter (· != c) } else act s

/-- The STATUS output follows the line state: a new code starts with the 1 s pause (R195). -/
def statusSync (s : State) : State :=
  if s.statusCode = s.status.code then s
  else { s with status := { code := s.statusCode, phase := .pause, timer := some Config.statusPause } }

/-- The end of any event. -/
def finish (pre s : State) : State := statusSync (if s.live then noteRestarted pre (settle pre s) else s)

/-- An event that acts while the blocks run: in START and INACTIVE it changes nothing (R191, R142; log entry 8). -/
def event (f : State → State) (s : State) : Host.Outcome State Fault Refusal :=
  .next (if s.live then finish s (f s) else s)

end Sys2Proof.Machine
end

