-- ==== Sys2Proof/Machine/Claim.lean ====
section
/-! DEFINITION. The claim and roster unit (R148 to R160): entering a claim, the candidate, the assessment, the close, the
joining mark, the withdrawn roster. -/

namespace Sys2Proof.Machine

def State.withClaim (s : State) (f : ClaimUnit → ClaimUnit) : State := { s with claim := f s.claim }

/-- The station's role code; 0 before the image is loaded. -/
def State.roleByte (s : State) : Byte := (s.role.map Role.code).getD 0

/-- The station's own CLAIM (R148). -/
def ownClaim (s : State) : ClaimFrame :=
  { role := s.roleByte, serial := s.serial, signature := s.image.signature, bid := BitVec.ofNat 8 s.cfg.bid,
    joining := s.claim.joining, ready := s.sensor.ready }

/-- A CLAIM as a candidate entry (R148). -/
def candOf (c : ClaimFrame) : CandEntry :=
  { role := c.role, serial := c.serial, signature := c.signature, bid := readBid c.bid, ready := c.ready }

/-- The own CLAIM built and placed in the CLAIM slot, replacing a waiting one (R148). DESIGN CHOICE, log entry 47: the own
candidate entry keeps the claimed ready of the CLAIM built at the entry to CLAIMING (R149), also where a CLAIM built again
carries another ready flag (R155). -/
def queueClaim (s : State) : State := { s with line := { s.line with claim := some (ownClaim s) } }

/-- The claim window started, or started afresh (R151). -/
def startWindow (s : State) : State := s.withClaim fun u => { u with window := some Config.claimWindow }

/-- A CLAIM acting on the candidate (R152). -/
def enterCandidate (sender : Station) (c : ClaimFrame) (s : State) : State :=
  match s.claim.candidate with
  | none => s
  | some cand =>
    let keep := match cand.get sender with
      | some e => e.serial != c.serial && decide (claimValue e.role e.serial ≤ claimValue c.role c.serial)
      | none => false
    if keep then s else s.withClaim fun u => { u with candidate := some (cand.set sender (some (candOf c))) }

/-- Entry to CLAIMING (R149, R80, R90), with the CLAIM that caused it, if one did. DESIGN CHOICE, log entry 54: the open lot
is committed at every entry, as R80 and R90 say, where the example of a conveyor restart in chapter 04 leaves it open. -/
def enterClaim (cause : Option (Station × ClaimFrame)) (s : State) : State :=
  let s := commitLot { s with line := { s.line with state := .claiming } }
  let s := s.withClaim fun u =>
    { u with candidate := some ((Tbl.fill 8 none).set s.station (some (candOf (ownClaim s)))), watch := none,
             ownSent := false }
  let s := match cause with
    | some (n, c) => enterCandidate n c s
    | none => s
  startWindow (queueClaim s)

/-- Rejoin after withdrawal (R143, R144): both counts 0, no gap count, a claim without the joining mark, also where no
claim has closed yet (log entry 33). -/
def rejoin (s : State) : State :=
  enterClaim none { s with
    line := { s.line with sfc := 0, hfc := 0, idleGaps := none }, claim := { s.claim with joining := false } }

/-! ## The assessment (R154) -/

/-- The FOREIGN test: signature, role value, and the role the own image gives the station number. -/
def isForeign (i : Image) (n : Station) (role : Byte) (signature : Word16) : Bool :=
  signature != i.signature || (Role.ofCode role).isNone || Role.ofCode role != (i.stations.get n).role

/-- The entries of a role that may be PRESENT. -/
def Role.places : Role → Nat
  | .cab => 2
  | _ => 1

/-- The roster state of the entry of station `n`, among entries given as role and signature. -/
def assess (i : Image) (entries : Station → Option (Byte × Word16)) (n : Station) (role : Byte) (signature : Word16) :
    RosterState :=
  if isForeign i n role signature then .foreign
  else
    let lower := eight.filter fun m => decide (m.val < n.val) &&
      match entries m with
      | some (r, g) => r == role && !isForeign i m r g
      | none => false
    if lower.length < ((Role.ofCode role).map Role.places).getD 0 then .present else .excluded

/-! ## The close (R155) -/

/-- The roster entry a candidate entry gives; the own entry's ready flag is the station's own (R156). -/
def rosterOf (s : State) (cand : Tbl (Option CandEntry) 8) (n : Station) (c : CandEntry) : RosterEntry :=
  let st := assess s.image (fun m => (cand.get m).map fun e => (e.role, e.signature)) n c.role c.signature
  let ready := if n = s.station then some s.sensor.ready else
    match s.entry n with
    | some e => if e.serial = c.serial then e.ready else none
    | none => none
  { role := c.role, serial := c.serial, signature := c.signature, bid := c.bid, state := st, ready := ready,
    claimedReady := c.ready, silence := none }

/-- The roster the close gives. -/
def closedRoster (s : State) (cand : Tbl (Option CandEntry) 8) : Tbl (Option RosterEntry) 8 :=
  cand.mapIdx fun k c => c.map fun c => rosterOf s cand (Fin.ofNat 8 k) c

/-- R: the smallest bid among the PRESENT entries. -/
def smallestBid (roster : Tbl (Option RosterEntry) 8) (own : Nat) : Nat :=
  roster.toList.foldl (fun m e => match e with
    | some e => if e.state == .present then min m e.bid else m
    | none => m) own

/-- The silence timers started at 3R for every PRESENT entry but the own. -/
def startSilence (own : Station) (t : Ticks) (roster : Tbl (Option RosterEntry) 8) : Tbl (Option RosterEntry) 8 :=
  roster.mapIdx fun k e => e.map fun e =>
    { e with silence := if e.state == .present && k != own.val then some t else none }

/-- What the CUTTER's blocks do at a close (R8, R62, R174). -/
def cutterClose (first : Bool) (s : State) : State :=
  let s := rebindTags s
  if first then startRecovery (startPeriod s) else s

/-- The claim closes (R154, R155). -/
def closeClaim (s : State) : State :=
  match s.claim.candidate with
  | none => s
  | some cand =>
    let roster := closedRoster s cand
    if (roster.get s.station).map (·.state) == some .excluded then enterInactive .role s
    else
      let first := !s.claim.closed
      let r := smallestBid roster s.cfg.bid
      let quiet := 128 ≤ s.line.sfc || 128 ≤ s.line.hfc
      let s := { s with
        claim := { roster := startSilence s.station (tenMs (3 * r)) roster, r := r, candidate := none, window := none,
                   watch := some (tenMs (4 * r)), joining := false, ownSent := false, closed := true }
        line := { s.line with state := if quiet then .quiet else .run }
        pub := { s.pub with timer := some (s.station.val * tenMs r / 8) } }
      if s.isRole .cutter then cutterClose first s else s

/-- CLAIM_WINDOW_EXPIRY (R151): with the own CLAIM still waiting the expiry does nothing, and the window starts afresh
when that CLAIM is sent whole. -/
def windowExpires (s : State) : State :=
  if s.line.state == .claiming && s.claim.window.isSome then
    if s.line.claim.isSome then s.withClaim fun u => { u with window := none } else closeClaim s
  else s

/-- The line silence watch expires (R150). -/
def watchExpires (s : State) : State :=
  if (s.line.state == .run || s.line.state == .quiet) && s.claim.watch.isSome then enterClaim none s else s

/-- A peer's silence timer expires (R156). -/
def silenceExpires (n : Station) (s : State) : State :=
  match s.entry n with
  | some e =>
    if e.state == .present && e.silence.isSome then
      s.withClaim fun u => { u with roster := u.roster.set n (some { e with state := .silent, silence := none }) }
    else s
  | none => s

/-- The own CLAIM has been sent whole (R151). -/
def claimSent (s : State) : State :=
  if s.line.state == .claiming then startWindow (s.withClaim fun u => { u with ownSent := true }) else s

/-! ## The joining mark and a changed serial (R158) -/

/-- The sender's replica records discarded, with the exceptions and effects of R158. -/
def discardRecords (n : Station) (s : State) : State :=
  let s := { s with replicas := s.replicas.set n .empty }
  let s := match s.entry n with
    | some e => if n != s.station then s.withClaim fun u => { u with roster := u.roster.set n (some { e with ready := none }) } else s
    | none => s
  match s.role, s.roleOf n with
  | some .cab, r =>
    let s := { s with cabMap := { s.cabMap with retires := s.cabMap.retires.filter fun x => x.1 != n } }
    if r == some .cutter then
      { s with cabMap := { s.cabMap with held := true }, panel := { s.panel with tagFirst := false } }
    else s
  | some .conveyor, some .cutter => discardLots s
  | some .cutter, some .conveyor => { s with ring := { s.ring with resync := true } }
  | some .cutter, some .cab =>
    match s.boundRecord n with
    | some i => setTagRange i .none s
    | none => s
  | _, _ => s

/-- The CLAIM's serial differs from that of the roster entry its sender number holds. -/
def State.serialChanged (s : State) (n : Station) (c : ClaimFrame) : Bool :=
  ((s.entry n).map fun e => e.serial != c.serial).getD false

/-! ## A WITHDRAWN station's roster (R159) -/

/-- The entry for the sender's number made, or taking the CLAIM's fields (step 1). DESIGN CHOICE, log entry 58: the ready flag
of an entry newly made is unknown, also where a STATUS of that number is held. -/
def withdrawnEntry (n : Station) (c : ClaimFrame) (s : State) : State :=
  let e : RosterEntry := match s.entry n with
    | some e => { e with role := c.role, serial := c.serial, signature := c.signature, bid := readBid c.bid, claimedReady := c.ready }
    | none => { role := c.role, serial := c.serial, signature := c.signature, bid := readBid c.bid, state := .foreign,
                ready := none, claimedReady := c.ready, silence := none }
  s.withClaim fun u => { u with roster := u.roster.set n (some e) }

/-- An entry assessed again (steps 2 and 3). -/
def reassess (s : State) (sender k : Station) (e : RosterEntry) : RosterEntry :=
  let st := assess s.image (fun m => (s.entry m).map fun e => (e.role, e.signature)) k e.role e.signature
  if k = s.station then { e with state := st }
  else if st != .present then { e with state := st, silence := none }
  else if k != sender && e.state == .silent then e
  else if k = sender || e.state == .excluded || e.state == .foreign then
    { e with state := .present, silence := some (silenceTime s) }
  else { e with state := .present }

def withdrawnTakes (n : Station) (c : ClaimFrame) (s : State) : State :=
  let s := withdrawnEntry n c s
  let s := s.withClaim fun u =>
    { u with roster := u.roster.mapIdx fun k e => e.map fun e => reassess s n (Fin.ofNat 8 k) e }
  if s.entryState s.station == some .excluded then enterInactive .role s else s

/-! ## A CLAIM taken (R149, R152, R153) -/

/-- The station goes INACTIVE as a duplicate; a claim in progress is discarded (R153, R157). DESIGN CHOICE, log entry 38:
R157 discards the candidate on entry to INACTIVE by R134 and R153, R161 has any candidate stay as it stands; the model
discards it here, and keeps it where ROLE is the cause. -/
def goDuplicate (s : State) : State := enterInactive .duplicate (s.withClaim fun u => { u with candidate := none })

/-- A CLAIM from the own station number (R153). -/
def takeOwnNumber (c : ClaimFrame) (s : State) : State :=
  if claimValue c.role c.serial < claimValue s.roleByte s.serial then goDuplicate s
  else
    match s.line.state with
    | .run | .quiet => enterClaim none s
    | .claiming => startWindow (if s.claim.ownSent then queueClaim s else s)
    | _ => s

/-- An accepted CLAIM frame (R152). -/
def takeClaim (sender : Station) (c : ClaimFrame) (s : State) : State :=
  if sender = s.station then takeOwnNumber c s
  else
    let s := if c.joining || s.serialChanged sender c then discardRecords sender s else s
    match s.line.state with
    | .run | .quiet => enterClaim (some (sender, c)) s
    | .claiming =>
      let s := enterCandidate sender c s
      startWindow (if c.joining && s.claim.ownSent then queueClaim s else s)
    | .withdrawn => withdrawnTakes sender c s
    | _ => s

end Sys2Proof.Machine
end

