-- ==== Sys2Proof/Machine/Shared.lean ====
section
/-! DEFINITION. The shared picture (R168, R169, R172, R173): taking the entries of STATE and TRIP frames. -/

namespace Sys2Proof.Machine

def State.setReplica (s : State) (n : Station) (r : Replica) : State := { s with replicas := s.replicas.set n r }

/-- A replica's slots whose flag in the occupancy mask is clear emptied (R168). -/
def maskSlots (mask : Byte) (slots : Tbl (Option NoticeEntry) 8) : Tbl (Option NoticeEntry) 8 :=
  slots.mapIdx fun i e => if mask.getLsbD i then e else none

/-- The replica STATUS replaced, the sender's ready flag following it (R168, R156). -/
def storeStatus (n : Station) (r : StatusRecord) (s : State) : State :=
  let rep := s.replica n
  let s := s.setReplica n { rep with status := some r, slots := maskSlots r.common.mask rep.slots }
  match s.entry n with
  | some e => s.withClaim fun u => { u with roster := u.roster.set n (some { e with ready := some r.common.ready }) }
  | none => s

/-- The held standing of a CAB's row replica ends at a CUTTER STATUS that shows NONE or LOST (R173). After a LOST, and
after a restart of a CUTTER whose image disables recovery, the rows are from before the restart. DEDUCED, log entry 65: the
flag is read in the CAB's own image, at the sender's number. -/
def endHeld (n : Station) (p : CutterPart) (s : State) : State :=
  if s.cabMap.held &&
      (p.recovery == RecoveryState.none.code || p.recovery == RecoveryState.lost.code) then
    let outdated := p.recovery == RecoveryState.lost.code || !(s.image.stations.get n).mapRecovery
    { s with cabMap := { s.cabMap with held := false, old := if outdated then .fill 24 true else s.cabMap.old } }
  else s

/-- A STATUS entry taken (R168 step 1), with the units that act on it. DESIGN CHOICE, log entry 65: R173 ends the held standing
at 'the first CUTTER STATUS taken' and names no PRESENT CUTTER, so at a CAB the STATUS of every sender counts that shows the
role CUTTER and whose number the image gives that role, EXCLUDED senders and those without a roster entry included, and no
other. DESIGN CHOICE, log entry 66: at the CUTTER the STATUS of every sender that shows the role SCRUBBER, CONVEYOR or CAB is
an evaluation event (R34), which renews a refused raise of "PROFILE BREACH" (R37). -/
def takeStatus (n : Station) (r : StatusRecord) (s : State) : State :=
  let s := storeStatus n r s
  match s.role, r.part with
  | some .cutter, .conveyor p => retryBreach (if s.presentOf .conveyor == some n then cutterTakesConveyor p s else s)
  | some .cutter, .cab p => retryBreach (cutterTakesCab n p s)
  | some .cutter, .scrubber _ => retryBreach s
  | some .conveyor, .cutter p => conveyorTakesCutter n p s
  | some .cab, .cutter p => if s.roleOf n == some .cutter then endHeld n p s else s
  | _, _ => s

/-- A NOTICE entry taken (R168 step 2, R101): another slot of the owner that holds the code is first emptied. DESIGN
CHOICE, log entry 39: a slot byte of 8 to 255 names no slot; the entry is disregarded and the reading goes on. -/
def takeNotice (n : Station) (e : NoticeEntry) (s : State) : State :=
  match slotOfByte e.slot with
  | some i =>
    let rep := s.replica n
    let others := rep.slots.map fun x => if x.map (·.code) == some e.code then none else x
    s.setReplica n { rep with slots := others.set i (some e) }
  | none => s

/-- An ANSWER entry for this station (R168 step 3). -/
def takeAnswer (n : Station) (a : AnswerEntry) (s : State) : State :=
  if a.requester != BitVec.ofNat 8 s.station.val then s
  else
    match s.role with
    | some .cab => takePanelAnswer n a s
    | some .cutter => takeRequestAnswer n a s
    | _ => s

/-- A ROW entry taken at a CAB from the PRESENT CUTTER (R168 step 7, R173); the row is then of the present map. DESIGN
CHOICE, log entry 39: a row byte of 24 to 255 names no row; the entry is disregarded and the reading goes on. -/
def takeRow (n : Station) (e : RowEntry) (s : State) : State :=
  if s.isRole .cab && s.presentOf .cutter == some n then
    match rowOfByte e.row with
    | some r =>
      { s with cabMap := { s.cabMap with rows := s.cabMap.rows.set r (some e), old := s.cabMap.old.set r false } }
    | none => s
  else s

/-- One entry taken whole (R168). -/
def takeEntry (n : Station) (s : State) : Entry → State
  | .status r => takeStatus n r s
  | .notice e => takeNotice n e s
  | .answer a => takeAnswer n a s
  | .lot l => if s.isRole .conveyor && s.presentOf .cutter == some n then takeLot l s else s
  | .retire r =>
    if s.isRole .cab then { s with cabMap := { s.cabMap with retires := ((n, r) :: s.cabMap.retires).take 8 } } else s
  | .tag t =>
    let rep := s.replica n
    s.setReplica n { rep with tags := rep.tags.set (if t.record then 1 else 0) (some t) }
  | .row e => takeRow n e s
  | .fault f => s.setReplica n { s.replica n with fault := some f }

/-- The entries of a STATE frame in order, each an event for the blocks that read its record (R168). -/
def takeEntries (n : Station) (entries : List Entry) (s : State) : State :=
  entries.foldl (fun s e => subEvent (fun s => takeEntry n s e) s) s

/-- A STATE frame from an unknown number, or from the own number, starts a claim in RUN and QUIET (R149). -/
def claimOnState (n : Station) (s : State) : State :=
  if (s.line.state == .run || s.line.state == .quiet) && (n == s.station || (s.entry n).isNone) then enterClaim none s else s

/-- An accepted STATE frame (R168). Its acceptance is an event for the roster's readers before its entries are (R156). -/
def takeState (n : Station) (payload : List Byte) (s : State) : State :=
  let s := subEvent (claimOnState n) s
  if n = s.station then s else takeEntries n (readEntries payload) s

/-- An accepted TRIP frame (R172): one that carries no NOTICE entry gives nothing. -/
def takeTrip (n : Station) (payload : List Byte) (s : State) : State :=
  if n = s.station then s
  else
    match readTrip payload with
    | some e => takeNotice n e s
    | none => s

/-- An accepted MAP frame (R176): its payload has the layout of a ROW entry. DESIGN CHOICE, log entry 50: further bytes are
disregarded. -/
def takeMap (n : Station) (payload : List Byte) (s : State) : State :=
  match readRow payload with
  | some (e, _) => takeMapRow n e s
  | none => s

end Sys2Proof.Machine
end

