-- ==== Sys2Proof/Machine/Line.lean ====
section
/-! DEFINITION. The commands of the machine line: gaps, contention, arbitration, send errors, rejected frames and the
reports of frames sent whole (R132 to R146). -/

namespace Sys2Proof.Machine

/-! ## Gaps (R132, R143) -/

/-- One idle gap counted while WITHDRAWN; the 64th rejoins where the image gives auto-rejoin (R143). -/
def countGap (s : State) : State :=
  match s.line.idleGaps with
  | some k =>
    if s.line.state != .withdrawn then s
    else if k + 1 = 64 && s.cfg.autoRejoin then rejoin s
    else { s with line := { s.line with idleGaps := some (min 64 (k + 1)) } }
  | none => s

/-- The 12th recessive bit time (R132). No gap passes within a frame, so the station is not sending: a begin that the
model had made was not made, or its frame has ended, and the station contends again. The next start bit is that of a new
frame (R136). -/
def lineGap (s : State) : State :=
  countGap { s with line := { s.line with sending := none, bus := .gap12, awaitsGap := false } }

/-- 8 further recessive bit times (R132). -/
def contentionEnds (s : State) : State :=
  if s.line.bus == .gap12 then { s with line := { s.line with bus := .gap20 } } else s

def execLineGap (s : State) : Host.Outcome State Fault Refusal := event lineGap s

def execContentionDelayEnd (s : State) : Host.Outcome State Fault Refusal := event contentionEnds s

/-! ## Lost arbitration and send errors (R133, R134) -/

/-- The frame being sent; where the begin has not been modelled bit by bit, the waiting frame of lowest class (log
entry 10). -/
def State.frameInHand (s : State) : Option OutFrame :=
  match s.line.sending with
  | some f => some f
  | none => if s.drives then s.waitingFrame else none

/-- The arbitration field: character 0, and characters 0 to 6 of a CLAIM (R133). -/
def inArbitration (f : OutFrame) (character : Fin 68) : Bool :=
  character.val == 0 || (f.cls == .claim && character.val ≤ 6)

/-- The sender stops driving, and receives (R133). That it was sending shows that a gap has passed since the last frame, though
no LINE_GAP had come (log entry 10). -/
def stopSending (s : State) : State := { s with line := { s.line with sending := none, bus := .busy, awaitsGap := false } }

/-- A recessive bit read back dominant in a character (R133, R134). -/
def loseArbitration (character : Fin 68) (s : State) : State :=
  match s.frameInHand with
  | none => s
  | some f =>
    if !inArbitration f character then sendError f.cls character s
    else if f.cls == .claim && character.val != 0 then goDuplicate s
    else stopSending s

/-- Any other mismatch (R133, R141). -/
def meetSendError (character : Fin 68) (s : State) : State :=
  match s.frameInHand with
  | none => s
  | some f => sendError f.cls character s

def execArbitrationLost (character : Fin 68) (s : State) : Host.Outcome State Fault Refusal :=
  event (loseArbitration character) s

def execSendError (character : Fin 68) (s : State) : Host.Outcome State Fault Refusal :=
  event (meetSendError character) s

/-! ## Rejected frames (R136) -/

/-- A gap has cut a frame off: the line is at that gap, and a frame begun at its end is being sent (R132). -/
def lineAtGap (s : State) : State :=
  { s with line := { s.line with bus := if s.line.bus = .gap20 then .gap12 else s.line.bus } }

/-- A frame rejected by its first failing check, at the gap that cuts it off or before it; then the next gap is awaited. -/
def rejectChars (chars : List LineChar) (s : State) : State :=
  match checkFrame chars with
  | none => s
  | some (kind, cls, position) =>
    let s := rejectFrame kind cls position s
    if position.val = chars.length then lineAtGap s else frameEnds s

def execFrameRejected (chars : List LineChar) (s : State) : Host.Outcome State Fault Refusal :=
  event (ifHeard (rejectChars chars)) s

/-! ## Frames sent whole (R131, R135) -/

/-- The frame waiting in the slot of a class. -/
def State.slotFrame (s : State) : FrameClass → Option OutFrame
  | .trip => s.line.trip.head?.map .trip
  | .claim => s.line.claim.map .claim
  | .order => s.line.order.map .order
  | .map => s.line.map.map .map
  | .state => s.line.stateSlot.map .state

/-- The frame of a class that a report "sent whole" is about: the frame being sent, else, where the model has begun none of
the class, the one waiting (log entry 10). -/
def State.sentFrame (s : State) (c : FrameClass) : Option OutFrame :=
  match s.line.sending.filter fun f => f.cls = c with
  | some f => some f
  | none => if s.drives then s.slotFrame c else none

/-- A frame sent whole leaves its slot, unless its owner has put another in its place (R135, log entry 10). -/
def leaveSlot (f : OutFrame) (s : State) : State :=
  match f with
  | .trip n => if s.line.trip.head? = some n then { s with line := { s.line with trip := s.line.trip.tail } } else s
  | .claim c => if s.line.claim = some c then { s with line := { s.line with claim := none } } else s
  | .order o => if s.line.order = some o then { s with line := { s.line with order := none } } else s
  | .map r => if s.line.map = some r then placeMapFrame { s with line := { s.line with map := none } } else s
  | .state _ => { s with line := { s.line with stateSlot := none } }

/-- The report goes to the block that placed the frame (R135). -/
def reportSent (f : OutFrame) (s : State) : State :=
  match f with
  | .trip _ => s
  | .claim _ => claimSent s
  | .order o => if s.isRole .cab then pendingSent o s else requestSent o s
  | .map _ => s
  | .state f => stateSent f s

/-- A frame of a class sent whole: SFC falls, the slot empties, its owner acts (R135, R138). -/
def sentWhole (c : FrameClass) (s : State) : State :=
  match s.sentFrame c with
  | none => s
  | some f => reportSent f (leaveSlot f (stopSending (lowerSfc s)))

def execStateSentWhole (s : State) : Host.Outcome State Fault Refusal := event (sentWhole .state) s

def execOrderSentWhole (s : State) : Host.Outcome State Fault Refusal := event (sentWhole .order) s

def execClaimSentWhole (s : State) : Host.Outcome State Fault Refusal := event (sentWhole .claim) s

def execMapSentWhole (s : State) : Host.Outcome State Fault Refusal := event (sentWhole .map) s

def execTripSentWhole (s : State) : Host.Outcome State Fault Refusal := event (sentWhole .trip) s

end Sys2Proof.Machine
end

