-- ==== Sys2Proof/Machine/Frames.lean ====
section
/-! DEFINITION. The commands of frames taken and of the claim, roster, publication and recovery times (R149 to R177). -/

namespace Sys2Proof.Machine

/-- An accepted frame of a class handed to its block, unless the receiver awaits a gap; a payload that no frame of the class
can have had is rejected as LENGTH at character 1 (R136, log entry 9). DESIGN CHOICE, log entry 44: what follows the
acceptance of a CLAIM follows once, after the CLAIM has acted, so a SILENT sender that returns with the joining mark gives no
run demand in between. DESIGN CHOICE, log entry 59: so too for a MAP frame, so the return of a SILENT source chooses a source
only after the frame's row is taken. -/
def takeFrame (c : FrameClass) (sender : Station) (payload : List Byte) (f : State → State) : State → State :=
  ifHeard fun s =>
    if payloadFits c payload then f (noteEarly s (acceptFrame sender s)) else frameEnds (rejectFrame .length (some c) 1 s)

/-- An accepted CLAIM frame's payload. -/
def takeClaimPayload (sender : Station) (payload : List Byte) (s : State) : State :=
  match readClaim payload with
  | some c => takeClaim sender c s
  | none => s

def execClaimTaken (sender : Station) (payload : List Byte) (s : State) : Host.Outcome State Fault Refusal :=
  event (takeFrame .claim sender payload (takeClaimPayload sender payload)) s

def execStateTaken (sender : Station) (payload : List Byte) (s : State) : Host.Outcome State Fault Refusal :=
  event (takeFrame .state sender payload (takeState sender payload)) s

def execTripTaken (sender : Station) (payload : List Byte) (s : State) : Host.Outcome State Fault Refusal :=
  event (takeFrame .trip sender payload (takeTrip sender payload)) s

def execMapTaken (sender : Station) (payload : List Byte) (s : State) : Host.Outcome State Fault Refusal :=
  event (takeFrame .map sender payload (takeMap sender payload)) s

def execClaimWindowExpiry (s : State) : Host.Outcome State Fault Refusal :=
  event (unlessRestarted .claimWindowExpiry windowExpires) s

def execLineSilenceWatchExpiry (s : State) : Host.Outcome State Fault Refusal :=
  event (unlessRestarted .lineSilenceWatchExpiry watchExpires) s

def execSilenceTimerExpiry (station : Station) (s : State) : Host.Outcome State Fault Refusal :=
  event (unlessRestarted (.silenceTimerExpiry station) (silenceExpires station)) s

def execMapRequestTimeout (s : State) : Host.Outcome State Fault Refusal := event requestTimesOut s

def execRecoveryExpiry (s : State) : Host.Outcome State Fault Refusal := event recoveryExpires s

def execPublicationTimerExpiry (s : State) : Host.Outcome State Fault Refusal := event publicationExpires s

def execEarlyStatePlace (s : State) : Host.Outcome State Fault Refusal := event placeEarly s

end Sys2Proof.Machine
end

