-- ==== Sys2Proof/Machine/Orders.lean ====
section
/-! DEFINITION. The commands of accepted ORDER frames (R170), one meaning for each kind over the owner's rule. -/

namespace Sys2Proof.Machine

/-- An ORDER frame for this station, its payload target, number, kind and arguments (log entry 9 for a length no frame
has). -/
def orderEvent (sender : Station) (number : Byte) (kind : OrderKind) (args : List Byte)
    (owner : State → AnswerCode × State) (s : State) : Host.Outcome State Fault Refusal :=
  event (ifHeard fun s =>
    if args.length ≤ 61 then takeOrder sender number kind args owner s
    else frameEnds (rejectFrame .length (some .order) 1 s)) s

/-- ACK (R98). -/
def ackOrder (sender : Station) (args : List Byte) (s : State) : AnswerCode × State :=
  if !s.fromCab sender then (.role, s) else ackNotice (argByte args 0) (argByte args 1) s

/-- CLEAR_FAULT (R146). -/
def clearFaultOrder (sender : Station) (s : State) : AnswerCode × State :=
  if !s.fromCab sender then (.role, s) else (.done, { s with line := { s.line with record := none } })

/-- RELINK (R144). -/
def relinkOrder (sender : Station) (s : State) : AnswerCode × State :=
  if !s.fromCab sender then (.role, s)
  else if s.line.state != .withdrawn then (.state, s)
  else (.done, rejoin s)

/-- An ORDER frame of a kind that belongs to no role (R170): the answer queue step, then ROLE. -/
def takeUnknown (sender : Station) (number : Byte) (s : State) : State :=
  let s := acceptFrame sender s
  if 4 ≤ s.pub.answers.length then { s with pub := { s.pub with dropped := true } }
  else pushAnswer sender number .role s

def execTagFirst (sender : Station) (number : Byte) (args : List Byte) (s : State) : Host.Outcome State Fault Refusal :=
  orderEvent sender number .tagFirst args (faceOrder false sender (tagFirstRule args)) s

def execTagLast (sender : Station) (number : Byte) (args : List Byte) (s : State) : Host.Outcome State Fault Refusal :=
  orderEvent sender number .tagLast args (faceOrder false sender (tagLastRule args)) s

def execRelease (sender : Station) (number : Byte) (s : State) : Host.Outcome State Fault Refusal :=
  orderEvent sender number .release [] (faceOrder false sender releaseRule) s

def execWithdraw (sender : Station) (number : Byte) (s : State) : Host.Outcome State Fault Refusal :=
  orderEvent sender number .withdraw [] (faceOrder false sender withdrawRule) s

def execProtect (sender : Station) (number : Byte) (args : List Byte) (s : State) : Host.Outcome State Fault Refusal :=
  orderEvent sender number .protect args (faceOrder true sender (protectRule args)) s

def execUnprotect (sender : Station) (number : Byte) (args : List Byte) (s : State) :
    Host.Outcome State Fault Refusal :=
  orderEvent sender number .unprotect args (faceOrder true sender (unprotectRule args)) s

def execAdvance (sender : Station) (number : Byte) (s : State) : Host.Outcome State Fault Refusal :=
  orderEvent sender number .advance [] (faceOrder true sender advanceRule) s

def execWashNow (sender : Station) (number : Byte) (s : State) : Host.Outcome State Fault Refusal :=
  orderEvent sender number .washNow [] (washNowOrder sender) s

def execScrubReset (sender : Station) (number : Byte) (s : State) : Host.Outcome State Fault Refusal :=
  orderEvent sender number .scrubReset [] (scrubResetOrder sender) s

def execConveyOn (sender : Station) (number : Byte) (s : State) : Host.Outcome State Fault Refusal :=
  orderEvent sender number .conveyOn [] (conveyOrder true sender) s

def execConveyOff (sender : Station) (number : Byte) (s : State) : Host.Outcome State Fault Refusal :=
  orderEvent sender number .conveyOff [] (conveyOrder false sender) s

def execConveyReset (sender : Station) (number : Byte) (s : State) : Host.Outcome State Fault Refusal :=
  orderEvent sender number .conveyReset [] (conveyResetOrder sender) s

def execMapRequest (sender : Station) (number : Byte) (s : State) : Host.Outcome State Fault Refusal :=
  orderEvent sender number .mapRequest [] (mapRequestOrder sender) s

def execAck (sender : Station) (number : Byte) (args : List Byte) (s : State) : Host.Outcome State Fault Refusal :=
  orderEvent sender number .ack args (ackOrder sender args) s

def execClearFault (sender : Station) (number : Byte) (s : State) : Host.Outcome State Fault Refusal :=
  orderEvent sender number .clearFault [] (clearFaultOrder sender) s

def execRelink (sender : Station) (number : Byte) (s : State) : Host.Outcome State Fault Refusal :=
  orderEvent sender number .relink [] (relinkOrder sender) s

def execOrderUnknownKind (sender : Station) (number : Byte) (_kind : Byte) (s : State) :
    Host.Outcome State Fault Refusal :=
  event (ifHeard (takeUnknown sender number)) s

def execOrderOtherTarget (sender : Station) (_target : Byte) (s : State) : Host.Outcome State Fault Refusal :=
  event (ifHeard (acceptFrame sender)) s

end Sys2Proof.Machine
end

