-- ==== Sys2Proof/Machine/Inputs.lean ====
section
/-! DEFINITION. The commands of the discrete inputs (R189) and of the permit, dust, scrubber, conveyor and vigilance
times. -/

namespace Sys2Proof.Machine

/-! ## The discrete inputs (R189, R196) -/

def Inputs.get (i : Inputs) : Fin 4 → Bool
  | 0 => i.i0
  | 1 => i.i1
  | 2 => i.i2
  | 3 => i.i3

def Inputs.set (i : Inputs) (k : Fin 4) (active : Bool) : Inputs :=
  match k with
  | 0 => { i with i0 := active }
  | 1 => { i with i1 := active }
  | 2 => { i with i2 := active }
  | 3 => { i with i3 := active }

/-- A pin reads active while its level is low (R196). -/
def Pin.active (p : Pin) : Bool := !p.high

/-- A debounced value as a change leaves it: the raw level has stood there for 20 ms. Where it stands there already, there
is no change (R189). -/
def State.withInput (s : State) (k : Fin 4) (active : Bool) : State :=
  if s.inputs.get k = active then s
  else { s with inputs := s.inputs.set k active, pins := s.pins.set k { high := !active, left := none } }

/-- A raw change at a pin, from outside the part: it starts the 20 ms afresh (R189). No row of the table brings it (log
entry 28). -/
def State.withPinLevel (s : State) (k : Fin 4) (high : Bool) : State :=
  { s with pins := s.pins.set k { high := high, left := none } }

/-- The row of the table that reports a change of an input to the role that reads it; none for an input marked "—"
(R189). -/
def Role.inputChange : Role → Fin 4 → Bool → Option Instr
  | .cutter, 0, b => some (.cutRequestChange b)
  | .cutter, 1, b => some (.headRunningChange b)
  | .scrubber, 0, b => some (.fanProvenChange b)
  | .scrubber, 1, b => some (.sprayPressureChange b)
  | .conveyor, 0, b => some (.beltProvenChange b)
  | .conveyor, 1, b => some (.chainProvenChange b)
  | .conveyor, 2, b => some (.pullWireChange b)
  | _, _, _ => none

def fourInputs : List (Fin 4) := [0, 1, 2, 3]

/-- The change that input `k` has come to by its own 20 ms, where a block of the station's role reads it. -/
def State.inputDue (s : State) (k : Fin 4) : Option Instr :=
  let p := s.pins.get k
  if p.left.out && p.active != s.inputs.get k then s.role.bind fun r => r.inputChange k p.active else none

/-- The lowest-numbered input whose change is due. -/
def State.dueInput (s : State) : Option Instr := fourInputs.findSome? s.inputDue

/-- One tick of the debounce of input `k`: the 20 ms run while the raw level stands at the other value. A change of an
input that no block of the role reads is made at once. -/
def debouncePin (s : State) (k : Fin 4) : State :=
  let p := s.pins.get k
  let left := (Timer.follow (p.active != s.inputs.get k) Config.debounce p.left).tick
  let s' := { s with pins := s.pins.set k { p with left := left } }
  if left.out && (s.role.bind fun r => r.inputChange k p.active).isNone then s'.withInput k p.active else s'

/-- One tick of the debounce of all four inputs (R189). -/
def debounceTick (s : State) : State := fourInputs.foldl debouncePin s

/-- A change of a debounced value (R189): it acts at the role that reads the input, and only where the value differs. -/
def takeInput (r : Role) (k : Fin 4) (active : Bool) (act : State → State) (s : State) : State :=
  if s.isRole r && s.inputs.get k != active then act (s.withInput k active) else s

/-! ## CUTTER -/

def execCutRequestChange (active : Bool) (s : State) : Host.Outcome State Fault Refusal :=
  event (takeInput .cutter 0 active id) s

def execHeadRunningChange (active : Bool) (s : State) : Host.Outcome State Fault Refusal :=
  event (takeInput .cutter 1 active id) s

/-- A change that acts at the CUTTER only. -/
def atCutter (f : State → State) (s : State) : State := if s.isRole .cutter then f s else s

def execPoseExpiry (s : State) : Host.Outcome State Fault Refusal := event (atCutter poseExpires) s

def execDwellComplete (s : State) : Host.Outcome State Fault Refusal := event (atCutter dwellCompletes) s

def execPeriodStart (s : State) : Host.Outcome State Fault Refusal := event periodStarts s

def execMidPeriodLowering (s : State) : Host.Outcome State Fault Refusal := event midLowers s

def execAllowanceExhausted (s : State) : Host.Outcome State Fault Refusal := event allowanceEnds s

/-! ## SCRUBBER -/

def execFanProvenChange (active : Bool) (s : State) : Host.Outcome State Fault Refusal :=
  event (takeInput .scrubber 0 active id) s

def execSprayPressureChange (active : Bool) (s : State) : Host.Outcome State Fault Refusal :=
  event (takeInput .scrubber 1 active id) s

def execStartWindowExpiry (s : State) : Host.Outcome State Fault Refusal := event startWindowExpires s

def execProofLossExpiry (s : State) : Host.Outcome State Fault Refusal := event proofLossExpires s

def execRunOnExpiry (s : State) : Host.Outcome State Fault Refusal := event runOnExpires s

def execQuietTime10s (s : State) : Host.Outcome State Fault Refusal := event quietReaches s

def execWashTimeExpiry (s : State) : Host.Outcome State Fault Refusal := event washTimeExpires s

def execSettlingExpiry (s : State) : Host.Outcome State Fault Refusal := event settlingExpires s

/-! ## CONVEYOR -/

def execBeltProvenChange (active : Bool) (s : State) : Host.Outcome State Fault Refusal :=
  event (takeInput .conveyor 0 active id) s

def execChainProvenChange (active : Bool) (s : State) : Host.Outcome State Fault Refusal :=
  event (takeInput .conveyor 1 active id) s

def execPullWireChange (active : Bool) (s : State) : Host.Outcome State Fault Refusal :=
  event (takeInput .conveyor 2 active
    (if active then pullWireActive else id)) s

def execWarningExpiry (s : State) : Host.Outcome State Fault Refusal := event warningExpires s

def execBeltWindowExpiry (s : State) : Host.Outcome State Fault Refusal := event beltWindowExpires s

def execChainWindowExpiry (s : State) : Host.Outcome State Fault Refusal := event chainWindowExpires s

def execBeltLossExpiry (s : State) : Host.Outcome State Fault Refusal := event beltLossExpires s

def execChainLossExpiry (s : State) : Host.Outcome State Fault Refusal := event chainLossExpires s

def execStallExpiry (s : State) : Host.Outcome State Fault Refusal := event stallExpires s

def execRunOffExpiry (s : State) : Host.Outcome State Fault Refusal := event runOffExpires s

def execBeltTimeTick (s : State) : Host.Outcome State Fault Refusal := event beltTick s

def execLotWindowOpen (s : State) : Host.Outcome State Fault Refusal := event lotWindowOpens s

def execLotRetirement (s : State) : Host.Outcome State Fault Refusal := event lotRetires s

/-! ## CAB -/

def execHornTimeExpiry (s : State) : Host.Outcome State Fault Refusal := event hornEnds s

def execVigilancePeriodExpiry (s : State) : Host.Outcome State Fault Refusal := event vigWarns s

def execGraceExpiry (s : State) : Host.Outcome State Fault Refusal := event vigLapses s

def execVigilPairExpiry (s : State) : Host.Outcome State Fault Refusal := event pairExpires s

end Sys2Proof.Machine
end

