-- ==== Sys2Proof/Machine/Sensor.lean ====
section
/-! DEFINITION. The sensor unit (R179 to R188): polling, answer assembly, the channel table, breaks, the ready flag, and
its commands. -/

namespace Sys2Proof.Machine

def State.withSensor (s : State) (f : SensorUnit → SensorUnit) : State := { s with sensor := f s.sensor }

def setChannel (e : Fin 16) (f : Channel → Channel) (s : State) : State :=
  s.withSensor fun u => { u with channels := u.channels.set e (f (u.channels.get e)) }

/-- An entry is polled: its meaning is other than UNUSED (R182). -/
def State.polledEntry (s : State) (e : Fin 16) : Bool := (s.cfg.channels.get e).meaning != .unused

/-- A miss or a discard counted (R186). -/
def countMiss (c : Channel) : Channel :=
  { c with miss := min 3 (c.miss + 1), state := if 2 ≤ c.miss then .fault else .missing }

/-- A good answer entered (R186). -/
def goodChannel (v : Word16) (c : Channel) : Channel :=
  { c with value := some v, age := 0, stale := false, miss := 0, state := .good }

/-- An entry forced to FAULT by a break (R181). -/
def breakChannel (c : Channel) : Channel := { c with miss := 3, state := .fault }

/-- The poll outstanding ends with a failure for its entry. -/
def failPoll (s : State) : State :=
  match s.sensor.polled with
  | some e => (setChannel e countMiss s).withSensor fun u => { u with polled := none, assembly := .hunt }
  | none => s.withSensor fun u => { u with assembly := .hunt }

/-- A discard (R184): the frame is dropped, the poll ends, the quiet wait begins. -/
def discardAnswer (s : State) : State := (failPoll s).withSensor fun u => { u with quietWait := true }

/-- The lowest-numbered entry of each needed meaning has had a good answer (R188). -/
def State.inputsArrived (s : State) : Bool :=
  match s.role with
  | some .cab | none => false
  | some r => r.needs.all fun m =>
    match s.channelOf m with
    | some e => (s.sensor.channels.get e).value.isSome
    | none => false

/-- The ready flag of a CUTTER, SCRUBBER or CONVEYOR is set once its inputs have arrived (R188). -/
def readySync (s : State) : State := if s.inputsArrived then setReady true s else s

/-- A value handed on to the block of the station's role that reads its meaning (R187). -/
def handOn (e : Fin 16) (v : Word16) (s : State) : State :=
  let m := (s.cfg.channels.get e).meaning
  if s.channelOf m != some e then s
  else
    match s.role, m with
    | some .cutter, .poseX => deliverPose true v s
    | some .cutter, .poseY => deliverPose false v s
    | some .scrubber, .dust => deliverDust v s
    | some .scrubber, .pressure => deliverPressure v s
    | some .conveyor, .massRate => s.withConv fun u => { u with rate := some v }
    | some .conveyor, .chainLoad => s.withConv fun u => { u with load := some v }
    | _, _ => s

/-- A good answer (R184, R186, R187). -/
def goodAnswer (e : Fin 16) (v : Word16) (s : State) : State :=
  let s := (setChannel e (goodChannel v) s).withSensor fun u => { u with polled := none, assembly := .hunt }
  handOn e v (readySync s)

def setAssembly (a : Assembly) (s : State) : State := s.withSensor fun u => { u with assembly := a }

/-- A valid character at the assembly (R184). -/
def assemble (b : Byte) (s : State) : State :=
  match s.sensor.assembly, s.sensor.polled with
  | .hunt, some _ => if b = 0xA5 then setAssembly .channel s else s
  | .channel, some e => if b = (s.cfg.channels.get e).address then setAssembly .high s else discardAnswer s
  | .high, some _ => setAssembly (.low b) s
  | .low h, some _ => setAssembly (.check h b) s
  | .check h l, some e =>
    if b = sensorCheck (s.cfg.channels.get e).address h l then goodAnswer e (of16 h l) s else discardAnswer s
  | _, none => s

/-- A character taken (R180, R181, R184): a valid one also ends a break; a marked one discards a frame in assembly. -/
def takeCharacter (data : Byte) (parity stopMark : Bool) (s : State) : State :=
  if characterValid s.cfg.parity data parity stopMark then
    assemble data (s.withSensor fun u => { u with broken := false })
  else if s.sensor.assembly == .hunt then s
  else discardAnswer s

/-- A break (R181). DESIGN CHOICE, log entry 53: a further break while the line is BROKEN ends an outstanding poll with a
discard and begins the quiet wait also where no frame is in assembly. -/
def takeBreak (s : State) : State :=
  let s' := if s.sensor.polled.isSome then discardAnswer s else s
  if s.sensor.broken then s'
  else
    s'.withSensor fun u =>
      { u with broken := true
               channels := u.channels.mapIdx fun k c => if s.polledEntry (Fin.ofNat 16 k) then breakChannel c else c }

/-- The lowest-numbered due entry (R182). -/
def State.nextPoll (s : State) : Option (Fin 16) :=
  sixteen.find? fun e => s.polledEntry e && (s.sensor.channels.get e).due

/-- A poll may be sent (R182). -/
def State.mayPoll (s : State) : Bool := s.sensor.polled.isNone && !s.sensor.quietWait && s.nextPoll.isSome

/-- A poll is sent for the lowest-numbered due entry (R182). -/
def sendPoll (s : State) : State :=
  match s.nextPoll with
  | some e =>
    if s.mayPoll then
      (setChannel e (fun c => { c with due := false, next := some (tenMs (s.cfg.channels.get e).interval) }) s).withSensor
        fun u => { u with polled := some e, assembly := .hunt }
    else s
  | none => s

/-- An entry becomes due (R182): acts while its interval runs. -/
def becomeDue (e : Fin 16) (s : State) : State :=
  if s.polledEntry e && (s.sensor.channels.get e).next.isSome then
    setChannel e (fun c => { c with due := true, next := none }) s
  else s

/-- The answer timeout expires with the assembly in HUNT: a miss (R183). -/
def answerTimesOut (s : State) : State :=
  if s.sensor.polled.isSome && s.sensor.assembly == .hunt then failPoll s else s

/-- The gap limit of the frame in assembly is passed (R184). -/
def gapLimitPasses (s : State) : State := if s.sensor.assembly == .hunt then s else discardAnswer s

/-- A value's age reaches 4 times its interval (R187). -/
def becomeStale (e : Fin 16) (s : State) : State :=
  let c := s.sensor.channels.get e
  if c.value.isSome && !c.stale then setChannel e (fun c => { c with stale := true, age := max c.age (s.staleAge e) }) s else s

def execChannelDue (entry : Fin 16) (s : State) : Host.Outcome State Fault Refusal := event (becomeDue entry) s

def execPollSend (s : State) : Host.Outcome State Fault Refusal := event sendPoll s

def execQuietWaitEnd (s : State) : Host.Outcome State Fault Refusal :=
  event (fun s => s.withSensor fun u => { u with quietWait := false }) s

def execAnswerTimeout (s : State) : Host.Outcome State Fault Refusal := event answerTimesOut s

def execGapLimitExpiry (s : State) : Host.Outcome State Fault Refusal := event (unlessRestarted .gapLimitExpiry gapLimitPasses) s

def execSensorCharacter (data : Byte) (parity stopMark : Bool) (s : State) : Host.Outcome State Fault Refusal :=
  event (takeCharacter data parity stopMark) s

def execSensorBreak (s : State) : Host.Outcome State Fault Refusal := event takeBreak s

def execValueStale (entry : Fin 16) (s : State) : Host.Outcome State Fault Refusal :=
  event (unlessRestarted (.valueStale entry) (becomeStale entry)) s

end Sys2Proof.Machine
end

