-- ==== Sys2Proof/Machine/PanelView.lean ====
section
/-! DEFINITION. What the pages show (R114, R117, R119 to R122): the content of the 28 lines, the characters where the
manual gives them, and the panel frame (R126). The lines a page's parts stand on are log entry 22 where the manual
names none. -/

namespace Sys2Proof.Machine

/-! ## FACE (R117) -/

/-- The cell two bytes of a STATUS or TAG entry name, if one. -/
def cellOfBytes (col row : Byte) : Option Cell := argCell [col, row]

/-- The replica tag range record bound to this CAB. DESIGN CHOICE, log entry 57: of two that name it, record 0. -/
def State.ownTag (s : State) : Option TagEntry :=
  (s.recordStation .cutter).bind fun n =>
    ((s.replica n).tags.toList.filterMap id).find? fun t => t.bound == BitVec.ofNat 8 s.station.val

/-- A cell in this CAB's tag range, in state FIRST or RANGE. -/
def tagShows (t : TagEntry) (c : Cell) : Bool :=
  match cellOfBytes t.firstCol t.firstRow, cellOfBytes t.lastCol t.lastRow with
  | some a, some b => if t.state == 2 then inRange a b c else t.state == 1 && c == a
  | some a, none => t.state == 1 && c == a
  | none, _ => false

/-- The temporary zone mask of the latest CUTTER STATUS, clear while none is held. -/
def State.tempShown (s : State) : BitVec 6 := (s.cutterRecord.map (·.1.tempZones)).getD 0

/-- The zone is protected as the page draws it (R117, R118). -/
def State.zoneDrawn (s : State) (z : Nat) : Bool := s.image.permZones.getLsbD z || s.tempShown.getLsbD z

/-- The state of a cell in the row replica, where its row is held. -/
def State.drawnCell (s : State) (c : Cell) : Option CellState := (s.cabMap.rows.get c.row).map (·.cells.get c.col)

/-- The glyph of one cell (R117), given the head cell and the tag record the page draws. -/
def State.glyph (s : State) (head : Option Cell) (tag : Option TagEntry) (c : Cell) : Glyph :=
  if c = s.panel.cursor then .cursor
  else if head = some c then .head
  else if (tag.map (tagShows · c)).getD false then .tag
  else
    match s.drawnCell c with
    | none => .unknown
    | some st => if s.zoneDrawn (zoneOf c.row) then .zone else .cell st

/-- The columns of a row, lowest first. -/
def columns32 : List (Fin 32) := (List.range 32).map (Fin.ofNat 32)

/-- The fields of a CUTTER STATUS that the permit line shows (R117). -/
def CutterPart.shown (p : CutterPart) : PermitShown :=
  { permit := p.permit, reasons := p.reasons, advance := p.advance, faceComplete := p.faceComplete }

/-- The 26 body lines of FACE: row 23 on line 0 down to row 0 on line 23, the cursor cell, the permit line. -/
def State.faceLines (s : State) : List LineContent :=
  let head := s.cutterRecord.bind fun p => cellOfBytes p.1.headCol p.1.headRow
  let tag := s.ownTag
  let c := s.panel.cursor
  (rows24.reverse.map fun r => LineContent.faceRow (columns32.map fun k => s.glyph head tag ⟨k, r⟩))
    ++ [.cursorCell c (s.kind c) (s.drawnCell c) (zoneOf c.row) (s.zoneDrawn (zoneOf c.row)),
        .permitLine (s.cutterRecord.map (·.1.shown)) ((s.cutterRecord.map (·.2)).getD false)]

/-! ## NOTICES (R119) -/

/-- NEW on a snapshot line: its live candidate has another raise number or state, or is gone. -/
def State.lineNew (s : State) (l : SnapLine) : Bool :=
  match s.cab.cands.find? fun c => c.owner == l.owner && c.entry.code == l.code with
  | some c => c.entry.raise != l.raise || c.entry.state != l.state
  | none => true

/-- NEW on the header: the display list holds an owner and code not in the snapshot. DESIGN CHOICE, log entry 56: shown on the
NOTICES page only. -/
def State.headerNew (s : State) : Bool :=
  s.panel.page == .notices && s.cab.list.any fun c => (snapIndex s.panel.snapshot (snapLine c)).isNone

/-- The first snapshot line shown: 26 lines, scrolled so that the selected line is among them (log entry 22). -/
def State.noticeTop (s : State) : Nat := s.panel.selection - 25

def State.noticeLines (s : State) : List LineContent :=
  Tbl.mapFrom (fun k l => LineContent.notice l (s.lineNew l) (k == s.panel.selection)) s.noticeTop
    ((s.panel.snapshot.drop s.noticeTop).take 26)

/-! ## DUST, SPOIL, LINE, FIRST-OUT (R120 to R122) -/

def State.offerLine (s : State) : List LineContent :=
  match s.panel.offer with
  | some o => [.offer o.kinds o.chosen]
  | none => []

/-- Every field of the latest STATUS of a role, or NONE (R120). -/
def State.recordLine (s : State) (r : Role) : LineContent :=
  match s.record r with
  | some (status, stale) => .record status stale
  | none => .noRecord

def State.dustLines (s : State) : List LineContent :=
  [s.recordLine .scrubber,
   match s.cutterRecord with
   | some (p, stale) => .cutterDust p.allowance p.position stale
   | none => .noRecord] ++ s.offerLine

/-- The SPOIL page (R120). DESIGN CHOICE, log entry 45: while no RETIRE entry has been taken there is no line for the list.
-/
def State.spoilLines (s : State) : List LineContent :=
  [s.recordLine .conveyor,
   match s.cutterRecord with
   | some (p, stale) => .cutterSpoil p.issued p.lotOpen p.outstanding p.cutMass stale
   | none => .noRecord]
    ++ s.cabMap.retires.map (fun r => LineContent.retired r.1 r.2 (s.stale r.1)) ++ s.offerLine

/-- A FAULT entry that holds a fault; none is shown as EMPTY: no entry, or one of kind 0 (R121, R147). -/
def heldFault (f : Option FaultEntry) : Option FaultEntry := f.filter (·.kind != 0)

/-- One station's line of the LINE page (R121): its roster entry where it has one, and what its STATUS and FAULT entries
give whether it has one or not (R169). The CAB's own line gives its own flags and record. -/
def State.rosterLine (s : State) (n : Station) : LineContent :=
  let status := if n = s.station then some s.ownStatus else (s.replica n).status
  .stationLine n
    ((s.entry n).map fun e => { role := e.role, state := e.state, bid := e.bid, ready := e.ready })
    (status.map fun r => (r.common.lineState, r.common.sfc, r.common.hfc))
    (heldFault (if n = s.station then some s.faultEntry else (s.replica n).fault)) (n == s.panel.lineSelection)

def State.linePageLines (s : State) : List LineContent :=
  eight.map s.rosterLine ++ [.ownLine s.claim.r s.line.sfc s.line.hfc (heldFault (some s.faultEntry))] ++ s.offerLine

def State.firstOutLines (s : State) : List LineContent :=
  match s.cab.firstOut with
  | none => [.empty]
  | some f =>
    [.firstOutOwner f.owner, .firstOutCode f.code f.raise, .firstOutState ((s.firstOutCand f).map (·.entry.state))]

/-- The body of the page shown. -/
def State.bodyLines (s : State) : List LineContent :=
  match s.panel.page with
  | .face => s.faceLines
  | .notices => s.noticeLines
  | .dust => s.dustLines
  | .spoil => s.spoilLines
  | .line => s.linePageLines
  | .firstOut => s.firstOutLines

/-- The content of the 28 lines: the body, then the header on line 26 and the status line on line 27 (R114). -/
def State.pageLines (s : State) : List LineContent :=
  (s.bodyLines ++ List.replicate (26 - s.bodyLines.length) LineContent.blank).take 26
    ++ [.header s.panel.page s.station s.line.state s.listOverflow s.headerNew, .status s.panel.status]

/-! ## Characters -/

/-- The character of a glyph (chapter 12, "Panel exchange"). -/
def Glyph.char : Glyph → Byte
  | .cursor => 0x2B | .head => 0x40 | .tag => 0x23 | .unknown => 0x3F | .zone => 0x78
  | .cell .outside => 0x20 | .cell .solid => 0x2E | .cell .released => 0x6F | .cell .cut => 0x2A

def asciiBytes (t : String) : List Byte := t.toList.map fun c => BitVec.ofNat 8 c.toNat

/-- Forty characters. DESIGN CHOICE, log entry 68: the manual does not say where a text shorter than the line (the 32 cells
of R117, the status text of R114, a fixed word) stands in it; it stands at the left, blanks (0x20) after it. -/
def padLine (t : List Byte) : List Byte := (t ++ List.replicate 40 0x20).take 40

def OrderKind.name : OrderKind → String
  | .tagFirst => "TAG_FIRST" | .tagLast => "TAG_LAST" | .release => "RELEASE" | .withdraw => "WITHDRAW"
  | .protect => "PROTECT" | .unprotect => "UNPROTECT" | .advance => "ADVANCE" | .washNow => "WASH_NOW"
  | .scrubReset => "SCRUB_RESET" | .conveyOn => "CONVEY_ON" | .conveyOff => "CONVEY_OFF"
  | .conveyReset => "CONVEY_RESET" | .mapRequest => "MAP_REQUEST" | .ack => "ACK" | .clearFault => "CLEAR_FAULT"
  | .relink => "RELINK"

/-- The name of an answer code; none for a code that names nothing. -/
def answerName (b : Byte) : Option String :=
  ["DONE", "SEQUENCE", "RANGE", "PROTECTED", "STATE", "NOT_FOUND", "ROLE"][b.toNat]?

def digitOf (n : Station) : Byte := BitVec.ofNat 8 (0x30 + n.val)

/-- Order kind and target station, as on the status line, a blank after each (log entry 68). -/
def orderText (k : OrderKind) (n : Station) : List Byte := asciiBytes k.name ++ [0x20, digitOf n, 0x20]

/-- The text of the status line (R114); none for an answer code without a name. -/
def StatusLine.text : StatusLine → Option (List Byte)
  | .blank => some []
  | .answer k n a => (answerName a).map fun t => orderText k n ++ asciiBytes t
  | .noAnswer k n => some (orderText k n ++ asciiBytes "NO ANSWER")
  | .busy => some (asciiBytes "BUSY")
  | .noStation => some (asciiBytes "NO STATION")
  | .active => some (asciiBytes "ACTIVE")

/-- The text of a line, where the manual gives its characters. -/
def LineContent.text : LineContent → Option (List Byte)
  | .blank => some []
  | .faceRow glyphs => some (glyphs.map Glyph.char)
  | .permitLine none _ => some (asciiBytes "NO CUTTER")
  | .status l => l.text
  | .noRecord => some (asciiBytes "NONE")
  | .empty => some (asciiBytes "EMPTY")
  | .firstOutState none => some (asciiBytes "GONE")
  | _ => none

/-- The 40 characters of a line: those the manual gives, at the left (log entry 68), else the free value of log entry 3. -/
def LineContent.chars (c : LineContent) : List Byte := padLine (c.text.getD (Config.lineText c))

/-! ## The panel frame (R126; chapter 12, "Panel exchange") -/

/-- The lines numbered from 0. -/
def numberLines (lines : List LineContent) : List (Nat × LineContent) := Tbl.mapFrom Prod.mk 0 lines

/-- The lines whose content has changed. DESIGN CHOICE, log entry 55: content is what the line shows, not its 40 characters. -/
def changedLines (before now : List LineContent) : List (Nat × LineContent) :=
  (numberLines now).filter fun x => before[x.1]? != some x.2

/-- The frame the panel unit sends now. -/
def State.panelFrame (s : State) : PanelFrame :=
  let now := s.pageLines
  { page := s.panel.page
    lines := match s.panel.replied with
      | some before => if s.panel.redraw || !s.panel.up then numberLines now else changedLines before now
      | none => numberLines now }

/-- The bytes of a panel frame; its check covers all between lead and check (R198). -/
def PanelFrame.bytes (f : PanelFrame) : List Byte :=
  let body := f.page.id :: BitVec.ofNat 8 f.lines.length ::
    f.lines.flatMap fun x => BitVec.ofNat 8 x.1 :: x.2.chars
  0x5A :: body ++ be16 (crc16 body)

end Sys2Proof.Machine
end

