-- ==== Sys2Proof/Machine/Keys.lean ====
section
/-! DEFINITION. The panel's commands: the thirteen keys (R111, R114 to R122), the panel frame, the key report and its
absence (R126, R127), and the timeout of a pending order (R125). -/

namespace Sys2Proof.Machine

/-! ## Moving about -/

/-- The next page of R114. -/
def Page.next : Page → Page
  | .face => .notices | .notices => .dust | .dust => .spoil | .spoil => .line | .line => .firstOut | .firstOut => .face

/-- One place up, stopping at the last. -/
def stepUp {n : Nat} (i : Fin n) : Fin n := if h : i.val + 1 < n then ⟨i.val + 1, h⟩ else i

/-- One place down, stopping at the first. -/
def stepDown {n : Nat} (i : Fin n) : Fin n := ⟨i.val - 1, by omega⟩

def moveCursor (f : Cell → Cell) (s : State) : State := s.withPanel fun u => { u with cursor := f u.cursor }

/-- UP and DOWN with an offer open: one place, stopping at either end (R120). DESIGN CHOICE, log entry 22: UP moves to the
kind before, DOWN to the one after. -/
def moveChoice (down : Bool) (o : Offer) (s : State) : State :=
  let chosen := if down then min (o.chosen + 1) (o.kinds.length - 1) else o.chosen - 1
  s.withPanel fun u => { u with offer := some { o with chosen := chosen } }

/-- UP and DOWN on NOTICES: one line, stopping at either end; nothing with an empty snapshot (R119). -/
def moveSelection (down : Bool) (s : State) : State :=
  s.withPanel fun u =>
    { u with selection := if down then min (u.selection + 1) (u.snapshot.length - 1) else u.selection - 1 }

/-- UP and DOWN on LINE: one station, stopping at 0 and 7 (R121). -/
def moveStation (down : Bool) (s : State) : State :=
  s.withPanel fun u => { u with lineSelection := if down then stepUp u.lineSelection else stepDown u.lineSelection }

/-- UP and DOWN, with the cursor's move on FACE (R117). -/
def keyUpDown (down : Bool) (move : Cell → Cell) (s : State) : State :=
  match s.panel.offer, s.panel.page with
  | some o, _ => moveChoice down o s
  | none, .face => moveCursor move s
  | none, .notices => moveSelection down s
  | none, .line => moveStation down s
  | none, _ => s

def keyUp (s : State) : State := keyUpDown false (fun c => { c with row := stepUp c.row }) s
def keyDown (s : State) : State := keyUpDown true (fun c => { c with row := stepDown c.row }) s

/-- A key that closes an open offer without composing; with none open it acts on the page that names it (R114, R120). -/
def pageKey (act : Page → State → State) (s : State) : State :=
  if s.panel.offer.isSome then closeOffer s else act s.panel.page s

/-- A key that only the FACE page names. -/
def faceKey (act : State → State) (s : State) : State :=
  pageKey (fun p s => if p == .face then act s else s) s

def keyLeft (s : State) : State := faceKey (moveCursor fun c => { c with col := stepDown c.col }) s
def keyRight (s : State) : State := faceKey (moveCursor fun c => { c with col := stepUp c.col }) s

/-- PAGE (R114): the next page, the offer closed, the next frame whole. -/
def keyPage (s : State) : State :=
  s.withPanel fun u => { u with page := u.page.next, offer := none, redraw := true }

/-! ## Composing (R115, R118, R120) -/

/-- The cursor cell as argument bytes: column, row. -/
def State.cursorArgs (s : State) : List Byte :=
  [BitVec.ofNat 8 s.panel.cursor.col.val, BitVec.ofNat 8 s.panel.cursor.row.val]

/-- SELECT on FACE (R118). -/
def faceSelect (s : State) : State :=
  if s.panel.tagFirst then composeTag .tagLast s.cursorArgs false s else composeTag .tagFirst s.cursorArgs true s

/-- SELECT with no offer open on a page that has one: its first kind chosen (R120). -/
def openOffer (s : State) : State :=
  match s.pageOffer with
  | some kinds => s.withPanel fun u => { u with offer := some { kinds := kinds, chosen := 0 } }
  | none => s

/-- SELECT with an offer open: the chosen order is composed and the offer closes (R120). -/
def selectOffer (o : Offer) (s : State) : State :=
  match o.kinds[o.chosen]? with
  | some k => composePlain k (s.kindTarget k) [] (closeOffer s)
  | none => closeOffer s

/-- SELECT. -/
def keySelect (s : State) : State :=
  match s.panel.offer, s.panel.page with
  | some o, _ => selectOffer o s
  | none, .face => faceSelect s
  | none, _ => openOffer s

def keyRelease (s : State) : State := faceKey (composeTag .release [] false) s
def keyWithdraw (s : State) : State := faceKey (composeTag .withdraw [] false) s
def keyAdvance (s : State) : State := faceKey (composeTag .advance [] false) s

/-- PROTECT: UNPROTECT of a zone that the page draws protected (R118). -/
def keyProtect (s : State) : State :=
  faceKey (fun s =>
    let z := zoneOf s.panel.cursor.row
    composeTag (if s.zoneDrawn z then .unprotect else .protect) [BitVec.ofNat 8 z] false s) s

/-- ACK on NOTICES: the slot and raise number of the selected line, to its owner (R119). -/
def ackSelected (s : State) : State :=
  match s.panel.snapshot[s.panel.selection]? with
  | some l => composePlain .ack (some l.owner) [l.slot, l.raise] s
  | none => s

/-- ACK (R119, R122). -/
def keyAck (s : State) : State :=
  pageKey (fun p s =>
    match p with
    | .notices => ackSelected s
    | .firstOut => clearFirstOut s
    | _ => s) s

/-! ## A key taken whole -/

/-- A key other than VIGIL_A and VIGIL_B: its act, what follows it, and the snapshot taken again on the NOTICES page and
on entry to it (R119). -/
def takeKey (act : State → State) (s : State) : State :=
  let s' := subEvent act s
  if s.panel.page == .notices || s'.panel.page == .notices then takeSnapshot s' else s'

/-- One key, taken whole before the next (R126). -/
def pressKey : Key → State → State
  | .page => takeKey keyPage
  | .up => takeKey keyUp
  | .down => takeKey keyDown
  | .left => takeKey keyLeft
  | .right => takeKey keyRight
  | .select => takeKey keySelect
  | .release => takeKey keyRelease
  | .withdraw => takeKey keyWithdraw
  | .protect => takeKey keyProtect
  | .advance => takeKey keyAdvance
  | .ack => takeKey keyAck
  | .vigilA => subEvent vigilA
  | .vigilB => subEvent vigilB

/-- The panel unit is live in a CAB only. -/
def atCab (f : State → State) (s : State) : State := if s.isRole .cab then f s else s

def execKeyPage (s : State) : Host.Outcome State Fault Refusal := event (atCab (pressKey .page)) s

def execKeyUp (s : State) : Host.Outcome State Fault Refusal := event (atCab (pressKey .up)) s

def execKeyDown (s : State) : Host.Outcome State Fault Refusal := event (atCab (pressKey .down)) s

def execKeyLeft (s : State) : Host.Outcome State Fault Refusal := event (atCab (pressKey .left)) s

def execKeyRight (s : State) : Host.Outcome State Fault Refusal := event (atCab (pressKey .right)) s

def execKeySelect (s : State) : Host.Outcome State Fault Refusal := event (atCab (pressKey .select)) s

def execKeyRelease (s : State) : Host.Outcome State Fault Refusal := event (atCab (pressKey .release)) s

def execKeyWithdraw (s : State) : Host.Outcome State Fault Refusal := event (atCab (pressKey .withdraw)) s

def execKeyProtect (s : State) : Host.Outcome State Fault Refusal := event (atCab (pressKey .protect)) s

def execKeyAdvance (s : State) : Host.Outcome State Fault Refusal := event (atCab (pressKey .advance)) s

def execKeyAck (s : State) : Host.Outcome State Fault Refusal := event (atCab (pressKey .ack)) s

def execKeyVigilA (s : State) : Host.Outcome State Fault Refusal := event (atCab (pressKey .vigilA)) s

def execKeyVigilB (s : State) : Host.Outcome State Fault Refusal := event (atCab (pressKey .vigilB)) s

/-! ## The panel link (R126, R127) -/

/-- The panel frame sent: the next one in 100 ms, a key report awaited for 50 ms. Acts while frames are sent. -/
def sendPanelFrame (s : State) : State :=
  if s.panel.frameTimer.isSome then
    s.withPanel fun u =>
      { u with frame := some s.panelFrame, drawn := s.pageLines, redraw := false
               frameTimer := some Config.panelPeriod, keyWait := some Config.keyWait, clocking := true }
  else s

/-- The keys of a report in order; a code that names no key is disregarded (R126). -/
def takeKeys (codes : List Byte) (s : State) : State :=
  codes.foldl (fun s b => match Key.ofCode b with
    | some k => pressKey k s
    | none => s) s

/-- A key report within the 50 ms (R126, R127): the report is an event of its own, before its keys. One that fails its check is not taken, and PCK stops at its end, so no
second report is read in that wait (R200); DEDUCED, log entry 42: so does one that ends short of its length, and bytes
without a lead byte are passed over, and the clocking goes on. -/
def takeKeyReport (bytes : List Byte) (s : State) : State :=
  if s.panel.keyWait.isSome && s.panel.clocking then
    match readKeyReport bytes with
    | some codes => takeKeys codes (subEvent panelUp s)
    | none => if bytes.any (· == 0xA6) then s.withPanel fun u => { u with clocking := false } else s
  else s

/-- The 50 ms end without a report taken (R127). -/
def keyWaitEnds (s : State) : State := if s.panel.keyWait.isSome then replyMissing s else s

def execPanelFrameSend (s : State) : Host.Outcome State Fault Refusal := event (atCab sendPanelFrame) s

def execKeyReport (bytes : List Byte) (s : State) : Host.Outcome State Fault Refusal :=
  event (atCab (takeKeyReport bytes)) s

def execKeyReportMissing (s : State) : Host.Outcome State Fault Refusal := event (atCab keyWaitEnds) s

def execPendingOrderTimeout (number : Byte) (s : State) : Host.Outcome State Fault Refusal :=
  event (pendingTimesOut number) s

end Sys2Proof.Machine
end

