-- ==== Sys2Proof/Machine/Startup.lean ====
section
/-! DEFINITION. The START sequence (R191 to R194, R201), RESET and the STATUS pattern (R195). -/

namespace Sys2Proof.Machine

/-- Every block at its power-on value with these straps (R191). The factory number is the part's own and stays (R148); the
levels at the input pins are the harness's and stay; commands that wait stay (log entry 25). -/
def restart (straps : BitVec 3) (s : State) : State :=
  { State.powerOn s.serial straps s.pending with pins := s.pins.map fun p => { p with left := none } }

/-- Power-on, or the release of RESET (R191): the straps are read. -/
def execPowerOn (straps : BitVec 3) (s : State) : Host.Outcome State Fault Refusal := .next (restart straps s)

/-- RESET taken (R191): every item at its power-on value while it is held (log entry 14). DESIGN CHOICE, log entry 49: the
straps and the station number stay as last read until POWER_ON reads them again. -/
def execResetAssert (s : State) : Host.Outcome State Fault Refusal :=
  .next { restart s.straps s with resetHeld := true }

/-- The START sequence runs: START, RESET released. -/
def State.starting (s : State) : Bool := s.line.state == .start && !s.resetHeld

/-- The 36 ms wait ends and the read begins (R201). -/
def Spi.isWaiting : Spi → Bool
  | .waiting _ => true
  | _ => false

def startRead (s : State) : State := if s.starting && s.spi.isWaiting then { s with spi := .reading } else s

def execImageReadStart (s : State) : Host.Outcome State Fault Refusal := .next (startRead s)

/-- The own roster entry once the image is loaded (R161). -/
def ownEntry (s : State) : RosterEntry :=
  { role := s.roleByte, serial := s.serial, signature := s.image.signature, bid := s.cfg.bid, state := .present,
    ready := some s.sensor.ready, claimedReady := false, silence := none }

/-- The image's parameters loaded into the blocks that use them (R193): the cells by their kinds (R22), the own roster
entry and R (R161), every polled entry due (R182), the first panel frame of a CAB (R128, log entry 22). -/
def loadImage (i : Image) (s : State) : State :=
  let s := { s with image := i, spi := .idle, face := { s.face with cells := freshCells i } }
  { s with
    claim := { s.claim with roster := s.claim.roster.set s.station (some (ownEntry s)), r := s.cfg.bid }
    sensor := { s.sensor with channels := s.sensor.channels.mapIdx fun k c => { c with due := s.polledEntry (Fin.ofNat 16 k) } }
    panel := { s.panel with frameTimer := if s.isRole .cab then some 0 else none } }

/-- START ends with success: the image is loaded and the claim is entered with the joining mark, in one event (R193). -/
def startSucceeds (i : Image) (s : State) : State := finish s (enterClaim none (loadImage i s))

/-- START ends with a failure: INACTIVE, CONFIG, every other item at its power-on value (R194), the quiet time that START has
counted among them. -/
def startFails (s : State) : State :=
  let s := { restart s.straps s with status := s.status }
  statusSync { s with spi := .idle, line := { s.line with state := .inactive, cause := some .config } }

/-- The read ends (R192, R193). -/
def completeRead (bytes : List Byte) (s : State) : State :=
  if s.starting && s.spi == .reading then
    match readImage s.station bytes with
    | some i => startSucceeds i s
    | none => startFails s
  else s

def execImageReadComplete (bytes : List Byte) (s : State) : Host.Outcome State Fault Refusal :=
  .next (completeRead bytes s)

/-! ## The STATUS output -/

/-- STATUS is active (R195). -/
def State.statusOn (s : State) : Bool :=
  match s.status.phase with
  | .on _ => true
  | _ => false

/-- The next step of the pattern (R195): as many pulses as the code's number, then the pause. -/
def statusStep (o : StatusOut) : StatusOut :=
  match o.phase with
  | .pause => { o with phase := .on 1, timer := some Config.statusPulse }
  | .on k => { o with phase := .off k, timer := some Config.statusPulse }
  | .off k =>
    if k < o.code then { o with phase := .on (k + 1), timer := some Config.statusPulse }
    else { o with phase := .pause, timer := some Config.statusPause }

def execStatusPatternStep (s : State) : Host.Outcome State Fault Refusal :=
  .next { s with status := statusStep s.status }

end Sys2Proof.Machine
end

