-- ==== Sys2Proof/Machine/Clock.lean ====
section
/-! DEFINITION. Time (log entry 1): the expiry that is due by the part's own timers, and one tick of 250 microseconds. A
command that waits in the queue goes before both. -/

namespace Sys2Proof.Machine

/-! ## What is due -/

/-- The first command whose condition holds. -/
def firstDue (l : List (Bool × Instr)) : Option Instr := (l.find? (·.1)).map (·.2)

/-- Expiries that run in every line state: the STATUS pattern and the memory's power-up wait. -/
def State.dueAlways (s : State) : Option Instr :=
  firstDue [(s.status.timer.out, .statusPatternStep), (s.starting && s.spi == .waiting 0, .imageReadStart)]

/-- The peer whose silence time is out. -/
def State.silenceOut (s : State) : Option Station :=
  eight.find? fun n => match s.entry n with
    | some e => e.state == .present && e.silence.out
    | none => false

/-- Claim, roster, publication and recovery times. -/
def State.dueLine (s : State) : Option Instr :=
  let asserting := s.line.state == .run || s.line.state == .quiet
  match firstDue [(s.line.state == .claiming && s.claim.window.out, .claimWindowExpiry),
                  (asserting && s.claim.watch.out, .lineSilenceWatchExpiry)], s.silenceOut with
  | some c, _ => some c
  | none, some n => some (.silenceTimerExpiry n)
  | none, none =>
    firstDue
      [(s.pub.timer.out, .publicationTimerExpiry),
       (s.pub.early && s.pub.timer.isSome && s.line.stateSlot.isNone && s.earlyMay, .earlyStatePlace),
       (((s.recovery.request.map (·.timer.out)).getD false), .mapRequestTimeout),
       (s.recovery.state == .restoring && s.recovery.timer.out, .recoveryExpiry)]

/-- The dwell timer, which runs, has come to the head cell's configured dwell (R40). -/
def State.dwellReached (s : State) : Bool := s.dwellRuns && s.permit.reached

/-- The period position has reached a place, while the period timer runs. -/
def State.positionAt (s : State) (t : Ticks) : Bool := (s.dust.position.map (fun p => decide (t ≤ p))).getD false

/-- The CUTTER's times; a unit completed at a period start belongs to the ending period (R65). -/
def State.dueCutter (s : State) : Option Instr :=
  if s.isRole .cutter then
    firstDue
      [(s.permit.fresh && (decide (Config.poseLimit ≤ s.permit.ageX) || decide (Config.poseLimit ≤ s.permit.ageY)),
        .poseExpiry),
       (s.dwellReached, .dwellComplete),
       (s.permitOn && s.dust.remaining == 1 && decide (tenth ≤ s.dust.fraction), .allowanceExhausted),
       (!s.dust.midDone && s.positionAt (sec s.image.period / 2), .midPeriodLowering),
       (s.positionAt (sec s.image.period), .periodStart)]
  else none

/-- The SCRUBBER's times. -/
def State.dueScrubber (s : State) : Option Instr :=
  if s.isRole .scrubber then
    firstDue
      [(s.scrub.fan == .starting && s.scrub.startWindow.out, .startWindowExpiry),
       (s.scrub.fan.runs && s.scrub.proofLoss.out, .proofLossExpiry),
       (s.scrub.fan == .runOn && s.scrub.runOn.out, .runOnExpiry),
       (!s.scrub.demand && s.scrub.quietLeft.out, .quietTime10s),
       (s.scrub.wash == .washing && s.scrub.washTime.out, .washTimeExpiry),
       (s.scrub.wash == .settling && s.scrub.settling.out, .settlingExpiry)]
  else none

/-- The head lot's window is to open now. -/
def State.openingReached (s : State) : Bool :=
  !s.conv.windowOpen && ((s.conv.records.head?.map (fun r => decide (s.lotOpening r ≤ s.conv.beltTime))).getD false)

/-- The head lot's window is to close now. -/
def State.closeReached (s : State) : Bool :=
  s.conv.windowOpen && ((s.conv.records.head?.map (fun r => decide (s.lotClose r ≤ s.conv.beltTime))).getD false)

/-- The CONVEYOR's times. -/
def State.dueConveyor (s : State) : Option Instr :=
  if s.isRole .conveyor then
    firstDue
      [(s.conv.state == .warning && s.conv.warning.out, .warningExpiry),
       (s.conv.state == .beltStarting && s.conv.beltWindow.out, .beltWindowExpiry),
       (s.conv.state == .chainStarting && s.conv.chainWindow.out, .chainWindowExpiry),
       (s.conv.state != .fault && s.conv.beltLoss.out, .beltLossExpiry),
       (s.conv.state != .fault && s.conv.chainLoss.out, .chainLossExpiry),
       (s.conv.state != .fault && s.conv.stall.out, .stallExpiry),
       (s.conv.state == .runOff && s.conv.runOff.out, .runOffExpiry),
       (s.closeReached, .lotRetirement),
       (s.openingReached, .lotWindowOpen),
       (s.conv.state.beltRuns && decide (tenth ≤ s.conv.beltPart), .beltTimeTick)]
  else none

/-- The SENT order whose limit has passed. -/
def State.orderOut (s : State) : Option PendingOrder :=
  s.panel.orders.find? fun p => (p.sent.map (fun t => decide (t.limit ≤ t.elapsed))).getD false

/-- A CAB's times. -/
def State.dueCab (s : State) : Option Instr :=
  if s.isRole .cab then
    match firstDue
      [(s.cab.horn.out, .hornTimeExpiry),
       (s.cab.vig == .running && s.cab.period.out, .vigilancePeriodExpiry),
       (s.cab.vig == .warned && s.cab.grace.out, .graceExpiry),
       (s.cab.pair.out, .vigilPairExpiry),
       (s.panel.keyWait.out, .keyReportMissing),
       (s.panel.frameTimer.out, .panelFrameSend)], s.orderOut with
    | some c, _ => some c
    | none, some p => some (.pendingOrderTimeout p.number)
    | none, none => none
  else none

/-- The sensor unit's times: due moments, stale values, and a poll that may be sent. -/
def State.dueSensor (s : State) : Option Instr :=
  let c := s.sensor.channels
  match sixteen.find? fun e => s.polledEntry e && (c.get e).next.out,
        sixteen.find? fun e => (c.get e).value.isSome && !(c.get e).stale && decide (s.staleAge e ≤ (c.get e).age) with
  | some e, _ => some (.channelDue e)
  | none, some e => some (.valueStale e)
  | none, none => if s.mayPoll then some .pollSend else none

/-- The expiry taken next when no command waits, in a fixed order (log entry 1). -/
def dueCommand (s : State) : Option Instr :=
  s.dueAlways.orElse fun _ =>
    if s.live then
      s.dueInput.orElse fun _ => s.dueLine.orElse fun _ => s.dueCutter.orElse fun _ => s.dueScrubber.orElse fun _ => s.dueConveyor.orElse fun _ =>
        s.dueCab.orElse fun _ => s.dueSensor
    else none

/-! ## One tick -/

/-- A time that is counted up to a limit. -/
def countTo (limit t : Ticks) : Ticks := min limit (t + 1)

def Spi.tick : Spi → Spi
  | .waiting n => .waiting (n - 1)
  | p => p

def ClaimUnit.tick (u : ClaimUnit) : ClaimUnit :=
  { u with window := u.window.tick, watch := u.watch.tick
           roster := u.roster.map (Option.map fun e => { e with silence := e.silence.tick }) }

/-- The time since the last STATE sent whole is held at 62.5 ms, the largest R/4. -/
def PubUnit.tick (u : PubUnit) : PubUnit :=
  { u with timer := u.timer.tick, sinceSent := u.sinceSent.map (countTo 250) }

def RecoveryUnit.tick (u : RecoveryUnit) : RecoveryUnit :=
  { u with timer := u.timer.tick, request := u.request.map fun r => { r with timer := r.timer.tick } }

/-- A tick of the dwell timer over a cell of this configured dwell (R39). The tick that brings it there leaves its unit to
DWELL_COMPLETE, so that an event taken before it stops the timer short of the dwell (R41, log entry 17). -/
def PermitUnit.work (full : Ticks) (u : PermitUnit) : PermitUnit :=
  if u.dwell + 1 < full then { u with dwell := u.dwell + 1, reached := false } else { u with reached := true }

/-- The pose ages, and the dwell while it runs (R25, R39). -/
def State.permitTick (s : State) : PermitUnit :=
  let u := { s.permit with
    ageX := countTo Config.poseLimit s.permit.ageX, ageY := countTo Config.poseLimit s.permit.ageY, superseded := false }
  match s.permit.head with
  | some c => if s.dwellRuns then u.work (s.dwellOf (s.kind c)) else u
  | none => u

/-- A tick of permit-on time (R65): a unit each 0.1 s; the last unit is taken by ALLOWANCE_EXHAUSTED. DESIGN CHOICE, log entry
17: where another reason takes the permit off at the moment the last unit is complete, R66 keeps that unit unused and is
silent on the fraction; the whole unit is carried, so that the next permit-on finds the allowance exhausted at once. -/
def DustUnit.spend (u : DustUnit) : DustUnit :=
  if u.remaining = 0 then u
  else if u.remaining = 1 then { u with fraction := countTo tenth u.fraction }
  else if u.fraction + 1 < tenth then { u with fraction := u.fraction + 1 }
  else { u with remaining := u.remaining - 1, used := u.used + 1, fraction := 0 }

/-- The period position runs to D (R62), the allowance while the permit is on. -/
def State.dustTick (s : State) : DustUnit :=
  let u := { s.dust with position := s.dust.position.map (countTo (sec s.image.period)) }
  if s.permitOn then u.spend else u

/-- The open span of an open lot, in 0.1 s, held at 65535 (R78). -/
def LotRing.tick (g : LotRing) : LotRing :=
  if g.lots.any (·.isOpen) then
    if g.spanPart + 1 < tenth then { g with spanPart := g.spanPart + 1 }
    else { g with spanPart := 0, lots := g.lots.map fun l => if l.isOpen then { l with span := min 65535 (l.span + 1) } else l }
  else g

/-- The quiet time while demand is not shown (R46). -/
def Scrubber.quietTick (u : Scrubber) : Timer := if u.demand then u.quietLeft else u.quietLeft.tick

def Scrubber.tick (u : Scrubber) : Scrubber :=
  { u with startWindow := u.startWindow.tick, proofLoss := u.proofLoss.tick, runOn := u.runOn.tick
           washTime := u.washTime.tick, settling := u.settling.tick
           quietLeft := u.quietTick }

/-- The conveyor's times, and belt time while the belt runs (R85). -/
def Conveyor.tick (u : Conveyor) : Conveyor :=
  { u with warning := u.warning.tick, beltWindow := u.beltWindow.tick, chainWindow := u.chainWindow.tick
           runOff := u.runOff.tick, beltLoss := u.beltLoss.tick, chainLoss := u.chainLoss.tick, stall := u.stall.tick
           beltPart := if u.state.beltRuns then countTo tenth u.beltPart else u.beltPart }

def CabUnit.tick (u : CabUnit) : CabUnit :=
  { u with horn := u.horn.tick, period := u.period.tick, grace := u.grace.tick, pair := u.pair.tick, superseded := false }

def PanelUnit.tick (u : PanelUnit) : PanelUnit :=
  { u with frameTimer := u.frameTimer.tick, keyWait := u.keyWait.tick
           orders := u.orders.map fun p => { p with sent := p.sent.map fun t => { t with elapsed := countTo t.limit t.elapsed } } }

/-- Ages run on from a good answer (R185), due moments to their end (R182). -/
def State.sensorTick (s : State) : SensorUnit :=
  { s.sensor with channels := s.sensor.channels.map fun c =>
      { c with next := c.next.tick, age := if c.value.isSome then c.age + 1 else c.age } }

/-- A tick at a station whose blocks run; each role's units run in stations of that role. -/
def liveTick (s : State) : State :=
  let s := debounceTick s
  let s' := { s with claim := s.claim.tick, pub := s.pub.tick, sensor := s.sensorTick }
  match s.role with
  | some .cutter =>
    { s' with recovery := s.recovery.tick, permit := s.permitTick, dust := s.dustTick, ring := s.ring.tick }
  | some .scrubber => { s' with scrub := s.scrub.tick }
  | some .conveyor => { s' with conv := s.conv.tick }
  | some .cab => { s' with cab := s.cab.tick, panel := s.panel.tick }
  | none => s'

/-- Every item stays at its power-on value: RESET is held (R191), or START has failed (R194). -/
def State.keptAtPowerOn (s : State) : Bool := s.resetHeld || s.line.cause == some .config

/-- A tick in START and INACTIVE. Of the units' times the quiet time alone counts on, in every line state of a SCRUBBER
(R46); it stays at 0 where every item stays at its power-on value. -/
def restTick (s : State) : State :=
  if s.keptAtPowerOn then s else s.withScrub fun u => { u with quietLeft := u.quietTick }

/-- What a tick brings in every line state: the STATUS pattern, the memory's wait, and the end of the moment (log entry 6). -/
def partTick (s : State) : State :=
  { s with
    status := { s.status with timer := s.status.timer.tick }, spi := if s.starting then s.spi.tick else s.spi
    restarted := [] }

/-- One tick of 250 microseconds. -/
def passTick (s : State) : State := if s.live then liveTick (partTick s) else restTick (partTick s)

end Sys2Proof.Machine
end

