-- ==== Sys2Proof/Machine/Dispatch.lean ====
section
/-! DEFINITION. One arm per command: each calls the command's meaning. -/

namespace Sys2Proof.Machine

def exec (i : Instr) (s : State) : Host.Outcome State Fault Refusal :=
  match i with
  | .powerOn straps => Sys2Proof.Machine.execPowerOn straps s
  | .resetAssert => Sys2Proof.Machine.execResetAssert s
  | .imageReadStart => Sys2Proof.Machine.execImageReadStart s
  | .imageReadComplete bytes => Sys2Proof.Machine.execImageReadComplete bytes s
  | .statusPatternStep => Sys2Proof.Machine.execStatusPatternStep s
  | .lineGap => Sys2Proof.Machine.execLineGap s
  | .contentionDelayEnd => Sys2Proof.Machine.execContentionDelayEnd s
  | .arbitrationLost character => Sys2Proof.Machine.execArbitrationLost character s
  | .sendError character => Sys2Proof.Machine.execSendError character s
  | .frameRejected chars => Sys2Proof.Machine.execFrameRejected chars s
  | .stateSentWhole => Sys2Proof.Machine.execStateSentWhole s
  | .orderSentWhole => Sys2Proof.Machine.execOrderSentWhole s
  | .claimSentWhole => Sys2Proof.Machine.execClaimSentWhole s
  | .mapSentWhole => Sys2Proof.Machine.execMapSentWhole s
  | .tripSentWhole => Sys2Proof.Machine.execTripSentWhole s
  | .claimTaken sender payload => Sys2Proof.Machine.execClaimTaken sender payload s
  | .claimWindowExpiry => Sys2Proof.Machine.execClaimWindowExpiry s
  | .lineSilenceWatchExpiry => Sys2Proof.Machine.execLineSilenceWatchExpiry s
  | .silenceTimerExpiry station => Sys2Proof.Machine.execSilenceTimerExpiry station s
  | .stateTaken sender payload => Sys2Proof.Machine.execStateTaken sender payload s
  | .tripTaken sender payload => Sys2Proof.Machine.execTripTaken sender payload s
  | .mapTaken sender payload => Sys2Proof.Machine.execMapTaken sender payload s
  | .mapRequestTimeout => Sys2Proof.Machine.execMapRequestTimeout s
  | .recoveryExpiry => Sys2Proof.Machine.execRecoveryExpiry s
  | .publicationTimerExpiry => Sys2Proof.Machine.execPublicationTimerExpiry s
  | .earlyStatePlace => Sys2Proof.Machine.execEarlyStatePlace s
  | .tagFirst sender number args => Sys2Proof.Machine.execTagFirst sender number args s
  | .tagLast sender number args => Sys2Proof.Machine.execTagLast sender number args s
  | .release sender number => Sys2Proof.Machine.execRelease sender number s
  | .withdraw sender number => Sys2Proof.Machine.execWithdraw sender number s
  | .protect sender number args => Sys2Proof.Machine.execProtect sender number args s
  | .unprotect sender number args => Sys2Proof.Machine.execUnprotect sender number args s
  | .advance sender number => Sys2Proof.Machine.execAdvance sender number s
  | .washNow sender number => Sys2Proof.Machine.execWashNow sender number s
  | .scrubReset sender number => Sys2Proof.Machine.execScrubReset sender number s
  | .conveyOn sender number => Sys2Proof.Machine.execConveyOn sender number s
  | .conveyOff sender number => Sys2Proof.Machine.execConveyOff sender number s
  | .conveyReset sender number => Sys2Proof.Machine.execConveyReset sender number s
  | .mapRequest sender number => Sys2Proof.Machine.execMapRequest sender number s
  | .ack sender number args => Sys2Proof.Machine.execAck sender number args s
  | .clearFault sender number => Sys2Proof.Machine.execClearFault sender number s
  | .relink sender number => Sys2Proof.Machine.execRelink sender number s
  | .orderUnknownKind sender number kind => Sys2Proof.Machine.execOrderUnknownKind sender number kind s
  | .orderOtherTarget sender target => Sys2Proof.Machine.execOrderOtherTarget sender target s
  | .cutRequestChange active => Sys2Proof.Machine.execCutRequestChange active s
  | .headRunningChange active => Sys2Proof.Machine.execHeadRunningChange active s
  | .poseExpiry => Sys2Proof.Machine.execPoseExpiry s
  | .dwellComplete => Sys2Proof.Machine.execDwellComplete s
  | .periodStart => Sys2Proof.Machine.execPeriodStart s
  | .midPeriodLowering => Sys2Proof.Machine.execMidPeriodLowering s
  | .allowanceExhausted => Sys2Proof.Machine.execAllowanceExhausted s
  | .fanProvenChange active => Sys2Proof.Machine.execFanProvenChange active s
  | .sprayPressureChange active => Sys2Proof.Machine.execSprayPressureChange active s
  | .startWindowExpiry => Sys2Proof.Machine.execStartWindowExpiry s
  | .proofLossExpiry => Sys2Proof.Machine.execProofLossExpiry s
  | .runOnExpiry => Sys2Proof.Machine.execRunOnExpiry s
  | .quietTime10s => Sys2Proof.Machine.execQuietTime10s s
  | .washTimeExpiry => Sys2Proof.Machine.execWashTimeExpiry s
  | .settlingExpiry => Sys2Proof.Machine.execSettlingExpiry s
  | .beltProvenChange active => Sys2Proof.Machine.execBeltProvenChange active s
  | .chainProvenChange active => Sys2Proof.Machine.execChainProvenChange active s
  | .pullWireChange active => Sys2Proof.Machine.execPullWireChange active s
  | .warningExpiry => Sys2Proof.Machine.execWarningExpiry s
  | .beltWindowExpiry => Sys2Proof.Machine.execBeltWindowExpiry s
  | .chainWindowExpiry => Sys2Proof.Machine.execChainWindowExpiry s
  | .beltLossExpiry => Sys2Proof.Machine.execBeltLossExpiry s
  | .chainLossExpiry => Sys2Proof.Machine.execChainLossExpiry s
  | .stallExpiry => Sys2Proof.Machine.execStallExpiry s
  | .runOffExpiry => Sys2Proof.Machine.execRunOffExpiry s
  | .beltTimeTick => Sys2Proof.Machine.execBeltTimeTick s
  | .lotWindowOpen => Sys2Proof.Machine.execLotWindowOpen s
  | .lotRetirement => Sys2Proof.Machine.execLotRetirement s
  | .hornTimeExpiry => Sys2Proof.Machine.execHornTimeExpiry s
  | .vigilancePeriodExpiry => Sys2Proof.Machine.execVigilancePeriodExpiry s
  | .graceExpiry => Sys2Proof.Machine.execGraceExpiry s
  | .vigilPairExpiry => Sys2Proof.Machine.execVigilPairExpiry s
  | .panelFrameSend => Sys2Proof.Machine.execPanelFrameSend s
  | .keyReport bytes => Sys2Proof.Machine.execKeyReport bytes s
  | .keyReportMissing => Sys2Proof.Machine.execKeyReportMissing s
  | .keyPage => Sys2Proof.Machine.execKeyPage s
  | .keyUp => Sys2Proof.Machine.execKeyUp s
  | .keyDown => Sys2Proof.Machine.execKeyDown s
  | .keyLeft => Sys2Proof.Machine.execKeyLeft s
  | .keyRight => Sys2Proof.Machine.execKeyRight s
  | .keySelect => Sys2Proof.Machine.execKeySelect s
  | .keyRelease => Sys2Proof.Machine.execKeyRelease s
  | .keyWithdraw => Sys2Proof.Machine.execKeyWithdraw s
  | .keyProtect => Sys2Proof.Machine.execKeyProtect s
  | .keyAdvance => Sys2Proof.Machine.execKeyAdvance s
  | .keyAck => Sys2Proof.Machine.execKeyAck s
  | .keyVigilA => Sys2Proof.Machine.execKeyVigilA s
  | .keyVigilB => Sys2Proof.Machine.execKeyVigilB s
  | .pendingOrderTimeout number => Sys2Proof.Machine.execPendingOrderTimeout number s
  | .channelDue entry => Sys2Proof.Machine.execChannelDue entry s
  | .pollSend => Sys2Proof.Machine.execPollSend s
  | .quietWaitEnd => Sys2Proof.Machine.execQuietWaitEnd s
  | .answerTimeout => Sys2Proof.Machine.execAnswerTimeout s
  | .gapLimitExpiry => Sys2Proof.Machine.execGapLimitExpiry s
  | .sensorCharacter data parity stopMark => Sys2Proof.Machine.execSensorCharacter data parity stopMark s
  | .sensorBreak => Sys2Proof.Machine.execSensorBreak s
  | .valueStale entry => Sys2Proof.Machine.execValueStale entry s

end Sys2Proof.Machine
end

