-- ==== Sys2Proof/Machine/Wires.lean ====
section
/-! DEFINITION. What stands on the wires and pins: the order of bits in a byte (R197), the characters of the machine line
(R130) and the sensor line (R179), the clocked links (R200, R201), and pin levels (R196). A level is true for high, mark
and recessive; a bit is true for 1. -/

namespace Sys2Proof.Machine

/-! ## Order of bits -/

/-- The bits of a byte, most significant first: machine line, panel link, configuration port (R197). -/
def bitsFromTop (b : Byte) : List Bool := [7, 6, 5, 4, 3, 2, 1, 0].map b.getLsbD

/-- The bits of a byte, least significant first: sensor line (R197). -/
def bitsFromBottom (b : Byte) : List Bool := [0, 1, 2, 3, 4, 5, 6, 7].map b.getLsbD

/-- The bits of several bytes in a row, each most significant first. -/
def bytesFromTop (bytes : List Byte) : List Bool := bytes.flatMap bitsFromTop

/-! ## The machine line (R129, R130) -/

/-- A character: dominant start bit, 8 data bits, recessive stop bit. -/
def lineCharacter (b : Byte) : List Bool := false :: bitsFromTop b ++ [true]

/-- The bits of a frame of station `n`, its characters back to back. -/
def OutFrame.bits (n : Station) (f : OutFrame) : List Bool := (f.bytes n).flatMap lineCharacter

/-- The bit rate in kbit/s that the image's line rate code gives. -/
def Image.bitRate (i : Image) : Nat := 125 * 2 ^ i.lineRate

/-- One bit time, in microseconds. -/
def Image.bitTime (i : Image) : Nat := 1000 / i.bitRate

/-- The part pulls LINE dominant only for a dominant bit of a frame that it sends; it never does in START, WITHDRAWN and
INACTIVE, nor while RESET is held (R129, R196). -/
def State.pullsLine (s : State) (bit : Bool) : Bool := s.drives && s.line.sending.isSome && !bit

/-! ## The sensor line (R179) -/

/-- The even parity bit of the data bits. -/
def parityBit (data : Byte) : Bool := (bitsFromBottom data).foldl xor false

/-- A character: start bit at space, 8 data bits, the parity bit when enabled, stop bit at mark. -/
def sensorCharacter (parityOn : Bool) (data : Byte) : List Bool :=
  false :: bitsFromBottom data ++ (if parityOn then [parityBit data] else []) ++ [true]

/-- The baud rate that the image's rate code gives. -/
def StationCfg.baud (c : StationCfg) : Nat :=
  match c.sensorRate with
  | 0 => 9600
  | 1 => 19200
  | 2 => 38400
  | 3 => 57600

/-- One character time in bit times. -/
def StationCfg.characterBits (c : StationCfg) : Nat := if c.parity then 11 else 10

/-- The level at which each of the two wires rests: mark. DESIGN CHOICE, log entry 48: the send wire rests so while RESET is
held too. -/
def sensorRest : Bool := true

/-- The poll on the send wire: one character holding the channel address of the entry polled (R182); none while no poll is
outstanding, when the wire rests. -/
def State.pollCharacter (s : State) : Option (List Bool) :=
  s.sensor.polled.map fun e => sensorCharacter s.cfg.parity (s.cfg.channels.get e).address

/-! ## The clocked links (R200, R201) -/

/-- PSEL between panel frames, while a key report is clocked in and at rest: inactive, high. DESIGN CHOICE, log entry 48:
while RESET is held too. -/
def pselRest : Bool := true

/-- The level of PCK and of SCK while no byte is clocked: low. -/
def clockRest : Bool := false

/-- The levels a clock takes in one bit: low, then high from the rising edge on. -/
def clockCycle : List Bool := [false, true]

/-- Clock and data of one bit: presented while the clock is low, held over the rising edge that belongs to it. -/
def clockedBit (b : Bool) : List (Bool × Option Bool) := clockCycle.map fun c => (c, some b)

/-- Clock and data of bytes, most significant bit first. -/
def clockedBytes (bytes : List Byte) : List (Bool × Option Bool) := (bytesFromTop bytes).flatMap clockedBit

/-- Clock and data at rest: the clock low, no bit presented. -/
def clockIdle : Bool × Option Bool := (clockRest, none)

/-- PSEL, PCK and PDO while a panel frame is clocked out, and after it: PSEL, active low, stands active throughout, then
inactive, and PCK returns to its rest. -/
def PanelFrame.wave (f : PanelFrame) : List (Bool × Bool × Option Bool) :=
  (clockedBytes f.bytes).map (fun x => (false, x)) ++ [(pselRest, clockIdle)]

/-- The PCK rate in kHz, and the SCK rate in kHz (chapter 12, R191). -/
def pckRate : Nat := 1000
def sckRate : Nat := 2000

/-- PCK is clocked for a key report: from the end of the frame to the last check byte of a report, or to the end of the
50 ms. At every other moment between frames it rests low. -/
def State.pckRuns (s : State) : Bool := s.panel.keyWait.isSome && s.panel.clocking

/-- The levels PCK takes between panel frames: cycle after cycle while a key report is clocked in, else its rest (R200). -/
def State.pckLevels (s : State) : List Bool := if s.pckRuns then clockCycle else [clockRest]

/-- What the part sends on MOSI to begin the read: the read command and the 24-bit address 0. -/
def readCommand : List Byte := [0x03, 0x00, 0x00, 0x00]

/-- CS is active while the image is read. -/
def State.memorySelected (s : State) : Bool := s.spi == .reading

/-- The level of CS, active low. DESIGN CHOICE, log entry 48: inactive, high, while RESET is held too. -/
def State.csLevel (s : State) : Bool := !s.memorySelected

/-- The levels SCK takes: cycle after cycle while the image is read, else its rest (R201). -/
def State.sckLevels (s : State) : List Bool := if s.memorySelected then clockCycle else [clockRest]

/-- SCK and MOSI at the start of the read; at rest while no read runs. -/
def State.readWave (s : State) : List (Bool × Option Bool) := if s.memorySelected then clockedBytes readCommand else [clockIdle]

/-- The bits clocked in a read to the last check byte: command, address and image. -/
def readBits : Nat := 8 * (readCommand.length + imageLength)

/-! ## What the part reads on the clocked links (R200, R201)

A wave is the levels of the clock and of the data wire, moment by moment. -/

/-- The bits read from a wave: the level of the data wire at each rising edge of the clock, which stood at `before`. -/
def sampledFrom (before : Bool) : List (Bool × Bool) → List Bool
  | [] => []
  | (clock, data) :: more =>
    if clock && !before then data :: sampledFrom clock more else sampledFrom clock more

/-- Bits gathered into bytes, the first of eight most significant (R197); a byte that is not clocked to its end is none. -/
def bytesOfBits : List Bool → List Byte
  | b7 :: b6 :: b5 :: b4 :: b3 :: b2 :: b1 :: b0 :: more =>
    BitVec.ofBoolListBE [b7, b6, b5, b4, b3, b2, b1, b0] :: bytesOfBits more
  | _ => []

/-- The bytes read from a wave that begins with the clock at its rest. -/
def sampledBytes (wave : List (Bool × Bool)) : List Byte := bytesOfBits (sampledFrom clockRest wave)

/-- KEY_REPORT as PCK and PDI bring it, from the moment at which PSEL goes inactive: the part samples PDI at the rising edges of
PCK (R200). DESIGN CHOICE, log entry 61: bytes count from the first of these. -/
def keyReportRead (wave : List (Bool × Bool)) : Instr := .keyReport (sampledBytes wave)

/-- What MISO reads: its level, and 1 where nothing drives it, through the pull-up (R201). -/
def misoReads (level : Option Bool) : Bool := level.getD true

/-- IMAGE_READ_COMPLETE as SCK and MISO bring it, from the moment at which CS goes active: the part samples MISO at the rising
edges of SCK, and what it samples while it sends command and address is no byte of the image (R201). -/
def imageRead (wave : List (Bool × Option Bool)) : Instr :=
  .imageReadComplete ((sampledBytes (wave.map fun x => (x.1, misoReads x.2))).drop readCommand.length)

/-! ## Pins (R195, R196) -/

/-- What an open input reads: high, through its pull-up, and so inactive. -/
def openPin : Pin := { high := true, left := none }

/-- P0 to P3 as the harness sees them: an active output conducts to ground, an inactive one is released. -/
def State.conducting (s : State) : List Bool :=
  let (p0, p1, p2, p3) := s.outputs
  [p0, p1, p2, p3]

/-- The level of STATUS, active high; it is driven in RESET as well. -/
def State.statusLevel (s : State) : Bool := s.statusOn

end Sys2Proof.Machine
end

