-- ==== Sys2Proof/Safety.lean ====
section
/-! DEFINITION. What the part must hold at every moment, as predicates of a state: the permit against its hold reasons,
the display list against its candidates, the STATUS code, the lot ring, the conditions of the notices; and the part of a
state that the end of an event leaves as it stands. -/

namespace Sys2Proof.Machine

/-- The permit of a live CUTTER: the hold reasons held are those R28 to R33 give now, and while the permit is FREE or TRIM
none is set and the state is the one the head cell's kind gives (R34, R35). -/
def State.PermitSound (s : State) : Prop :=
  s.live = true → s.isRole .cutter = true →
    s.permit.reasons = s.reasonsNow ∧
      (s.permitOn = true → s.permit.reasons.none = true ∧ s.permit.state = s.onState)

/-- The own notice queue in order (R92 to R96): the raise order names each occupied slot once, one code stands in one slot,
and a code that waits stands in none. -/
def NoticeQueue.Sound (q : NoticeQueue) : Prop :=
  q.order.Nodup ∧ (∀ i, i ∈ q.order ↔ (q.slots.get i).isSome = true) ∧
    (∀ i j x y, q.slots.get i = some x → q.slots.get j = some y → x.code = y.code → i = j) ∧
    ∀ i x, q.slots.get i = some x → q.waiting.get x.code.index = false

/-- One code stands in one slot of a replica (R101). -/
def Replica.Sound (r : Replica) : Prop :=
  ∀ i j x y, r.slots.get i = some x → r.slots.get j = some y → x.code = y.code → i = j

/-- No two candidates have one owner and one code (R101). -/
def DistinctCands (cands : List Cand) : Prop := (cands.map fun c => (c.owner, c.entry.code)).Nodup

/-- A candidate's place by class, TRIP first, then unacknowledged before acknowledged (R102). -/
def Cand.rank (c : Cand) : Nat := 2 * c.entry.cls.toNat + if c.entry.state = NoticeState.acked.code then 1 else 0

/-- The list of R102: the candidates sorted by class and acknowledgement, those of one class and acknowledgement in the order
in which they stand among the candidates, which is that of arrival; of these the first 32. -/
def ListsCands (list cands : List Cand) : Prop :=
  ∃ sorted : List Cand, sorted.Perm cands ∧ sorted.Pairwise (fun a b => a.rank ≤ b.rank) ∧
    (∀ r, sorted.filter (·.rank == r) = cands.filter (·.rank == r)) ∧ list = sorted.take 32

/-- Queue, replicas and candidates in order; and the display of a live CAB: its candidates are the occupied slots of R101, each
once, and its list is theirs in the order of R102 (R103). -/
def State.DisplaySound (s : State) : Prop :=
  s.notices.Sound ∧ (∀ n, (s.replica n).Sound) ∧ DistinctCands s.cab.cands ∧
    (s.live = true → s.isRole .cab = true →
      s.cab.cands.Perm s.candidatesNow ∧ ListsCands s.cab.list s.cab.cands)

/-- The STATUS output shows the code of the line state (R195). -/
def State.StatusSound (s : State) : Prop := s.status.code = s.statusCode

/-- The lot ring (R78 to R82): at most 16 lots, numbered in a row from the retired count held up to lots issued, and at most
one lot open, the newest. -/
def LotRing.Sound (g : LotRing) : Prop :=
  g.lots.length ≤ 16 ∧ g.issued = g.retiredHeld + BitVec.ofNat 16 g.lots.length ∧
    ∀ (i : Nat) (l : Lot), g.lots[i]? = some l →
      l.number = g.retiredHeld + BitVec.ofNat 16 i ∧ (l.isOpen = true → i + 1 = g.lots.length)

/-- The condition of each notice as the catalogue and the rule it cites give it (R93); that of "PROFILE BREACH" is judged by
the permit unit (R37). -/
def State.CatalogueSays (s : State) : NoticeCode → Prop
  | .profileBreach => False
  | .faceComplete => s.isRole .cutter = true ∧ s.faceComplete = true
  | .spoilAccountLost => s.isRole .cutter = true ∧ s.ring.accountLost = true
  | .mapRestored => s.isRole .cutter = true ∧ s.recovery.restored = true
  | .mapLost => s.isRole .cutter = true ∧ s.recovery.state = .lost ∧ s.recovery.lostAcked = false
  | .fanFault => s.isRole .scrubber = true ∧ s.scrub.fan = .fault
  | .filterNotCleared => s.isRole .scrubber = true ∧ s.scrub.wash = .uncleared
  | .washAborted => s.isRole .scrubber = true ∧ s.scrub.washAborted = true
  | .dustAction => s.isRole .scrubber = true ∧ s.scrub.dustAction = true
  | .dustLimit => s.isRole .scrubber = true ∧ s.scrub.dustLimit = true
  | .pullWire => s.isRole .conveyor = true ∧ s.inputs.i2 = true
  | .faceFall => s.isRole .conveyor = true ∧ s.conv.windowOpen = true ∧ ∃ r queued, s.conv.records = r :: queued ∧
      s.image.fallLevel * r.lot.expected.toNat ≤ 10 * r.measured
  | .conveyorFault => s.isRole .conveyor = true ∧ s.conv.state = .fault ∧ s.conv.fault = some .windowOrLoss
  | .chainStall => s.isRole .conveyor = true ∧ s.conv.state = .fault ∧ s.conv.fault = some .stall
  | .overbreakSuspected => s.isRole .conveyor = true ∧ s.conv.overSeen = true
  | .spoilShort => s.isRole .conveyor = true ∧ s.conv.shortSeen = true
  | .straySpoil => s.isRole .conveyor = true ∧ 10 * s.image.strayLimit < s.conv.stray
  | .vigilanceLapsed => s.isRole .cab = true ∧ s.cab.vig = .lapsed
  | .vigilance => s.isRole .cab = true ∧ (s.cab.vig = .warned ∨ s.cab.vig = .lapsed)
  | .stationSilent => s.isRole .cab = true ∧ ∃ n, s.entryState n = some .silent
  | .panelLost => s.isRole .cab = true ∧ s.panel.up = false
  | .answerMissing => s.isRole .cab = true ∧ s.panel.answerMissing = true
  | .lineWarning => s.image.warningLevel ≤ s.line.sfc ∨ s.image.warningLevel ≤ s.line.hfc
  | .lineQuiet => s.line.state = .quiet
  | .lineLate => 3 ≤ s.pub.late
  | .ordersDropped => s.pub.dropped = true
  | .channelFault => ∃ e, (s.sensor.channels.get e).state = .fault
  | .sensorLineBreak => s.sensor.broken = true

/-- The conditions as last judged are those of the catalogue, at a station that is live (R93). -/
def State.NoticesJudged (s : State) : Prop :=
  s.live = true → ∀ c, c ≠ .profileBreach → (s.notices.holds.get c.index = true ↔ s.CatalogueSays c)

/-! ## What follows an event, and the rest

The end of an event (`finish`) makes some parts of the state follow the others (R34, R93, R103, R123, R132, R163, R195).
`rest` gives each of those parts a fixed value, by the role that has it; two states with one `rest` are equal in all else. -/

/-- The line unit without what waits, is sent, or was last seen. -/
def LineUnit.rest (u : LineUnit) : LineUnit :=
  { u with trip := [], order := none, stateSlot := none, sending := none, bus := .busy }

/-- The publication unit without its build count, rolling indexes and early requests. -/
def PubUnit.rest (u : PubUnit) : PubUnit :=
  { u with builds := 0, rollRow := 0, rollSlot := 0, early := false, asked := false }

/-- The permit unit without state, reasons, the breach mark and the mark of a completing dwell: pose, head cell and dwell. -/
def PermitUnit.rest (u : PermitUnit) : PermitUnit :=
  { u with state := .held, reasons := PermitUnit.reset.reasons, breachEntered := false, reached := false }

/-- The lot ring without the lots' states: commits follow the permit (R80). -/
def LotRing.rest (g : LotRing) : LotRing := { g with lots := g.lots.map fun l => { l with isOpen := false } }

/-- Recovery without the request it makes. -/
def RecoveryUnit.rest (u : RecoveryUnit) : RecoveryUnit := { u with request := none, counter := 0, source := none }

/-- The scrubber's values and level conditions. -/
def Scrubber.rest (u : Scrubber) : Scrubber :=
  { u with fan := .stopped, wash := .clear, demand := false, quietLeft := none, startWindow := none, proofLoss := none,
           runOn := none, washTime := none, settling := none, washAborted := false }

/-- The conveyor's values, lots, tally and fault cause. -/
def Conveyor.rest (u : Conveyor) : Conveyor :=
  { u with state := .stopped, runDemand := false, warning := none, beltWindow := none, chainWindow := none,
           runOff := none, beltLoss := none, chainLoss := none, stall := none }

/-- The part of a state that the end of an event leaves as it stands. -/
def State.rest (s : State) : State :=
  { s with
    restarted := []
    status := (State.powerOn 0 0 []).status
    notices := .reset
    line := s.line.rest
    pub := s.pub.rest
    permit := if s.isRole .cutter then s.permit.rest else s.permit
    ring := if s.isRole .cutter then s.ring.rest else s.ring
    recovery := if s.isRole .cutter then s.recovery.rest else s.recovery
    scrub := if s.isRole .scrubber then s.scrub.rest else s.scrub
    conv := if s.isRole .conveyor then s.conv.rest else s.conv
    cab := if s.isRole .cab then .reset else s.cab
    panel := if s.isRole .cab then { s.panel with offer := none } else s.panel }

end Sys2Proof.Machine
end

