-- ==== Sys2Proof/WellFormed.lean ====
section
/-! DEFINITION. Which operands an event of the kind can bring. A meaning takes every operand (an ill-formed one is a
frame no receiver hands on, log entry 9); the statements that need a bound say so through these checks. -/

namespace Sys2Proof

open Machine

/-- The argument bytes an ORDER payload can carry: 64 bytes less target, number and kind (R131). -/
def argsFit (args : List Byte) : Bool := args.length ≤ 61

/-- An image read ends within the 788 bytes of the layout (R192). -/
def imageFits (bytes : List Byte) : Bool := bytes.length ≤ 788

/-- A frame has at most 68 characters (R131). -/
def frameFits (chars : List LineChar) : Bool := chars.length ≤ 68

/-- A kind that belongs to no role: 0 and 17 to 255 (R170). -/
def kindUnknown (kind : Byte) : Bool := (OrderKind.ofCode kind).isNone

/-- A STATUS record whose role part is that of its role byte, as every STATUS entry on the wire is read (R168). -/
def statusFits (r : StatusRecord) : Bool :=
  match Role.ofCode r.common.role with
  | some q => r.part.hasRole q
  | none => r.part == .none

/-- An entry whose bytes name it: of a STATUS, role byte and part agree; any other always does. -/
def entryFits : Entry → Bool
  | .status r => statusFits r
  | _ => true

/-- The operands fit the command. -/
def Instr.wellFormed : Instr → Bool
  | .imageReadComplete bytes => imageFits bytes
  | .frameRejected chars => frameFits chars
  | .claimTaken _ payload => payloadFits .claim payload
  | .stateTaken _ payload => payloadFits .state payload
  | .tripTaken _ payload => payloadFits .trip payload
  | .mapTaken _ payload => payloadFits .map payload
  | .tagFirst _ _ args | .tagLast _ _ args | .protect _ _ args | .unprotect _ _ args | .ack _ _ args => argsFit args
  | .orderUnknownKind _ _ kind => kindUnknown kind
  | _ => true

end Sys2Proof
end

