-- ==== Sys2Proof/Certificates/Slice0/Obligations.lean ====
section
/-! DEFINITION. The statements for the provers. `t.rest` is the state without what the end of every event makes follow
(Safety.lean); an equation of rests says what a command leaves unchanged everywhere else. `acceptFrame sender s` is the
state once a frame of that sender is accepted (R137, R150, R156), which comes before what the frame carries. `s.hears`: the blocks
run and the line unit does not await a gap, so that a frame is received (R133, R136); what a frame does that comes in the wait
is stated in LineFaultsCount. -/

open Sys2Proof Sys2Proof.Machine

/-! ## The queue and the step -/

def Obligations.StepTakesFront : Prop :=
  ∀ (c : Instr) (queue : List Instr) (s : State),
    step { s with pending := c :: queue } = exec c { s with pending := queue }

/-- Also the model's choice of log entry 25: POWER_ON and RESET_ASSERT keep the queue. -/
def Obligations.ExecAnswersNext : Prop :=
  ∀ (c : Instr) (s : State), ∃ t, exec c s = .next t ∧ t.pending = s.pending

/-- The model's choice, log entry 1. -/
def Obligations.IdleTakesDueOrTick : Prop :=
  ∀ s : State, s.pending = [] →
    step s = match dueCommand s with
      | some c => exec c s
      | none => .next (passTick s)

/-! ## Invariants -/

def Obligations.PermitSoundKept : Prop :=
  ∀ s t : State, s.PermitSound → step s = .next t → t.PermitSound

def Obligations.PermitOnNeedsNoReason : Prop :=
  (∀ s : State, s.line.state = .start ∨ s.line.state = .inactive → s.outputs = (false, false, false, false)) ∧
  ∀ s t : State, s.PermitSound → step s = .next t → t.isRole .cutter = true → t.outputs.1 = true →
    t.reasonsNow.none = true ∧ t.permit.state = t.onState ∧
      (t.outputs.2.1 = true ↔ t.permit.head.map t.kind = some .trim) ∧ t.outputs.2.2.1 = false

/-- `DisplaySound` (Safety.lean): the candidates of a live CAB are the occupied slots of its own queue and of the replicas of its
PRESENT and SILENT stations, each once and no two of one owner and code; the list is the first 32 of them, sorted by class
and acknowledgement, those of one class and acknowledgement by arrival. The order of the queue, of the replicas and of the
candidates that it rests on holds in every line state and role. -/
def Obligations.DisplaySoundKept : Prop :=
  ∀ s t : State, s.DisplaySound → step s = .next t → t.DisplaySound

def Obligations.StatusSoundKept : Prop :=
  ∀ s t : State, s.StatusSound → step s = .next t → t.StatusSound

/-- The ring takes no lot beyond its 16 because a sound permit is HELD on SPOIL there. -/
def Obligations.LotRingSoundKept : Prop :=
  ∀ s t : State, s.PermitSound → s.ring.Sound → step s = .next t → t.ring.Sound

def Obligations.SoundAtReset : Prop :=
  State.reset.PermitSound ∧ State.reset.DisplaySound ∧ State.reset.StatusSound ∧ State.reset.ring.Sound

def Obligations.AllowanceRisesAtPeriodStart : Prop :=
  ∀ s t : State, step s = .next t → s.dust.remaining < t.dust.remaining →
    t.dust.position = some 0 ∧ t.dust.used = 0 ∧ t.dust.fraction = 0 ∧ t.dust.remaining = 10 * t.capacityRead

/-! ## Layouts -/

def Obligations.StatePayloadReadsBack : Prop :=
  (∀ (e : Entry) (more : List Byte), entryFits e = true → readEntry (e.bytes ++ more) = some (e, more)) ∧
  ∀ entries : List Entry, (∀ e ∈ entries, entryFits e = true) →
    readEntries (entries.flatMap Entry.bytes) = entries

def Obligations.FramePayloadsReadBack : Prop :=
  (∀ c : ClaimFrame, readClaim c.bytes = some c) ∧ (∀ n : NoticeEntry, readTrip n.bytes = some n) ∧
    (∀ (r : RowEntry) (more : List Byte), readRow (r.bytes ++ more) = some (r, more)) ∧
    ∀ before codes : List Byte, (∀ b ∈ before, b ≠ 0xA6) → codes.length ≤ 4 →
      readKeyReport (before ++ keyReportBytes codes) = some codes

def Obligations.OwnFramePassesEveryCheck : Prop :=
  ∀ (n : Station) (f : OutFrame), payloadFits f.cls f.payload = true →
    checkFrame ((f.bytes n).map fun b => { data := b, stopOk := true }) = none

/-- R198: the register steps, the check value of the nine characters, the bytes covered, and the receivers' comparison. -/
def Obligations.CheckIsTheStatedSum : Prop :=
  (∀ bytes : List Byte, crc16 bytes = bytes.foldl (fun (r : BitVec 16) (b : Byte) =>
      (List.range 8).foldl (fun (r : BitVec 16) _ => if r.msb then (r <<< 1) ^^^ 0x1021 else r <<< 1)
        (r ^^^ (b.setWidth 16 <<< 8))) 0xFFFF) ∧
  crc16 [0x31, 0x32, 0x33, 0x34, 0x35, 0x36, 0x37, 0x38, 0x39] = 0x29B1 ∧
  (∀ (n : Station) (f : OutFrame),
    ∃ covered, f.bytes n = covered ++ be16 (crc16 covered) ∧ covered.length = 2 + f.payload.length) ∧
  (∀ f : PanelFrame, ∃ covered, f.bytes = 0x5A :: covered ++ be16 (crc16 covered)) ∧
  (∀ b : List Byte, imageSound b = true → (b.drop 786).take 2 = be16 (crc16 (b.take 786))) ∧
  (∀ (chars : List LineChar), checkFrame chars = none → ∃ length covered after, chars[1]? = some length ∧
    covered.length = 2 + length.data.toNat ∧ chars.map (·.data) = covered ++ be16 (crc16 covered) ++ after) ∧
  (∀ bytes codes : List Byte, readKeyReport bytes = some codes → ∃ before after,
    bytes = before ++ [0xA6, BitVec.ofNat 8 codes.length] ++ codes
      ++ be16 (crc16 (BitVec.ofNat 8 codes.length :: codes)) ++ after)

/-- R199, with the assembly in CHECK: the answer is good only when the character equals the value. -/
def Obligations.SensorCheckIsTheStatedValue : Prop :=
  (∀ channel high low : Byte, sensorCheck channel high low = ~~~ (channel ^^^ high ^^^ low)) ∧
  sensorCheck 0x10 0x01 0x23 = 0xCD ∧
  ∀ (s : State) (e : Fin 16) (high low b : Byte) (parity : Bool),
    s.live = true → s.sensor.polled = some e → s.sensor.assembly = .check high low →
    characterValid s.cfg.parity b parity true = true →
    ∃ t, exec (.sensorCharacter b parity true) s = .next t ∧ t.sensor.polled = none ∧ t.sensor.assembly = .hunt ∧
      if b = sensorCheck (s.cfg.channels.get e).address high low then
        t.sensor.channels.get e = goodChannel (high ++ low) (s.sensor.channels.get e) ∧ t.sensor.quietWait = s.sensor.quietWait
      else t.sensor.channels.get e = countMiss (s.sensor.channels.get e) ∧ t.sensor.quietWait = true

/-! ## Start-up -/

/-- The model's choices in it, not rules of the spec: the queue is kept (log entry 25), the levels outside at the input pins
stay (log entry 28), the image is blank until START ends (log entry 4), the STATUS pattern begins with its pause (log entry
37), and straps and station number stay as last read while RESET is held (log entry 49). -/
def Obligations.PowerOnBeginsStart : Prop :=
  ∀ (straps : BitVec 3) (s : State),
    (∃ t, exec (.powerOn straps) s = .next t ∧ t.serial = s.serial ∧ t.resetHeld = false ∧
      t.station.val = 4 * (straps.getLsbD 2).toNat + 2 * (straps.getLsbD 1).toNat + (straps.getLsbD 0).toNat ∧
      t.line.state = .start ∧ t.line.sfc = 0 ∧ t.line.hfc = 0 ∧ t.line.record = none ∧ t.statusCode = 1 ∧
      t.permit.state = .held ∧ t.permit.head = none ∧ t.dust.remaining = 0 ∧ t.ring.lots = [] ∧ t.scrub.fan = .stopped ∧
      t.conv.state = .stopped ∧ t.cab.vig = .idle ∧ t.panel.page = .face ∧ t.panel.up = false ∧ t.panel.orders = [] ∧
      t.notices.slots = .fill 8 none ∧ t.replicas = .fill 8 .empty ∧ t.spi = .waiting (ms 36) ∧
      t.inputs = ⟨false, false, false, false⟩ ∧ t.outputs = (false, false, false, false) ∧ t.pending = s.pending ∧
      (∀ k : Fin 4, t.pins.get k = { high := (s.pins.get k).high, left := none }) ∧
      t = { State.powerOn s.serial straps s.pending with pins := t.pins }) ∧
    ∃ t, exec .resetAssert s = .next t ∧ t.resetHeld = true ∧ t.statusCode = 1 ∧ t.line.sending = none ∧
      t.outputs = (false, false, false, false) ∧ (∀ c, exec .imageReadStart t = .next c → c = t) ∧
      (∀ k : Fin 4, t.pins.get k = { high := (s.pins.get k).high, left := none }) ∧
      { t with resetHeld := false } = { State.powerOn s.serial s.straps s.pending with pins := t.pins }

/-- A cycle of SCK is its level on MISO while the clock is low and at the rising edge; the bytes sampled while the 4 bytes of command
and address are sent are none of the image (R201). After a failed START every item is at its power-on value (R194); that the
queue and the levels outside at the input pins stay is the model's choice, log entries 25 and 28. -/
def Obligations.ImageReadRunsAndFails : Prop :=
  (misoReads none = true ∧ ∀ level, misoReads (some level) = level) ∧
  (∀ (cycles : List (Option Bool × Option Bool)) (sent bytes : List Byte), sent.length = 4 →
    cycles.map (fun c => misoReads c.2) = bytesFromTop (sent ++ bytes) →
    imageRead (cycles.flatMap fun c => [(false, c.1), (true, c.2)]) = .imageReadComplete bytes) ∧
  ∀ (s : State) (bytes : List Byte), s.line.state = .start → s.resetHeld = false →
    ((∃ n, s.spi = .waiting n) → exec .imageReadStart s = .next { s with spi := .reading }) ∧
    (s.spi = .reading → readImage s.station bytes = none →
      ∃ t, exec (.imageReadComplete bytes) s = .next t ∧ t.statusCode = 6 ∧
        (∀ k : Fin 4, t.pins.get k = { high := (s.pins.get k).high, left := none }) ∧
        t = { State.powerOn s.serial s.straps s.pending with
          spi := .idle, line := { LineUnit.reset with state := .inactive, cause := some .config }
          status := t.status, pins := t.pins })

def Obligations.ImageAcceptedEntersClaim : Prop :=
  ∀ (s : State) (bytes : List Byte) (i : Image), s.line.state = .start → s.resetHeld = false → s.spi = .reading →
    readImage s.station bytes = some i →
    ∃ t, exec (.imageReadComplete bytes) s = .next t ∧ t.image = i ∧ t.spi = .idle ∧ t.line.state = .claiming ∧
      t.status.code = 2 ∧ t.face.cells = freshCells i ∧ t.claim.window = some (ms 100) ∧ t.claim.watch = none ∧
      t.claim.r = (i.stations.get s.station).bid ∧
      (∃ c, t.line.claim = some c ∧ c.joining = s.claim.joining ∧ c.serial = s.serial ∧ c.signature = i.signature ∧
        t.claim.candidate = some ((Tbl.fill 8 none).set s.station (some (candOf c)))) ∧
      ∀ e : Fin 16, (t.sensor.channels.get e).due = decide (((i.stations.get s.station).channels.get e).meaning ≠ .unused)

def Obligations.StatusPatternSteps : Prop :=
  ∀ s : State, ∃ t, exec .statusPatternStep s = .next t ∧ t = { s with status := t.status } ∧
    t.status.code = s.status.code ∧
    match s.status.phase with
    | .pause => t.status.phase = .on 1 ∧ t.status.timer = some (ms 200)
    | .on k => t.status.phase = .off k ∧ t.status.timer = some (ms 200)
    | .off k =>
      if k < s.status.code then t.status.phase = .on (k + 1) ∧ t.status.timer = some (ms 200)
      else t.status.phase = .pause ∧ t.status.timer = some (sec 1)

/-! ## The machine line -/

/-- `lowest t f`: among the frames that wait in the slots of `t`, `f` is the one of lowest class, and of two TRIP frames the
one queued first (R135). -/
def Obligations.GapsAndContention : Prop :=
  let lowest (t : State) (f : OutFrame) : Prop := match f with
    | .trip n => t.line.trip.head? = some n
    | .claim c => t.line.trip = [] ∧ t.line.claim = some c
    | .order o => t.line.trip = [] ∧ t.line.claim = none ∧ t.line.order = some o
    | .map r => t.line.trip = [] ∧ t.line.claim = none ∧ t.line.order = none ∧ t.line.map = some r
    | .state g => t.line.trip = [] ∧ t.line.claim = none ∧ t.line.order = none ∧ t.line.map = none ∧
        t.line.stateSlot = some g
  ∀ s : State, s.live = true →
    let high : Prop := 128 ≤ s.line.sfc ∨ 128 ≤ s.line.hfc
    (∃ t, exec .lineGap s = .next t ∧ t.line.awaitsGap = false) ∧
    (∀ k, s.line.state = .withdrawn → s.line.idleGaps = some k → k < 63 →
      ∃ t, exec .lineGap s = .next t ∧ t.rest = { s with line := { s.line with idleGaps := some (k + 1), awaitsGap := false } }.rest) ∧
    (s.line.state = .withdrawn → s.line.idleGaps = some 63 → s.cfg.autoRejoin = true →
      ∃ t, exec .lineGap s = .next t ∧ t.line.state = .claiming ∧ t.line.sfc = 0 ∧ t.line.hfc = 0 ∧
        t.line.idleGaps = none ∧ t.claim.window = some (ms 100) ∧ t.line.claim.map (·.joining) = some false) ∧
    (s.line.state = .run ∨ (s.line.state = .claiming ∧ ¬high) → s.waitingFrame.isSome = true →
      ∃ t f, exec .lineGap s = .next t ∧ t.line.sending = some f ∧ lowest t f ∧
        t.rest = { s with line := { s.line with awaitsGap := false } }.rest) ∧
    (s.line.state = .quiet ∨ (s.line.state = .claiming ∧ high) →
      ∃ t, exec .lineGap s = .next t ∧ t.line.sending = none ∧ t.line.bus = .gap12 ∧
        t.rest = { s with line := { s.line with awaitsGap := false } }.rest) ∧
    (s.line.state = .quiet ∨ (s.line.state = .claiming ∧ high) → s.line.sending = none → s.line.bus = .gap12 →
      s.waitingFrame.isSome = true →
      ∃ t f, exec .contentionDelayEnd s = .next t ∧ t.line.sending = some f ∧ lowest t f ∧ t.rest = s.rest)

/-- RUN and QUIET follow the counts (R140); every other line state stays. `record` is the line fault record once a fault is
offered to it (R145). A withdrawal empties the TRIP slots; a notice of class TRIP that the end of the event raises may
queue its frame there again. After a frame accepted or rejected, and after a send error, no frame acts and no fault counts until
the next gap (R133, R136); a frame cut off by a gap ends at that gap. That no frame acts then, whatever command reports it, is
read so by log entry 60. -/
def Obligations.LineFaultsCount : Prop :=
  ∀ s : State, s.live = true →
    let follow (sfc hfc : Nat) : LineState := match s.line.state with
      | .run | .quiet => if 128 ≤ sfc ∨ 128 ≤ hfc then .quiet else .run
      | other => other
    let record (kind : FaultKind) (cls : Option FrameClass) (position : Fin 68) : FaultRecord := match s.line.record with
      | none => { kind := kind, cls := cls, position := position, count := 1 }
      | some r => { r with count := min 255 (r.count + 1) }
    (∀ f, s.line.sending = some f → ∃ t, exec (.arbitrationLost 0) s = .next t ∧ t.line.sending = none ∧
      t.line.bus = .busy ∧ t.rest = { s with line := { s.line with awaitsGap := false } }.rest ∧
      s.line.trip <+: t.line.trip ∧
      (s.line.stateSlot.isSome = true → t.line.stateSlot.isSome = true) ∧
      (s.line.order.isSome = true → t.line.order.isSome = true) ∧
      (s.isRole .cutter = false ∨ s.recovery.state ≠ .restoring → s.line.order.isSome = true →
        t.line.order = s.line.order)) ∧
    (∀ c (k : Fin 68), s.line.sending = some (.claim c) → 1 ≤ k.val → k.val ≤ 6 →
      ∃ t, exec (.arbitrationLost k) s = .next t ∧ t.line.state = .inactive ∧ t.line.cause = some .duplicate ∧
        t.status.code = 7 ∧ t.outputs = (false, false, false, false) ∧ t.line.trip = [] ∧ t.line.claim = none ∧
        t.line.order = none ∧ t.line.map = none ∧ t.line.stateSlot = none ∧ t.line.sending = none) ∧
    (∀ f (k : Fin 68), s.line.sending = some f → 1 ≤ k.val → (f.cls = .claim → 7 ≤ k.val) →
      exec (.arbitrationLost k) s = exec (.sendError k) s) ∧
    (∀ f (k : Fin 68), s.line.sending = some f → s.line.sfc < 248 →
      ∃ t, exec (.sendError k) s = .next t ∧ t.line.sending = none ∧
        t.rest = { s with line := { s.line with
          sfc := s.line.sfc + 8, record := some (record .sendBit (some f.cls) k)
          state := follow (s.line.sfc + 8) s.line.hfc, awaitsGap := true } }.rest) ∧
    (∀ f (k : Fin 68), s.line.sending = some f → 248 ≤ s.line.sfc →
      ∃ t u, exec (.sendError k) s = .next t ∧ t = finish s u ∧ u.line.trip = [] ∧ u.line.order = s.line.order ∧
        u.line.stateSlot = s.line.stateSlot ∧ t.line.state = .withdrawn ∧ t.line.sfc = 255 ∧ t.line.hfc = 0 ∧
        t.line.idleGaps = some 0 ∧ t.line.record = some (record .sendBit (some f.cls) k) ∧ t.line.sending = none ∧
        t.line.awaitsGap = true ∧ t.line.claim = none ∧ t.line.map = none ∧ t.claim.candidate = none ∧ t.claim.window = none ∧
        t.claim.watch = none ∧ t.pub.timer = none ∧ t.claim.roster = s.claim.roster ∧ t.replicas = s.replicas) ∧
    (∀ chars kind cls position, s.line.awaitsGap = false → checkFrame chars = some (kind, cls, position) →
      ∃ t, exec (.frameRejected chars) s = .next t ∧
        t.rest = { s with line := { s.line with
          hfc := min 255 (s.line.hfc + 1), record := some (record kind cls position)
          state := follow s.line.sfc (min 255 (s.line.hfc + 1))
          awaitsGap := decide (position.val ≠ chars.length) } }.rest) ∧
    ∀ (n : Station) (k kind target : Byte) (args payload : List Byte) (chars : List LineChar),
      let accepted : List Instr :=
        [.claimTaken n payload, .stateTaken n payload, .tripTaken n payload, .mapTaken n payload, .tagFirst n k args,
         .tagLast n k args, .release n k, .withdraw n k, .protect n k args, .unprotect n k args, .advance n k,
         .washNow n k, .scrubReset n k, .conveyOn n k, .conveyOff n k, .conveyReset n k, .mapRequest n k, .ack n k args,
         .clearFault n k, .relink n k, .orderUnknownKind n k kind, .orderOtherTarget n target]
      (s.line.awaitsGap = false → ∀ c ∈ accepted, ∃ t, exec c s = .next t ∧ t.line.awaitsGap = true) ∧
      (s.line.awaitsGap = true → ∀ c ∈ .frameRejected chars :: accepted, ∃ t, exec c s = .next t ∧ t.rest = s.rest)

/-- The command that reports a frame of a class sent whole. The model's readings, not rules of the spec: that a publication
timer which does not run stays so (log entry 31), and that a STATE leaves its slot even where it was rebuilt there during its
own sending (log entry 10), and that a STATE sent while the timer does not run puts the late count at 0 (log entry 51).
A mark holds the number of frames built when its item last changed (log entry 13): below the frame's build, the item has not
changed since that frame was built (R166). What the end of the event makes follow can mark slots of the queue afresh, so the
slots' marks are stated of the state before it. -/
def Obligations.SentWholeReports : Prop :=
  ∀ (s : State) (f : OutFrame), s.live = true → s.line.sending = some f →
    ∃ t, exec (match f.cls with
        | .trip => .tripSentWhole
        | .claim => .claimSentWhole
        | .order => .orderSentWhole
        | .map => .mapSentWhole
        | .state => .stateSentWhole) s = .next t ∧
      t.line.sfc = s.line.sfc - 1 ∧ t.line.hfc = s.line.hfc ∧ t.line.record = s.line.record ∧ t.line.sending = none ∧
      t.line.state = (match s.line.state with
        | .run | .quiet => if 128 ≤ s.line.sfc - 1 ∨ 128 ≤ s.line.hfc then .quiet else .run
        | other => other) ∧
      t.face = s.face ∧ t.inputs = s.inputs ∧ t.dust = s.dust ∧ t.replicas = s.replicas ∧ t.image = s.image ∧
      (∀ n queued, f = .trip n → s.line.trip = n :: queued → ∃ more, t.line.trip = queued ++ more) ∧
      (∀ c, f = .claim c → s.line.claim = some c → s.line.state = .claiming →
        t.line.claim = none ∧ t.claim.window = some (ms 100) ∧ t.claim.ownSent = true) ∧
      (∀ o, f = .order o → s.isRole .cab = true → t.panel.orders = s.panel.orders.map fun p =>
        if p.number == o.number && p.target == o.target && p.sent.isNone then
          { p with sent := some { elapsed := 0, limit := tenMs (3 * s.claim.r) } }
        else p) ∧
      (∀ o, f = .order o → s.line.order = some o → s.isRole .cab = true →
        t.line.order = (t.panel.orders.find? (·.sent.isNone)).map fun p =>
          { target := p.target, number := p.number, kind := p.kind, args := p.args }) ∧
      (∀ o q, f = .order o → s.line.order = some o → s.isRole .cutter = true → s.recovery.request = some q →
        q.number = o.number → q.source = o.target → s.isPresent .cab q.source = true →
        t.line.order = none ∧
          t.recovery.request = some { q with timer := some (q.timer.getD (tenMs (3 * s.claim.r))) }) ∧
      (∀ r c, f = .map r → s.line.map = some r → s.cabMap.send = some c →
        if h : c.next < 24 then t.line.map = some (c.rows.get ⟨c.next, h⟩) ∧ t.cabMap.send = some { c with next := c.next + 1 }
        else t.line.map = none ∧ t.cabMap.send = none) ∧
      (∀ g, f = .state g → (0 < s.claim.r → t.line.stateSlot = none) ∧ t.pub.late = 0 ∧ t.pub.sinceSent = some 0 ∧
        t.pub.timer = s.pub.timer.map (fun _ => s.period) ∧
        t.pub.answers = s.pub.answers.drop (g.entries.filter Entry.isAnswer).length ∧
        t.pub.dropped = (s.pub.dropped && !t.pub.answers.isEmpty) ∧
        t.conv.retires = s.conv.retires.diff (g.entries.filterMap fun | .retire e => some e | _ => none) ∧
        (∀ r : Fin 24,
          ((∃ e, .row e ∈ g.entries ∧ rowOfByte e.row = some r) →
            t.pub.rowMarks.get r = (s.pub.rowMarks.get r).filter (g.build ≤ ·)) ∧
          ((∀ e, .row e ∈ g.entries → rowOfByte e.row ≠ some r) → t.pub.rowMarks.get r = s.pub.rowMarks.get r)) ∧
        (∀ second : Bool, let i : Fin 2 := if second then 1 else 0
          ((∃ e, .tag e ∈ g.entries ∧ e.record = second) →
            t.pub.tagMarks.get i = (s.pub.tagMarks.get i).filter (g.build ≤ ·)) ∧
          ((∀ e, .tag e ∈ g.entries → e.record ≠ second) → t.pub.tagMarks.get i = s.pub.tagMarks.get i)) ∧
        let u := stateSent g (leaveSlot (.state g) (stopSending (lowerSfc s)))
        t = finish s u ∧ u.notices = { s.notices with marks := u.notices.marks } ∧
        ∀ i : Fin 8,
          ((∃ e, .notice e ∈ g.entries ∧ slotOfByte e.slot = some i) →
            u.notices.marks.get i = (s.notices.marks.get i).filter (g.build ≤ ·)) ∧
          ((∀ e, .notice e ∈ g.entries → slotOfByte e.slot ≠ some i) →
            u.notices.marks.get i = s.notices.marks.get i))

/-! ## Claim, roster, shared picture, publication -/

def Obligations.ClaimTakenStartsClaim : Prop :=
  ∀ (s : State) (n : Station) (c : ClaimFrame), (s.line.state = .run ∨ s.line.state = .quiet) → n ≠ s.station →
    s.line.awaitsGap = false → c.joining = false → s.serialChanged n c = false →
    ∃ t, exec (.claimTaken n c.bytes) s = .next t ∧ t.line.state = .claiming ∧ t.line.hfc = s.line.hfc - 1 ∧
      t.claim.window = some (ms 100) ∧ t.claim.watch = none ∧ t.claim.ownSent = false ∧
      t.line.claim = some (ownClaim s) ∧
      t.claim.candidate = some (((Tbl.fill 8 none).set s.station (some (candOf (ownClaim s)))).set n (some (candOf c))) ∧
      t.replicas = s.replicas ∧ t.face = s.face ∧ t.inputs = s.inputs ∧ t.sensor = s.sensor ∧ t.dust = s.dust

/-- A CLAIM from the own number (R153), one taken in CLAIMING (R152) or WITHDRAWN (R159), and the discard that the joining
mark or a changed serial brings in every line state (R158, R82, R89, R118), in RUN and QUIET with the entry to CLAIMING
(R149). The model's readings, not rules of the spec: that the sender's role is the one the image gives its number, for a
FOREIGN CLAIM too (log entry 20), and that the own candidate entry stays as it was where the own CLAIM is built again (log
entry 47). -/
def Obligations.ClaimTakenByCase : Prop :=
  ∀ (s : State) (c : ClaimFrame), s.hears = true →
    (claimValue c.role c.serial < claimValue s.roleByte s.serial →
      ∃ t, exec (.claimTaken s.station c.bytes) s = .next t ∧ t.line.state = .inactive ∧ t.line.cause = some .duplicate ∧
        t.status.code = 7 ∧ t.outputs = (false, false, false, false) ∧ t.line.claim = none ∧ t.line.sending = none) ∧
    (claimValue s.roleByte s.serial ≤ claimValue c.role c.serial →
      ∃ t, exec (.claimTaken s.station c.bytes) s = .next t ∧ t.replicas = s.replicas ∧
        match s.line.state with
        | .run | .quiet => t.line.state = .claiming ∧ t.claim.window = some (ms 100) ∧
            t.line.claim = some (ownClaim s) ∧
            t.claim.candidate = some ((Tbl.fill 8 none).set s.station (some (candOf (ownClaim s))))
        | .claiming => t.line.state = .claiming ∧ t.claim.candidate = s.claim.candidate ∧
            t.claim.window = some (ms 100) ∧
            t.line.claim = if s.claim.ownSent then some (ownClaim s) else s.line.claim
        | _ => t.rest = (acceptFrame s.station s).rest) ∧
    ∀ n : Station, n ≠ s.station →
      (∀ cand, s.line.state = .claiming → s.claim.candidate = some cand →
        ∃ t, exec (.claimTaken n c.bytes) s = .next t ∧ t.line.state = .claiming ∧ t.claim.window = some (ms 100) ∧
          t.line.claim = (if c.joining = true ∧ s.claim.ownSent = true then some (ownClaim s) else s.line.claim) ∧
          t.claim.candidate = some (match cand.get n with
            | none => cand.set n (some (candOf c))
            | some e =>
              if e.serial = c.serial ∨ claimValue c.role c.serial < claimValue e.role e.serial then
                cand.set n (some (candOf c))
              else cand)) ∧
      (s.line.state = .withdrawn → c.joining = false → s.serialChanged n c = false →
        let u := withdrawnEntry n c (acceptFrame n s)
        let roster : Tbl (Option RosterEntry) 8 := u.claim.roster.mapIdx fun k e => e.map fun e => reassess u n (Fin.ofNat 8 k) e
        ((u.entry n).map fun e => (e.role, e.serial, e.signature, e.bid, e.claimedReady)) =
            some (c.role, c.serial, c.signature, readBid c.bid, c.ready) ∧
          if (roster.get s.station).map (·.state) = some .excluded then
            ∃ t, exec (.claimTaken n c.bytes) s = .next t ∧ t.line.state = .inactive ∧ t.line.cause = some .role ∧
              t.status.code = 8
          else ∃ t, exec (.claimTaken n c.bytes) s = .next t ∧ t.line.state = .withdrawn ∧ t.claim.roster = roster ∧
            t.claim.r = s.claim.r ∧ t.pub.timer = s.pub.timer ∧ t.line.sfc = s.line.sfc) ∧
      (c.joining = true ∨ s.serialChanged n c = true →
        ∃ t, exec (.claimTaken n c.bytes) s = .next t ∧ t.replicas = s.replicas.set n .empty ∧
          (s.line.state = .run ∨ s.line.state = .quiet → t.line.state = .claiming ∧ t.claim.window = some (ms 100) ∧
            t.claim.watch = none ∧ t.claim.ownSent = false ∧ t.line.claim = some (ownClaim s) ∧
            t.claim.candidate =
              some (((Tbl.fill 8 none).set s.station (some (candOf (ownClaim s)))).set n (some (candOf c)))) ∧
          (s.isRole .cab = true → t.cabMap.rows = s.cabMap.rows ∧ t.cabMap.retires = s.cabMap.retires.filter (·.1 != n) ∧
            (s.roleOf n = some .cutter → t.cabMap.held = true ∧ t.panel.tagFirst = false)) ∧
          (s.isRole .conveyor = true → t.conv.retires = s.conv.retires ∧ t.conv.resync = s.conv.resync ∧
            (s.roleOf n = some .cutter → t.conv.records = [] ∧ t.conv.taken = 0 ∧ t.conv.retired = 0 ∧
              t.conv.windowOpen = false)) ∧
          (s.isRole .cutter = true → (s.roleOf n = some .conveyor → t.ring.resync = true) ∧
            ∀ i, s.boundRecord n = some i → s.roleOf n = some .cab →
              t.face.tags.get i = { bound := some n, range := .none }))

/-- The window expires; the CLAIM that restarts it at that moment and is taken first leaves the claim going on (R151); and the
roster the close gives: its FOREIGN entries, and by role the lowest-numbered of the others PRESENT, as many as R154 allows.
With the own CLAIM still waiting the expiry leaves the window not running: log entry 32 (DEDUCED), for R151 has the
expiry do nothing and the window start afresh when that CLAIM is sent whole. At the CUTTER the close rebinds the tag range
records (R8), and the first one starts the dust period (R62, R63) and map recovery (R174) with its first request. -/
def Obligations.ClaimWindowClosesClaim : Prop :=
  ∀ (s : State) (cand : Tbl (Option CandEntry) 8), s.line.state = .claiming → s.claim.window.isSome = true →
    s.claim.candidate = some cand →
    let roster := closedRoster s cand
    let present (r : Role) (n : Station) : Bool := match roster.get n with
      | some e => e.role == r.code && e.state == .present
      | none => false
    let places (r : Role) : Nat := if r = .cab then 2 else 1
    (∀ r, (eight.filter (present r)).length ≤ places r) ∧
    (∀ n, roster.get n = none ↔ cand.get n = none) ∧
    (∀ n c e, cand.get n = some c → roster.get n = some e →
      e.role = c.role ∧ e.serial = c.serial ∧ e.signature = c.signature ∧ e.bid = c.bid ∧ e.claimedReady = c.ready ∧
      e.ready = (if n = s.station then some s.sensor.ready else
        match s.entry n with
        | some before => if before.serial = e.serial then before.ready else none
        | none => none) ∧
      (e.state = .foreign ↔ c.signature ≠ s.image.signature ∨
        ∀ r : Role, c.role = r.code → (s.image.stations.get n).role ≠ some r) ∧
      (e.state = .foreign ∨ e.state = .present ∨ ∃ r : Role, e.state = .excluded ∧ c.role = r.code ∧
        (eight.filter fun m => decide (m < n) && present r m).length = places r)) ∧
    (∀ (n : Station) (c : ClaimFrame) (a : Ticks), n ≠ s.station → s.line.awaitsGap = false →
      s.claim.window = some a → a < ms 100 →
      ∃ t u, exec (.claimTaken n c.bytes) s = .next t ∧ t.line.state = .claiming ∧ t.claim.window = some (ms 100) ∧
        exec .claimWindowExpiry t = .next u ∧ u.rest = t.rest) ∧
    (.claimWindowExpiry ∉ s.restarted →
    (s.line.claim ≠ none → ∃ t, exec .claimWindowExpiry s = .next t ∧ t.line.state = .claiming ∧
      t.claim.candidate = some cand ∧ t.claim.window = none) ∧
    (s.line.claim = none → (roster.get s.station).map (·.state) ≠ some .excluded →
      ∃ t, exec .claimWindowExpiry s = .next t ∧
        t.line.state = (if 128 ≤ s.line.sfc ∨ 128 ≤ s.line.hfc then .quiet else .run) ∧
        t.claim.candidate = none ∧ t.claim.window = none ∧ t.claim.joining = false ∧ t.claim.closed = true ∧
        t.claim.r = smallestBid roster s.cfg.bid ∧ t.claim.watch = some (tenMs (4 * t.claim.r)) ∧
        t.claim.roster = startSilence s.station (tenMs (3 * t.claim.r)) roster ∧
        t.pub.timer = some (s.station.val * tenMs t.claim.r / 8) ∧ t.replicas = s.replicas) ∧
    (s.line.claim = none → (roster.get s.station).map (·.state) ≠ some .excluded → s.isRole .cutter = true →
      let kept (i : Fin 2) : TagRecord := match (s.face.tags.get i).bound with
        | some n => if present .cab n then s.face.tags.get i else ⟨none, .none⟩
        | none => s.face.tags.get i
      let unbound : List Station := eight.filter fun n =>
        present .cab n && decide ((kept 0).bound ≠ some n) && decide ((kept 1).bound ≠ some n)
      let bind (r : TagRecord) (l : List Station) : TagRecord := match r.bound, l with
        | none, n :: _ => ⟨some n, .none⟩
        | _, _ => r
      ∃ t, exec .claimWindowExpiry s = .next t ∧ t.permit.reasons.line = false ∧
        t.face = { s.face with tags := t.face.tags } ∧ t.face.tags.get 0 = bind (kept 0) unbound ∧
        t.face.tags.get 1 = bind (kept 1) (if (kept 0).bound.isSome then unbound else unbound.tail) ∧
        (∀ i : Fin 2, (t.pub.tagMarks.get i).isSome = true) ∧
        t.dust = (if s.claim.closed then s.dust
          else { position := some 0, midDone := false, remaining := 10 * t.capacityRead, used := 0, fraction := 0 }) ∧
        if s.claim.closed = false ∧ s.cfg.mapRecovery = true then
          t.recovery.state = .restoring ∧ t.recovery.timer = some (sec 2) ∧
          (s.recovery.request = none → match t.chosenSource with
            | some n => t.recovery.request = some ⟨n, s.recovery.counter + 1, none⟩ ∧
                t.recovery.counter = s.recovery.counter + 1 ∧ t.recovery.source = some n ∧
                t.line.order = some ⟨n, s.recovery.counter + 1, .mapRequest, []⟩
            | none => t.recovery.request = none ∧ t.recovery.counter = s.recovery.counter)
        else t.recovery.state = s.recovery.state ∧ t.recovery.timer = s.recovery.timer) ∧
    (s.line.claim = none → (roster.get s.station).map (·.state) = some .excluded →
      ∃ t, exec .claimWindowExpiry s = .next t ∧ t.line.state = .inactive ∧ t.line.cause = some .role ∧ t.status.code = 8))

/-- `s.restarted` (the model's own field, log entry 6) names the times that an event of this moment has started afresh. Where a
frame and an expiry fall together and the frame is taken first, the time does not expire (R150, R156): the frame here is an
ORDER for another station. -/
def Obligations.SilenceAndWatchExpire : Prop :=
  ∀ s : State,
    (∀ (n : Station) (target : Byte) (e : RosterEntry) (a : Ticks), s.hears = true → n ≠ s.station → s.entry n = some e →
      e.state = .present → e.silence = some a → a < tenMs (3 * s.claim.r) →
      ∃ t u, exec (.orderOtherTarget n target) s = .next t ∧
        t.entry n = some { e with silence := some (tenMs (3 * s.claim.r)) } ∧
        exec (.silenceTimerExpiry n) t = .next u ∧ u.rest = t.rest) ∧
    (∀ (n : Station) (target : Byte) (a : Ticks), (s.line.state = .run ∨ s.line.state = .quiet) → s.line.awaitsGap = false →
      s.claim.watch = some a → a < tenMs (4 * s.claim.r) →
      ∃ t u, exec (.orderOtherTarget n target) s = .next t ∧ t.claim.watch = some (tenMs (4 * s.claim.r)) ∧
        exec .lineSilenceWatchExpiry t = .next u ∧ u.rest = t.rest) ∧
    (∀ (n : Station) (e : RosterEntry), s.live = true → s.entry n = some e → e.state = .present → e.silence.isSome = true →
      .silenceTimerExpiry n ∉ s.restarted →
      ∃ t, exec (.silenceTimerExpiry n) s = .next t ∧ t.rest = { s with claim := { s.claim with
        roster := s.claim.roster.set n (some { e with state := .silent, silence := none }) } }.rest) ∧
    ((s.line.state = .run ∨ s.line.state = .quiet) → s.claim.watch.isSome = true → .lineSilenceWatchExpiry ∉ s.restarted →
      ∃ t, exec .lineSilenceWatchExpiry s = .next t ∧ t.line.state = .claiming ∧ t.claim.watch = none ∧
        t.claim.window = some (ms 100) ∧ t.line.claim = some (ownClaim s) ∧
        t.claim.candidate = some ((Tbl.fill 8 none).set s.station (some (candOf (ownClaim s)))) ∧
        t.claim.roster = s.claim.roster ∧ t.replicas = s.replicas)

/-- A STATUS entry at any station; what the replica set of the sender and the RETIRE entries of a CAB become by the entries of a
STATE payload in turn, which `readEntries` reads (StatePayloadReadsBack), of any sender but the own number, one without a
roster entry included (R168, R101; that a NOTICE whose slot byte names no slot is disregarded is the model's choice, log entry
39); the claim that a STATE from an unknown or the own number starts (R149); and what the blocks of a role do with the entries of a STATE frame from station `n`, whose
acceptance comes first: the CONVEYOR with a CUTTER STATUS (R85, R88, R89; that for the advance and the discard `n` need not be
the PRESENT CUTTER is the model's choice, log entry 62) and a LOT (R84), the CUTTER with a CONVEYOR
STATUS (R82), a CAB with a ROW (R20, R173) and with an ANSWER to an order of its panel (R124). -/
def Obligations.StatusEntryTaken : Prop :=
  (∀ (s : State) (n : Station) (e : RosterEntry) (r : StatusRecord), s.hears = true → n ≠ s.station → s.entry n = some e →
     statusFits r = true →
     ∃ t, exec (.stateTaken n (Entry.status r).bytes) s = .next t ∧ t.line.hfc = s.line.hfc - 1 ∧
       t.replicas = s.replicas.set n { s.replica n with
         status := some r, slots := maskSlots r.common.mask (s.replica n).slots } ∧
       (t.entry n).map (·.ready) = some (some r.common.ready) ∧
       (e.state = .present ∨ e.state = .silent → (t.entry n).map (·.state) = some .present) ∧
       t.face = s.face ∧ t.inputs = s.inputs ∧ t.sensor = s.sensor ∧ t.dust = s.dust) ∧
  (∀ (s : State) (n : Station) (payload : List Byte), s.hears = true → n ≠ s.station → payloadFits .state payload = true →
    let taken (r : Replica) : Entry → Replica
      | .status x => { r with status := some x, slots := maskSlots x.common.mask r.slots }
      | .notice x => match slotOfByte x.slot with
        | some i => { r with slots := (r.slots.map fun y => if y.map (·.code) = some x.code then none else y).set i (some x) }
        | none => r
      | .tag x => { r with tags := r.tags.set (if x.record then 1 else 0) (some x) }
      | .fault x => { r with fault := some x }
      | _ => r
    ∃ t, exec (.stateTaken n payload) s = .next t ∧
      t.replicas = s.replicas.set n ((readEntries payload).foldl taken (s.replica n)) ∧
      t.cabMap.retires = (readEntries payload).foldl (fun l e => match e with
        | .retire x => if s.isRole .cab = true then ((n, x) :: l).take 8 else l
        | _ => l) s.cabMap.retires) ∧
  (∀ (s : State) (n : Station) (payload : List Byte), s.hears = true → payloadFits .state payload = true →
    ∃ t, exec (.stateTaken n payload) s = .next t ∧ (n = s.station → t.replicas = s.replicas) ∧
      (s.line.state = .run ∨ s.line.state = .quiet → n = s.station ∨ s.entry n = none →
        t.line.state = .claiming ∧ t.line.claim = some (ownClaim s) ∧ t.openLot = none ∧
        (s.isRole .cutter = true → t.permit.reasons.line = true) ∧
        t.claim = { s.claim with
          candidate := some ((Tbl.fill 8 none).set s.station (some (candOf (ownClaim s))))
          window := some (ms 100), watch := none, ownSent := false }) ∧
      (s.line.state = .claiming ∨ s.line.state = .withdrawn ∨ n ≠ s.station ∧ (s.entry n).isSome = true →
        t.line.claim = s.line.claim ∧ t.claim.candidate = s.claim.candidate ∧ t.claim.window = s.claim.window ∧
        (t.line.state = .claiming ↔ s.line.state = .claiming) ∧ (t.line.state = .withdrawn ↔ s.line.state = .withdrawn))) ∧
  ∀ (s : State) (n : Station), s.hears = true → n ≠ s.station → (s.entry n).isSome = true →
    let h := acceptFrame n s
    (∀ (x : StatusCommon) (p : CutterPart), s.isRole .conveyor = true → x.role = Role.code .cutter →
      let back := precedes (committedCount p.issued p.lotOpen) s.conv.taken
      ∃ t, exec (.stateTaken n (Entry.status ⟨x, .cutter p⟩).bytes) s = .next t ∧ t.conv.advance = some p.advance ∧
        t.conv.stray = (if s.conv.advance.isNone ∨ s.conv.advance = some p.advance then s.conv.stray else 0) ∧
        t.conv.retires = s.conv.retires ∧ t.conv.beltTime = s.conv.beltTime ∧
        (s.conv.resync = true → t.conv.records = s.conv.records ∧
          if h.presentOf .cutter = some n then t.conv.resync = false ∧
            t.conv.taken = committedCount p.issued p.lotOpen ∧ t.conv.retired = committedCount p.issued p.lotOpen
          else t.conv.resync = true ∧ t.conv.taken = s.conv.taken ∧ t.conv.retired = s.conv.retired) ∧
        (s.conv.resync = false → t.conv.resync = false ∧
          if back then t.conv.records = [] ∧ t.conv.taken = 0 ∧ t.conv.retired = 0 ∧ t.conv.windowOpen = false
          else t.conv.records = s.conv.records ∧ t.conv.taken = s.conv.taken ∧ t.conv.retired = s.conv.retired)) ∧
    (∀ l : LotEntry, s.isRole .conveyor = true →
      let r : LotRec := { lot := l, arrival := s.conv.beltTime, measured := 0 }
      ∃ t, exec (.stateTaken n (Entry.lot l).bytes) s = .next t ∧
        if h.presentOf .cutter = some n ∧ s.conv.resync = false ∧ l.number = s.conv.taken ∧ s.conv.records.length < 16 then
          t.conv.taken = s.conv.taken + 1 ∧ t.conv.stray = s.conv.stray ∧
          (s.conv.windowOpen = true → t.conv.records = s.conv.records ++ [r]) ∧
          (s.conv.windowOpen = false → s.conv.records = [] → s.lotOpening r < s.lotClose r → t.conv.records = [r])
        else t.rest = h.rest) ∧
    (∀ (x : StatusCommon) (p : ConveyorPart), s.isRole .cutter = true → x.role = Role.code .conveyor →
      h.presentOf .conveyor = some n →
      let passed := passedLots p.retired s.ring.lots
      ∃ t, exec (.stateTaken n (Entry.status ⟨x, .conveyor p⟩).bytes) s = .next t ∧
        (p.resync = true → t.ring.rest = { s.ring with resync := true }.rest) ∧
        (p.resync = false → s.openLot = none → (precedes s.ring.issued p.taken ∨ precedes s.ring.issued p.retired) →
          t.ring.rest = s.ring.rest) ∧
        (p.resync = false → (∀ b, b = s.openLot.isSome ∨ b = false →
            precedes (committedCount s.ring.issued b) p.taken = false ∧
              precedes (committedCount s.ring.issued b) p.retired = false) →
          t.ring.rest = (if precedes s.ring.retiredHeld p.retired then
              { s.ring with
                lots := s.ring.lots.drop passed.length, takenHeld := p.taken, retiredHeld := p.retired, resync := false
                accountLost := if passed = [] then s.ring.accountLost else s.ring.resync }
            else { s.ring with takenHeld := p.taken, resync := false }).rest)) ∧
    (∀ (e : RowEntry) (k : Fin 24), s.isRole .cab = true → e.row = BitVec.ofNat 8 k.val →
      ∃ t, exec (.stateTaken n (Entry.row e).bytes) s = .next t ∧
        t.rest = (if h.presentOf .cutter = some n then
            { h with cabMap := { h.cabMap with
              rows := h.cabMap.rows.set k (some e), old := h.cabMap.old.set k false } }
          else h).rest) ∧
    ∀ (r : StatusRecord) (a : AnswerEntry) (p : PendingOrder), s.isRole .cab = true → statusFits r = true →
      a.requester = BitVec.ofNat 8 s.station.val →
      s.panel.orders.find? (fun q => q.number == a.number && q.target == n && q.sent.isSome) = some p →
      ∃ t, exec (.stateTaken n ((Entry.status r).bytes ++ (Entry.answer a).bytes)) s = .next t ∧
        t.panel.orders = s.panel.orders.filter (fun q => !(q.number == p.number && q.target == p.target)) ∧
        t.panel.status = .answer p.kind p.target a.code ∧ t.panel.answerMissing = false ∧
        t.panel.tagFirst = (if p.kind = .tagFirst ∧ a.code ≠ AnswerCode.code .done then false else s.panel.tagFirst) ∧
        t.panel.page = s.panel.page ∧ t.panel.counter = s.panel.counter

/-- At a CAB the TRIP entries that enter the display list, or stand in it with a new raise number, sound the horn (R105), and
the first of them in list order is captured while the first-out record is empty (R106). -/
def Obligations.TripAndMapTaken : Prop :=
  (∀ (s : State) (n : Station) (e : NoticeEntry) (i : Fin 8), s.hears = true → n ≠ s.station → e.slot = BitVec.ofNat 8 i.val →
    ∃ t, exec (.tripTaken n e.bytes) s = .next t ∧
      t.rest = ((acceptFrame n s).setReplica n { s.replica n with
        slots := ((s.replica n).slots.map fun x => if x.map (·.code) == some e.code then none else x).set i (some e) }).rest ∧
      let entered := t.cab.list.filter fun x => x.entry.cls == NoticeClass.trip.code && !s.cab.list.any fun o =>
        o.owner == x.owner && o.entry.slot == x.entry.slot && o.entry.code == x.entry.code && o.entry.raise == x.entry.raise
      (s.isRole .cab = true → t.cab.horn = (if entered = [] then s.cab.horn else some (sec 3)) ∧
        t.cab.firstOut = match s.cab.firstOut, entered with
          | none, x :: _ => some { owner := x.owner, code := x.entry.code, raise := x.entry.raise }
          | f, _ => f)) ∧
  ∀ (s : State) (n : Station) (r : RowEntry) (k : Fin 24), s.hears = true → s.isRole .cutter = true →
    s.recovery.state = .restoring → s.recovery.source = some n → r.row = BitVec.ofNat 8 k.val →
    ∃ t, exec (.mapTaken n r.bytes) s = .next t ∧
      match sameAdvance (s.recovery.buffer.set k (some r)) with
      | none => t.recovery.state = .restoring ∧ t.recovery.buffer = s.recovery.buffer.set k (some r) ∧ t.face = s.face
      | some a => t.recovery.state = .none ∧ t.recovery.adopted = true ∧ t.recovery.restored = true ∧
        t.recovery.buffer = .fill 24 none ∧ t.face.advance = a ∧ t.face.temp = s.face.temp ∧ t.face.tags = s.face.tags ∧
        ∀ q : Fin 24, some (t.face.cells.get q) =
          ((s.recovery.buffer.set k (some r)).get q).map (adoptedRow (s.image.kinds.get q))

def Obligations.RecoveryTimesExpire : Prop :=
  ∀ s : State, s.live = true → s.isRole .cutter = true → s.recovery.state = .restoring →
    (∀ q, s.recovery.request = some q → q.timer.isSome = true →
      ∃ t, exec .mapRequestTimeout s = .next t ∧ t.rest = s.rest ∧
        match s.chosenSource with
        | none => t.recovery.request = none ∧ t.recovery.counter = s.recovery.counter
        | some n => t.recovery.request = some { source := n, number := s.recovery.counter + 1, timer := none } ∧
          t.line.order = some { target := n, number := s.recovery.counter + 1, kind := .mapRequest, args := [] }) ∧
    ∃ t, exec .recoveryExpiry s = .next t ∧ t.recovery.state = .lost ∧ t.recovery.timer = none ∧
      t.recovery.request = none ∧ t.recovery.buffer = .fill 24 none ∧ t.line.order = none ∧ t.face = s.face ∧
      (∀ r : Fin 24, (t.pub.rowMarks.get r).isSome = true)

def Obligations.PublicationPlacesState : Prop :=
  ∀ s : State, s.live = true → s.pub.timer.isSome = true →
    (∃ t, exec .publicationTimerExpiry s = .next t ∧ t.line.stateSlot.isSome = true ∧
      t.rest = { s with pub := { s.pub with
        timer := some (tenMs s.claim.r)
        late := if s.line.stateSlot.isSome then min 255 (s.pub.late + 1) else s.pub.late } }.rest) ∧
    (s.pub.early = true → s.line.stateSlot = none →
      ∃ t, exec .earlyStatePlace s = .next t ∧ t.line.stateSlot.isSome = true ∧ t.pub.early = false ∧ t.rest = s.rest)

/-- A built STATE frame: STATUS first, within 64 bytes (R165). -/
def Obligations.BuiltStateFits : Prop :=
  ∀ s : State,
    (composeState s).1.head? = some (.status s.ownStatus) ∧ ((composeState s).1.map Entry.length).sum ≤ 64 ∧
      ((composeState s).1.flatMap Entry.bytes).length ≤ 64

/-! ## Orders

`h` is the state once the ORDER frame is accepted; the answer joins the answer queue (R170, R171). -/

/-- A face map order of the CUTTER reaches its rule (R9): the sender is a PRESENT CAB bound to record `i`. -/
def Obligations.TagOrdersNameARange : Prop :=
  ∀ (s : State) (n : Station) (k : Byte) (args : List Byte) (i : Fin 2),
    let h := acceptFrame n s
    s.hears = true → s.isRole .cutter = true → s.pub.answers.length < 4 → h.isPresent .cab n = true →
    s.boundRecord n = some i → s.recovery.state ≠ .restoring → 2 ≤ args.length → args.length ≤ 61 →
    (∃ t, exec (.tagFirst n k args) s = .next t ∧ t.face.cells = s.face.cells ∧ t.face.temp = s.face.temp ∧
      match argCell args with
      | some c => t.rest = (pushAnswer n k .done (setTagRange i (.first c) h)).rest
      | none => t.rest = (pushAnswer n k .range (setTagRange i .none h)).rest) ∧
    ∃ t, exec (.tagLast n k args) s = .next t ∧ t.face.cells = s.face.cells ∧ t.face.temp = s.face.temp ∧
      match (s.face.tags.get i).range, argCell args with
      | .first a, some c =>
        if lastCellFits a c then t.rest = (pushAnswer n k .done (setTagRange i (.range a c) h)).rest
        else t.rest = (pushAnswer n k .range (setTagRange i .none h)).rest
      | .first _, none => t.rest = (pushAnswer n k .range (setTagRange i .none h)).rest
      | _, _ => t.rest = (pushAnswer n k .sequence (setTagRange i .none h)).rest

/-- R12: RELEASE of a bound PRESENT CAB. -/
def Obligations.ReleaseWorksOnTheRange : Prop :=
  ∀ (s : State) (n : Station) (k : Byte) (i : Fin 2),
    s.hears = true → s.isRole .cutter = true → s.pub.answers.length < 4 → (acceptFrame n s).isPresent .cab n = true →
    s.boundRecord n = some i → s.recovery.state ≠ .restoring →
    ∃ t code, exec (.release n k) s = .next t ∧
      t.pub.answers = s.pub.answers ++ [{ requester := BitVec.ofNat 8 n.val, number := k, code := AnswerCode.code code }] ∧
      t.face.tags = s.face.tags.set i { s.face.tags.get i with range := .none } ∧ t.face.temp = s.face.temp ∧
      t.face.advance = s.face.advance ∧ t.permit.reasons = t.reasonsNow ∧
      match (s.face.tags.get i).range with
      | .range a b =>
        if (∃ r ∈ rangeRows a b, s.zoneProtected (zoneOf r) = true) then code = .zoneProtected ∧ t.face.cells = s.face.cells
        else code = .done ∧
          (∀ c : Cell, t.cell c = if inRange a b c = true ∧ s.cell c = .solid then .released else s.cell c) ∧
          ∀ r : Fin 24, t.face.cells.get r ≠ s.face.cells.get r → (t.pub.rowMarks.get r).isSome = true
      | _ => code = .sequence ∧ t.face.cells = s.face.cells

/-- R13: WITHDRAW of a bound PRESENT CAB; a head cell made SOLID holds the permit on CELL and stops the dwell. -/
def Obligations.WithdrawWorksOnTheRange : Prop :=
  ∀ (s : State) (n : Station) (k : Byte) (i : Fin 2),
    s.hears = true → s.isRole .cutter = true → s.pub.answers.length < 4 → (acceptFrame n s).isPresent .cab n = true →
    s.boundRecord n = some i → s.recovery.state ≠ .restoring →
    ∃ t code, exec (.withdraw n k) s = .next t ∧
      t.pub.answers = s.pub.answers ++ [{ requester := BitVec.ofNat 8 n.val, number := k, code := AnswerCode.code code }] ∧
      t.face.tags = s.face.tags.set i { s.face.tags.get i with range := .none } ∧ t.face.temp = s.face.temp ∧
      t.face.advance = s.face.advance ∧ t.permit.dwell = s.permit.dwell ∧
      (∀ c, t.permit.head = some c → t.cell c = .solid →
        t.permit.reasons.cell = true ∧ t.permitOn = false ∧ t.dwellRuns = false) ∧
      match (s.face.tags.get i).range with
      | .range a b => code = .done ∧
        ∀ c : Cell, t.cell c = if inRange a b c = true ∧ s.cell c = .released then .solid else s.cell c
      | _ => code = .sequence ∧ t.face.cells = s.face.cells

def Obligations.ProtectAndUnprotectZones : Prop :=
  ∀ (s : State) (n : Station) (k : Byte) (args : List Byte) (i : Fin 2),
    s.hears = true → s.isRole .cutter = true → s.pub.answers.length < 4 → (acceptFrame n s).isPresent .cab n = true →
    s.boundRecord n = some i → s.recovery.state ≠ .restoring → 1 ≤ args.length → args.length ≤ 61 →
    (∃ t code, exec (.protect n k args) s = .next t ∧
      t.pub.answers = s.pub.answers ++ [{ requester := BitVec.ofNat 8 n.val, number := k, code := AnswerCode.code code }] ∧
      t.face.tags = s.face.tags.set i { s.face.tags.get i with range := .none } ∧ t.face.cells = s.face.cells ∧
      match argZone args with
      | none => code = .range ∧ t.face.temp = s.face.temp
      | some z => code = .done ∧ t.face.temp =
          if s.zoneProtected z.val then s.face.temp else s.face.temp ||| BitVec.twoPow 6 z.val) ∧
    ∃ t code, exec (.unprotect n k args) s = .next t ∧
      t.pub.answers = s.pub.answers ++ [{ requester := BitVec.ofNat 8 n.val, number := k, code := AnswerCode.code code }] ∧
      t.face.tags = s.face.tags.set i { s.face.tags.get i with range := .none } ∧ t.face.cells = s.face.cells ∧
      match argZone args with
      | none => code = .range ∧ t.face.temp = s.face.temp
      | some z =>
        if s.image.permZones.getLsbD z.val then code = .zoneProtected ∧ t.face.temp = s.face.temp
        else code = .done ∧ t.face.temp = s.face.temp &&& ~~~ BitVec.twoPow 6 z.val

/-- A PROTECT of the head cell's zone while the permit is on latches a breach (R36). From a CAB that was SILENT this is the
model's choice, log entry 36: the order is executed before the permit is evaluated. -/
def Obligations.ProtectOverTheHeadStopsThePermit : Prop :=
  ∀ (s : State) (n : Station) (k : Byte) (args : List Byte) (i : Fin 2) (c : Cell) (z : Fin 6),
    s.hears = true → s.isRole .cutter = true → s.pub.answers.length < 4 → (acceptFrame n s).isPresent .cab n = true →
    s.boundRecord n = some i → s.recovery.state ≠ .restoring → 1 ≤ args.length → args.length ≤ 61 →
    argZone args = some z → s.zoneProtected z.val = false → s.permitOn = true → s.permit.head = some c →
    zoneOf c.row = z.val →
    ∃ t, exec (.protect n k args) s = .next t ∧ t.permit.state = .stopped ∧ t.outputs = (false, false, true, false) ∧
      t.permit.reasons.zone = true ∧ t.openLot = none ∧ t.permit.head = s.permit.head ∧ t.permit.dwell = s.permit.dwell

/-- The refused ADVANCE leaves the ring; where the acceptance of its frame, or the evaluation that follows every event, takes
the permit off at that moment, the cut spell ends, which commits the open lot (R80). -/
def Obligations.AdvanceStartsANewFace : Prop :=
  ∀ (s : State) (n : Station) (k : Byte) (i : Fin 2),
    s.hears = true → s.isRole .cutter = true → s.pub.answers.length < 4 → (acceptFrame n s).isPresent .cab n = true →
    s.boundRecord n = some i → s.recovery.state ≠ .restoring →
    (s.permit.state = .held → s.inputs.i0 = false → s.faceComplete = true →
      ∃ t, exec (.advance n k) s = .next t ∧
        t.pub.answers = s.pub.answers ++ [{ requester := BitVec.ofNat 8 n.val, number := k, code := AnswerCode.code .done }] ∧
        t.face.advance = s.face.advance + 1 ∧ t.face.cells = freshCells s.image ∧ t.face.temp = s.face.temp ∧
        (∀ j : Fin 2, t.face.tags.get j = { s.face.tags.get j with range := .none }) ∧ t.permit.dwell = 0 ∧
        t.recovery.restored = false ∧ t.openLot = none ∧ ∀ r : Fin 24, (t.pub.rowMarks.get r).isSome = true) ∧
    (s.permit.state ≠ .held ∨ s.inputs.i0 = true ∨ s.faceComplete = false →
      ∃ t, exec (.advance n k) s = .next t ∧
        t.pub.answers = s.pub.answers ++ [{ requester := BitVec.ofNat 8 n.val, number := k, code := AnswerCode.code .state }] ∧
        t.face = { s.face with tags := s.face.tags.set i { s.face.tags.get i with range := .none } } ∧
        t.permit.dwell = s.permit.dwell ∧ t.pub.rowMarks = s.pub.rowMarks ∧ t.recovery.restored = s.recovery.restored ∧
        (t.ring = s.ring ∨ s.permitOn = true ∧ t.permitOn = false ∧
          t.ring = { s.ring with lots := s.ring.lots.map fun l => { l with isOpen := false } }))

def Obligations.ScrubberOrders : Prop :=
  ∀ (s : State) (n : Station) (k : Byte),
    s.hears = true → s.isRole .scrubber = true → s.pub.answers.length < 4 → (acceptFrame n s).isPresent .cab n = true →
    (if s.scrub.wash = .washing ∨ s.scrub.wash = .settling ∨ s.scrub.fan.runs = false then
      ∃ t, exec (.washNow n k) s = .next t ∧ t.rest = (pushAnswer n k .state (acceptFrame n s)).rest
    else ∃ t, exec (.washNow n k) s = .next t ∧ t.rest = (pushAnswer n k .done (acceptFrame n s)).rest ∧
      t.scrub.wash = .washing ∧ t.scrub.washTime = some (sec s.image.washTime) ∧ t.scrub.settling = none) ∧
    (if s.scrub.fan = .fault then
      ∃ t, exec (.scrubReset n k) s = .next t ∧ t.rest = (pushAnswer n k .done (acceptFrame n s)).rest ∧
        t.scrub.fan = if t.demandShown then (if s.inputs.i0 then .running else .starting) else .stopped
    else ∃ t, exec (.scrubReset n k) s = .next t ∧ t.rest = (pushAnswer n k .state (acceptFrame n s)).rest)

def Obligations.ConveyorOrders : Prop :=
  ∀ (s : State) (n : Station) (k : Byte),
    let h := acceptFrame n s
    s.hears = true → s.isRole .conveyor = true → s.pub.answers.length < 4 → h.isPresent .cab n = true →
    (∃ t, exec (.conveyOn n k) s = .next t ∧ t.conv.standing = true ∧ t.conv.runDemand = true ∧
      t.rest = (pushAnswer n k .done { h with conv := { h.conv with standing := true } }).rest) ∧
    (∃ t, exec (.conveyOff n k) s = .next t ∧ t.conv.standing = false ∧
      t.rest = (pushAnswer n k .done { h with conv := { h.conv with standing := false } }).rest) ∧
    (if s.conv.state = .fault ∧ s.inputs.i2 = false then
      ∃ t, exec (.conveyReset n k) s = .next t ∧ t.conv.state = (if t.wantsRun then .warning else .stopped) ∧
        t.conv.fault = none ∧ t.conv.standing = s.conv.standing ∧
        t.rest = (pushAnswer n k .done { h with conv := { h.conv with fault := none } }).rest
    else ∃ t, exec (.conveyReset n k) s = .next t ∧ t.rest = (pushAnswer n k .state h).rest ∧ t.conv.fault = s.conv.fault)

def Obligations.MapRequestStartsASend : Prop :=
  ∀ (s : State) (n : Station) (k : Byte),
    let h := acceptFrame n s
    s.hears = true → s.isRole .cab = true → s.pub.answers.length < 4 → h.isPresent .cutter n = true →
    match h.mapComplete with
    | none => ∃ t, exec (.mapRequest n k) s = .next t ∧ t.rest = (pushAnswer n k .state h).rest
    | some _ => ∃ t rows, exec (.mapRequest n k) s = .next t ∧ t.cabMap.send = some { rows := rows, next := 1 } ∧
        (∀ r : Fin 24, some (rows.get r) = s.cabMap.rows.get r) ∧ t.line.map = s.cabMap.rows.get 0 ∧
        t.cabMap.rows = s.cabMap.rows ∧
        t.pub.answers = s.pub.answers ++ [{ requester := BitVec.ofNat 8 n.val, number := k, code := AnswerCode.code .done }]

/-- ACK in an ORDER frame: slot and raise number are matched together (R98, R99). The ACK of a CLEARED "PROFILE BREACH" lets
the permit leave STOPPED (R38). -/
def Obligations.AckMatchesSlotAndRaise : Prop :=
  (∀ (s : State) (n : Station) (k : Byte) (args : List Byte),
    let h := acceptFrame n s
    s.hears = true → s.role.isSome = true → s.pub.answers.length < 4 → h.isPresent .cab n = true → 2 ≤ args.length →
    args.length ≤ 61 →
    exec (.ack n k args) s = .next (finish s (pushAnswer n k (ackNotice (argByte args 0) (argByte args 1) h).1
      (ackNotice (argByte args 0) (argByte args 1) h).2))) ∧
  (∀ (s : State) (n : Station) (k : Byte) (args : List Byte) (i : Fin 8) (x : Notice),
    s.hears = true → s.isRole .cutter = true → s.pub.answers.length < 4 → (acceptFrame n s).isPresent .cab n = true →
    2 ≤ args.length → args.length ≤ 61 → argByte args 0 = BitVec.ofNat 8 i.val → argByte args 1 = x.raise →
    s.permit.state = .stopped → s.permit.breachEntered = true →
    s.notices.slots.get i = some x → x.code = .profileBreach → x.state = .cleared →
    (∀ j, (s.notices.slots.get j).map (·.code) = some .profileBreach → j = i) →
    s.notices.waiting.get NoticeCode.profileBreach.index = false →
    ∃ t, exec (.ack n k args) s = .next t ∧ t.breachNotice = none ∧ t.permit.breachEntered = false ∧
      t.permit.state ≠ .stopped) ∧
  (∀ (s : State) (i : Fin 8) (x : Notice), s.notices.slots.get i = some x →
    (ackNotice (BitVec.ofNat 8 i.val) x.raise s).1 = .done ∧
    (x.state ≠ .cleared →
      (ackNotice (BitVec.ofNat 8 i.val) x.raise s).2.notices.slots.get i = some { x with state := .acked } ∧
      (ackNotice (BitVec.ofNat 8 i.val) x.raise s).2.notices.overflow = false) ∧
    (x.state = .cleared → (ackNotice (BitVec.ofNat 8 i.val) x.raise s).2.notices.slots.get i = none)) ∧
  ∀ (s : State) (slot raise : Byte), (∀ i : Fin 8, slot = BitVec.ofNat 8 i.val →
      (s.notices.slots.get i).map (·.raise) ≠ some raise) →
    ackNotice slot raise s = (.notFound, { s with notices := { s.notices with overflow := false } })

def Obligations.LineOrders : Prop :=
  ∀ (s : State) (n : Station) (k : Byte),
    let h := acceptFrame n s
    s.hears = true → s.role.isSome = true → s.pub.answers.length < 4 →
    (h.isPresent .cab n = true → ∃ t, exec (.clearFault n k) s = .next t ∧ t.line.record = none ∧
      t.rest = (pushAnswer n k .done { h with line := { h.line with record := none } }).rest) ∧
    (h.isPresent .cab n = true → s.line.state = .withdrawn →
      ∃ t, exec (.relink n k) s = .next t ∧ t.line.state = .claiming ∧ t.line.sfc = 0 ∧ t.line.hfc = 0 ∧
        t.line.idleGaps = none ∧ t.claim.window = some (ms 100) ∧ t.line.claim.map (·.joining) = some false ∧
        t.pub.answers = s.pub.answers ++ [{ requester := BitVec.ofNat 8 n.val, number := k, code := AnswerCode.code .done }]) ∧
    (h.isPresent .cab n = true → s.line.state ≠ .withdrawn →
      ∃ t, exec (.relink n k) s = .next t ∧ t.rest = (pushAnswer n k .state h).rest) ∧
    (∀ kind, ∃ t, exec (.orderUnknownKind n k kind) s = .next t ∧ t.rest = (pushAnswer n k .role h).rest) ∧
    ∀ target, ∃ t, exec (.orderOtherTarget n target) s = .next t ∧ t.rest = h.rest

/-- Orders that change nothing else (R170, R171): dropped at a full answer queue; answered ROLE at a station of another
role or from a sender that is not a PRESENT CAB (for MAP_REQUEST, CUTTER); answered RANGE with too few arguments; and the
face map orders answered STATE while RESTORING (R9 step 2, R21). The next state is the whole of it: what follows at the end of
any event (`finish`) from the frame's acceptance with that mark or that answer. -/
def Obligations.OrdersDroppedOrRefused : Prop :=
  (∀ (s : State) (n : Station) (k kind : Byte) (args : List Byte), s.hears = true → 4 ≤ s.pub.answers.length →
    args.length ≤ 61 →
    ∀ c ∈ [Instr.tagFirst n k args, .tagLast n k args, .release n k, .withdraw n k, .protect n k args, .unprotect n k args,
      .advance n k, .washNow n k, .scrubReset n k, .conveyOn n k, .conveyOff n k, .conveyReset n k, .mapRequest n k,
      .ack n k args, .clearFault n k, .relink n k, .orderUnknownKind n k kind],
    exec c s = .next (finish s { acceptFrame n s with pub := { (acceptFrame n s).pub with dropped := true } })) ∧
  (∀ (s : State) (n : Station) (k b : Byte), s.hears = true → s.pub.answers.length < 4 →
    (s.isRole .cutter = true → ∀ c ∈ [Instr.tagFirst n k [], .tagFirst n k [b], .tagLast n k [], .tagLast n k [b],
        .protect n k [], .unprotect n k []],
      exec c s = .next (finish s (pushAnswer n k .range (acceptFrame n s)))) ∧
    (s.role.isSome = true → ∀ c ∈ [Instr.ack n k [], .ack n k [b]], exec c s = .next (finish s (pushAnswer n k .range (acceptFrame n s))))) ∧
  ∀ (s : State) (n : Station) (k : Byte) (args : List Byte), s.hears = true → s.pub.answers.length < 4 →
    args.length ≤ 61 →
    (∀ c needed, (c, needed) ∈ [(Instr.tagFirst n k args, 2), (.tagLast n k args, 2), (.release n k, 0), (.withdraw n k, 0),
        (.protect n k args, 1), (.unprotect n k args, 1), (.advance n k, 0)] →
      (s.isRole .cutter = false ∨
        (needed ≤ args.length ∧ ((acceptFrame n s).isPresent .cab n = false ∨ s.boundRecord n = none)) →
        exec c s = .next (finish s (pushAnswer n k .role (acceptFrame n s)))) ∧
      (needed ≤ args.length → s.isRole .cutter = true → (acceptFrame n s).isPresent .cab n = true →
        (s.boundRecord n).isSome = true → s.recovery.state = .restoring →
        exec c s = .next (finish s (pushAnswer n k .state (acceptFrame n s))))) ∧
    (∀ c ∈ [Instr.washNow n k, .scrubReset n k],
      s.isRole .scrubber = false ∨ (acceptFrame n s).isPresent .cab n = false →
      exec c s = .next (finish s (pushAnswer n k .role (acceptFrame n s)))) ∧
    (∀ c ∈ [Instr.conveyOn n k, .conveyOff n k, .conveyReset n k],
      s.isRole .conveyor = false ∨ (acceptFrame n s).isPresent .cab n = false →
      exec c s = .next (finish s (pushAnswer n k .role (acceptFrame n s)))) ∧
    (s.isRole .cab = false ∨ (acceptFrame n s).isPresent .cutter n = false →
      exec (.mapRequest n k) s = .next (finish s (pushAnswer n k .role (acceptFrame n s)))) ∧
    (∀ c needed, (c, needed) ∈ [(Instr.ack n k args, 2), (.clearFault n k, 0), (.relink n k, 0)] →
      needed ≤ args.length → (acceptFrame n s).isPresent .cab n = false →
      exec c s = .next (finish s (pushAnswer n k .role (acceptFrame n s))))

/-! ## Notices -/

/-- The own queue. A raise renews the code's slot, enters the lowest free one, displaces the oldest NOTE, or waits (R94, R95).
The waiting code of highest class, lowest code first, enters a slot that empties, one after the other (R96). A condition that
goes false clears its notice by class and state (R97). Where one condition has changed since the last judging, the judging is
that clearing and the refill, or that raise; where several have, the order of the passes is the model's choice, log entry 12.
And at every moment the conditions last judged are those of the catalogue (R93; `NoticesJudged`, Safety.lean). -/
def Obligations.RaiseRenewsEntersOrWaits : Prop :=
  let enters (c : NoticeCode) (i : Fin 8) (s t : State) : Prop :=
    let made : Notice := { code := c, raise := s.notices.counter + 1, state := .active, detail := detailOf c s }
    t.rest = s.rest ∧ t.notices.slots = s.notices.slots.set i (some made) ∧ t.notices.counter = s.notices.counter + 1 ∧
    t.notices.order = s.notices.order.filter (· != i) ++ [i] ∧ (t.notices.marks.get i).isSome = true ∧
    t.notices.waiting.get c.index = false ∧
    t.line.trip = if c.cls = .trip ∧ s.line.trip.length < 2 then s.line.trip ++ [made.entry i] else s.line.trip
  (∀ (s : State) (c : NoticeCode),
    let t := raiseNotice c s
    t.rest = s.rest ∧
    match s.notices.slotOf c, freeSlot s.notices, oldestNote s.notices with
    | some i, _, _ | none, some i, _ => enters c i s t ∧ t.notices.overflow = s.notices.overflow
    | none, none, some i =>
      if c.cls = .note then t.notices = { s.notices with waiting := s.notices.waiting.set c.index true, overflow := true }
      else enters c i s t ∧ t.notices.overflow = true ∧ ∀ x, s.notices.slots.get i = some x → x.code ≠ c →
        s.notices.holds.get x.code.index = true → t.notices.waiting.get x.code.index = true
    | none, none, none =>
      t.notices = { s.notices with waiting := s.notices.waiting.set c.index true, overflow := true } ∧ t.line = s.line) ∧
  (∀ (q : NoticeQueue) (d : NoticeCode), nextWaiting q = some d ↔ q.waiting.get d.index = true ∧
    ∀ e : NoticeCode, q.waiting.get e.index = true → d.cls.code < e.cls.code ∨ d.cls = e.cls ∧ d.code ≤ e.code) ∧
  (∀ s : State, match freeSlot s.notices, nextWaiting s.notices with
    | some i, some d => ∃ u, enters d i s u ∧ u.notices.overflow = s.notices.overflow ∧
        u.notices.holds = s.notices.holds ∧ u.notices.waiting = s.notices.waiting.set d.index false ∧ refill s = refill u
    | _, _ => refill s = s) ∧
  (∀ (s : State) (c : NoticeCode),
    let t := clearNotice c s
    match (s.notices.slotOf c).map fun i => (i, s.notices.slots.get i) with
    | some (i, some x) =>
      if c.cls = .note ∨ x.state = .acked then t = { s with notices := { s.notices with
          slots := s.notices.slots.set i none, marks := s.notices.marks.set i none
          order := s.notices.order.filter (· != i) } }
      else if x.state = .active then
        (t.notices.marks.get i).isSome = true ∧ t = { s with notices := { s.notices with
          slots := s.notices.slots.set i (some { x with state := .cleared }), marks := t.notices.marks } }
      else t = s
    | _ => t = { s with notices := { s.notices with waiting := s.notices.waiting.set c.index false } }) ∧
  (∀ (s : State) (c : NoticeCode), c ≠ .profileBreach →
    (∀ k, k ≠ c → k ≠ .profileBreach → s.notices.holds.get k.index = s.condition k) →
    (s.isRole .cutter = true → s.breachNotice.isSome = true → s.headIllegal = true) →
    (c ≠ .stationSilent → s.condition .stationSilent = true →
      ∀ i x, s.notices.slots.get i = some x → x.code = .stationSilent → x.detail = s.silentSet) →
    let judged (b : Bool) (u : State) : State :=
      { u with notices := { u.notices with holds := u.notices.holds.set c.index b } }
    (s.notices.holds.get c.index = true → s.condition c = false →
      judgeNotices s = refill (judged false (clearNotice c s))) ∧
    (s.notices.holds.get c.index = false → s.condition c = true →
      judgeNotices s = judged true (raiseNotice c (refill s)))) ∧
  State.reset.NoticesJudged ∧ ∀ s t : State, s.NoticesJudged → step s = .next t → t.NoticesJudged

/-! ## The CUTTER's own events -/

/-- An event that stops the dwell timer at the moment at which it completes leaves no completion (R41); `permit.reached` is the
model's own field, log entry 17. And the debounce of a pin in any role (R189), low being active: a raw level that stands at
the other value for 20 ms makes the change due, or, at an input that no block reads, makes it, and one that returns sooner never
does. That a raw change comes from outside the table is the model's choice, log entry 28; that a tick is 250 microseconds, that
a due change is taken before the next tick and of several the lowest-numbered first, log entry 1. -/
def Obligations.CutterInputsAndPoseExpiry : Prop :=
  (∀ (s : State) (k : Fin 4) (high : Bool), s.live = true → s.inputs.get k = high →
    let a := s.withPinLevel k high
    (∀ n, n < ms 20 → (passTick^[n] a).inputDue k = none ∧ (passTick^[n] a).inputs.get k = high ∧
      ∀ m, let b := passTick^[m] ((passTick^[n] a).withPinLevel k (!high))
        b.inputDue k = none ∧ b.inputs.get k = high) ∧
    match s.role.bind fun r => r.inputChange k (!high) with
    | some c => (passTick^[ms 20] a).inputDue k = some c ∧ (passTick^[ms 20] a).inputs.get k = high
    | none => (passTick^[ms 20] a).inputs.get k = !high) ∧
  (∀ (s : State) (k : Fin 4) (c : Instr), s.dueAlways = none → s.live = true → s.inputDue k = some c →
    (∀ j < k, s.inputDue j = none) → dueCommand s = some c) ∧
  (∀ s : State, s.live = false → (passTick s).pins = s.pins ∧ (passTick s).inputs = s.inputs) ∧
  ∀ (s : State) (active : Bool), s.live = true → s.isRole .cutter = true →
    (∃ t, exec (.cutRequestChange active) s = .next t ∧ t.inputs = { s.inputs with i0 := active } ∧
      t.rest = (s.withInput 0 active).rest ∧ t.permit.reasons.demand = !active ∧
      (active = false → t.permitOn = false ∧ t.permit.dwell = s.permit.dwell ∧ t.permit.reached = false)) ∧
    (∃ t, exec (.headRunningChange active) s = .next t ∧
      t.rest = (s.withInput 1 active).rest ∧
      (active = false → t.dwellRuns = false ∧ t.permit.dwell = s.permit.dwell ∧ t.permit.reached = false)) ∧
    (s.permit.fresh = true → ∃ t, exec .poseExpiry s = .next t ∧ t.permit.fresh = false ∧
      t.permit.reasons.pose = true ∧ t.permitOn = false ∧ t.permit.head = s.permit.head ∧ t.permit.dwell = s.permit.dwell ∧
      t.face = s.face ∧ t.dust = s.dust ∧ t.inputs = s.inputs ∧ t.claim = s.claim ∧ t.replicas = s.replicas)

/-- The head cell of R24, floors toward minus infinity, and the pose event that takes it: with the permit on, one that takes
the head off the grid, into an OUTSIDE cell or a protected zone is a breach (R36), and with the breach acknowledged, one
that takes it into a legal cell lets the permit leave STOPPED (R38). -/
def Obligations.PoseGivesTheHeadCell : Prop :=
  (∀ (p : Nat) (x y : Word16) (c : Cell), 0 < p →
    (headCellOf p x y = some c ↔
      (c.col.val : Int) = (x.toInt + 16 * p).fdiv p ∧ (c.row.val : Int) = y.toInt.fdiv p)) ∧
  headCellOf 30 (BitVec.ofInt 16 (-481)) 0 = none ∧ headCellOf 30 (BitVec.ofInt 16 (-480)) 0 = some ⟨0, 0⟩ ∧
  headCellOf 30 (BitVec.ofInt 16 (-1)) 299 = some ⟨15, 9⟩ ∧ headCellOf 30 0 300 = some ⟨16, 10⟩ ∧
  headCellOf 30 0 (BitVec.ofInt 16 (-1)) = none ∧
  ∀ (s : State) (e : Fin 16) (high low b : Byte) (parity isX : Bool),
    s.live = true → s.isRole .cutter = true → s.sensor.polled = some e → s.sensor.assembly = .check high low →
    characterValid s.cfg.parity b parity true = true → b = sensorCheck (s.cfg.channels.get e).address high low →
    (s.cfg.channels.get e).meaning = (if isX then .poseX else .poseY) →
    s.channelOf (if isX then .poseX else .poseY) = some e →
    ∃ t, exec (.sensorCharacter b parity true) s = .next t ∧
      t.permit.poseX = (if isX then some (high ++ low) else s.permit.poseX) ∧
      t.permit.poseY = (if isX then s.permit.poseY else some (high ++ low)) ∧
      t.permit.head = (match t.permit.poseX, t.permit.poseY with
        | some x, some y => headCellOf s.image.pitch x y
        | _, _ => none) ∧
      t.permit.dwell = (if t.permit.head = s.permit.head then s.permit.dwell else 0) ∧ t.face = s.face ∧
      t.permit.superseded = (s.permit.superseded || (s.dwellRuns && t.permit.head != s.permit.head)) ∧
      (s.permitOn = true →
        (match t.permit.head with
          | some c => s.cell c = .outside ∨ s.zoneProtected (zoneOf c.row) = true
          | none => True) →
        t.permit.state = .stopped ∧ t.outputs = (false, false, true, false) ∧ t.openLot = none) ∧
      (∀ (i : Fin 8) (x : Notice) (c : Cell), s.permit.state = .stopped → s.permit.breachEntered = true →
        s.notices.slots.get i = some x → x.code = .profileBreach → x.state = .acked →
        (∀ j, (s.notices.slots.get j).map (·.code) = some .profileBreach → j = i) →
        s.notices.waiting.get NoticeCode.profileBreach.index = false → t.permit.head = some c → s.legalCell c = true →
        t.breachNotice = none ∧ t.permit.breachEntered = false ∧ t.permit.state ≠ .stopped)

/-- A tick of the dwell timer, which leaves it short of the configured dwell: the tick that comes to it makes the completion due
(R39, R40; the model's choice, log entries 1 and 17). A dwell that completes; and the completion taken after a pose event that
has reset its timer, or after an event that has stopped it, at the same moment: no credit (R41). -/
def Obligations.DwellCompletesWithACredit : Prop :=
  (∀ (s : State) (c : Cell), s.pending = [] → dueCommand s = none → s.live = true → s.isRole .cutter = true →
    s.permit.head = some c → s.permit.dwell < s.dwellOf (s.kind c) →
    ∃ t, step s = .next t ∧ t.permit.head = some c ∧ t.face = s.face ∧
      if s.dwellRuns = false then t.permit.dwell = s.permit.dwell ∧ t.permit.reached = s.permit.reached
      else if s.permit.dwell + 1 < s.dwellOf (s.kind c) then
        t.permit.dwell = s.permit.dwell + 1 ∧ t.permit.reached = false
      else t.permit.dwell = s.permit.dwell ∧ t.dwellReached = true) ∧
  (∀ s : State, s.live = true → s.isRole .cutter = true → s.dwellRuns = false → s.permit.superseded = false →
    ∃ t, exec .dwellComplete s = .next t ∧ t.rest = s.rest) ∧
  (∀ s : State, s.live = true → s.isRole .cutter = true → s.permit.superseded = true →
    ∃ t, exec .dwellComplete s = .next t ∧ t.permit.superseded = false ∧
      t.rest = { s with permit := { s.permit with superseded := false } }.rest) ∧
  ∀ (s : State) (c : Cell), s.live = true → s.isRole .cutter = true → s.permit.superseded = false →
    s.permit.head = some c → s.dwellRuns = true →
    ∃ t, exec .dwellComplete s = .next t ∧ t.cell c = .cut ∧ (∀ d, d ≠ c → t.cell d = s.cell d) ∧
      t.face = { s.face with cells := t.face.cells } ∧ t.permit.dwell = 0 ∧ t.permit.head = some c ∧
      (t.pub.rowMarks.get c.row).isSome = true ∧
      t.ring.cutMass = s.ring.cutMass + BitVec.ofNat 32 (s.massOf (s.kind c)) ∧
      t.ring.issued = (if s.openLot.isSome then s.ring.issued else s.ring.issued + 1) ∧
      t.dust = s.dust ∧ t.inputs = s.inputs ∧ t.replicas = s.replicas ∧ t.claim = s.claim

/-- A tick: the period position runs to D, and with the permit on the allowance falls by a unit for each 0.1 s, a part of which
is carried (R62, R65); the last unit is left to ALLOWANCE_EXHAUSTED, which then is due. That, and that ALLOWANCE_EXHAUSTED takes
all that remains, whatever the model's own count has left, is the model's choice, log entry 17; the tick, log entry 1. -/
def Obligations.DustTimesActOnTheAllowance : Prop :=
  (∀ s : State, s.pending = [] → dueCommand s = none → s.live = true → s.isRole .cutter = true →
    ∃ t, step s = .next t ∧ t.permitOn = s.permitOn ∧ t.dust.midDone = s.dust.midDone ∧
      t.dust.position = s.dust.position.map (fun p => min (sec s.image.period) (p + 1)) ∧
      if s.permitOn = false ∨ s.dust.remaining = 0 then
        t.dust.remaining = s.dust.remaining ∧ t.dust.used = s.dust.used ∧ t.dust.fraction = s.dust.fraction
      else if s.dust.fraction + 1 < tenth then
        t.dust.remaining = s.dust.remaining ∧ t.dust.used = s.dust.used ∧ t.dust.fraction = s.dust.fraction + 1
      else if 1 < s.dust.remaining then
        t.dust.remaining = s.dust.remaining - 1 ∧ t.dust.used = s.dust.used + 1 ∧ t.dust.fraction = 0
      else t.dust.remaining = 1 ∧ t.dust.used = s.dust.used ∧ t.dust.fraction = tenth ∧ (dueCommand t).isSome = true) ∧
  (∀ (u : DustUnit) (k : Nat), u.fraction < tenth → (u.fraction + k) / tenth < u.remaining →
    let v := DustUnit.spend^[k] u
    v.remaining = u.remaining - (u.fraction + k) / tenth ∧ v.used = u.used + (u.fraction + k) / tenth ∧
      v.fraction = (u.fraction + k) % tenth) ∧
  ∀ (s : State) (p : Ticks), s.live = true → s.isRole .cutter = true → s.dust.position = some p →
    (∃ t, exec .periodStart s = .next t ∧
      t.dust = { position := some 0, midDone := false, remaining := 10 * s.capacityRead, used := 0, fraction := 0 } ∧
      t.permit.reasons.dust = (s.capacityRead == 0) ∧ t.rest = { s with dust := t.dust }.rest) ∧
    (s.dust.midDone = false → ∃ t, exec .midPeriodLowering s = .next t ∧
      t.dust.remaining = min s.dust.remaining (10 * s.capacityRead - s.dust.used) ∧ t.dust.used = s.dust.used ∧
      t.dust.midDone = true ∧ (t.dust.remaining = 0 → t.permit.reasons.dust = true ∧ t.permitOn = false) ∧
      t.rest = { s with dust := t.dust }.rest) ∧
    (s.permitOn = true → 0 < s.dust.remaining → ∃ t, exec .allowanceExhausted s = .next t ∧ t.dust.remaining = 0 ∧
      t.dust.used = s.dust.used + s.dust.remaining ∧ t.permit.reasons.dust = true ∧ t.permitOn = false ∧
      t.rest = { s with dust := t.dust }.rest)

/-! ## SCRUBBER -/

/-- The capacity: the base allowance times the smallest factor whose condition holds, rounded down, and in the own STATUS
(R59, R60); 0 at a station that does not run (R61). The fan by proof and times, and by a demand change that the STATUS of the
PRESENT CUTTER brings (R46 to R48); what the scrubber's values, levels and inputs keep in an event of its times. -/
def Obligations.FanFollowsProofAndTimes : Prop :=
  (∀ s : State, s.isRole .scrubber = true →
    let rows : List (Bool × Nat) :=
      [(!s.scrub.fan.runs, 0), (!s.valueHeld .dust || !s.valueHeld .pressure, 0),
       (s.valueHeld .pressure && atLevel s.image.blocked s.scrub.pressure, 0),
       (s.valueHeld .dust && atLevel s.image.limitLevel s.scrub.dust, 0), (s.scrub.wash == .washing, 25),
       (s.valueHeld .dust && atLevel s.image.actionLevel s.scrub.dust, 50), (s.spray && !s.inputs.i1, 50),
       (s.valueHeld .pressure && atLevel s.image.washDue s.scrub.pressure, 75)]
    s.capacity = (if s.live = true then s.image.base * ((rows.filter (·.1)).map (·.2)).foldl min 100 / 100 else 0) ∧
      ∃ p, s.ownStatus.part = .scrubber p ∧ p.capacity = BitVec.ofNat 8 s.capacity) ∧
  ∀ (s : State) (active : Bool), s.live = true → s.isRole .scrubber = true →
    (s.scrub.fan = .starting → ∃ t, exec (.fanProvenChange true) s = .next t ∧
      t.scrub.fan = (if t.demandShown then .running else .runOn) ∧ t.scrub.startWindow = none ∧
      t.scrub.washAborted = false ∧ t.rest = (s.withInput 0 true).rest) ∧
    (s.scrub.fan.runs = true → s.inputs.i0 = true → s.scrub.proofLoss = none →
      ∃ t, exec (.fanProvenChange false) s = .next t ∧ t.scrub.fan.runs = true ∧ t.scrub.proofLoss = some (sec 2) ∧
        t.rest = (s.withInput 0 false).rest) ∧
    (∃ t, exec (.sprayPressureChange active) s = .next t ∧
      t.rest = (s.withInput 1 active).rest) ∧
    (s.scrub.fan = .starting → ∃ t, exec .startWindowExpiry s = .next t ∧ t.scrub.fan = .fault ∧
      t.scrub.wash ≠ .washing ∧ t.scrub.wash ≠ .settling ∧ t.spray = false ∧ t.rest = s.rest) ∧
    (s.scrub.fan.runs = true → s.scrub.proofLoss.isSome = true → ∃ t, exec .proofLossExpiry s = .next t ∧
      t.scrub.fan = .fault ∧ t.scrub.wash ≠ .washing ∧ t.scrub.wash ≠ .settling ∧ t.capacity = 0 ∧ t.rest = s.rest) ∧
    (s.scrub.fan = .runOn → s.demandShown = false → s.scrub.demand = false → ∃ t, exec .runOnExpiry s = .next t ∧
      t.scrub.fan = .stopped ∧ t.scrub.runOn = none ∧ t.capacity = 0 ∧ t.rest = s.rest) ∧
    ∀ (n : Station) (x : StatusCommon) (p : CutterPart),
      let h := acceptFrame n s
      s.line.awaitsGap = false → n ≠ s.station → x.role = Role.code .cutter → h.presentOf .cutter = some n → h.demandShown = s.scrub.demand →
      s.scrub.demand = !p.demand →
      ∃ t, exec (.stateTaken n (Entry.status ⟨x, .cutter p⟩).bytes) s = .next t ∧ t.scrub.demand = p.demand ∧
        t.scrub.quietLeft = some (sec 10) ∧
        (s.scrub.fan = .stopped → p.demand = true →
          if s.inputs.i0 then t.scrub.fan = .running ∧ t.scrub.startWindow = none
          else t.scrub.fan = .starting ∧ t.scrub.startWindow = some (sec 20)) ∧
        (s.scrub.fan = .starting → s.inputs.i0 = false →
          t.scrub.fan = .starting ∧ t.scrub.startWindow = s.scrub.startWindow) ∧
        (s.scrub.fan = .running → p.demand = false → t.scrub.fan = .runOn ∧ t.scrub.runOn = some (sec 120)) ∧
        (s.scrub.fan = .runOn → p.demand = true → t.scrub.fan = .running ∧ t.scrub.runOn = none) ∧
        (s.scrub.fan = .fault → t.scrub.fan = .fault)

/-- The quiet time, which counts on in every line state (R46) but stands with every item while RESET is held (R191) and after a
failed START (R194), the wash by its times, and what a good answer gives the
scrubber sequencer by the meaning of its entry: DUST the two dust conditions (R58), PRESSURE, read as at most 5000, the wash
state (R52, R53), any other entry nothing (R45). That a step on an empty queue with nothing due is a tick of 250 microseconds
is the model's choice, log entry 1. -/
def Obligations.WashFollowsItsTimes : Prop :=
  (∀ s : State, s.pending = [] → dueCommand s = none → s.isRole .scrubber = true ∨ s.live = false →
    ∃ t, step s = .next t ∧
      if s.live = false ∧ (s.resetHeld = true ∨ s.line.cause = some .config) then t.scrub = s.scrub
      else t.scrub.demand = s.scrub.demand ∧
        t.scrub.quietLeft = (if s.scrub.demand then s.scrub.quietLeft else s.scrub.quietLeft.map (· - 1))) ∧
  ∀ s : State, s.live = true → s.isRole .scrubber = true →
    (∀ (e : Fin 16) (high low b : Byte) (parity : Bool), s.sensor.polled = some e → s.sensor.assembly = .check high low →
      characterValid s.cfg.parity b parity true = true → b = sensorCheck (s.cfg.channels.get e).address high low →
      let v : Word16 := high ++ low
      let p : Word16 := if 5000 < v.toNat then 5000 else v
      let due : Bool := decide (s.image.washDue ≤ p.toNat)
      ∃ t, exec (.sensorCharacter b parity true) s = .next t ∧
        (if s.channelOf .dust = some e then t.scrub.dust = some v ∧
          t.scrub.dustAction = decide (s.image.actionLevel ≤ v.toNat) ∧
          t.scrub.dustLimit = decide (s.image.limitLevel ≤ v.toNat)
        else t.scrub.dust = s.scrub.dust ∧ t.scrub.dustAction = s.scrub.dustAction ∧ t.scrub.dustLimit = s.scrub.dustLimit) ∧
        (s.channelOf .pressure ≠ some e → t.scrub.pressure = s.scrub.pressure) ∧
        (s.channelOf .pressure = some e → t.scrub.pressure = some p ∧
          t.scrub.wash = match s.scrub.wash with
            | .clear | .due =>
              if due then (if t.scrub.fan.runs && t.scrub.quietLeft.isNone then .washing else .due) else .clear
            | .uncleared => if due then .uncleared else .clear
            | w => w)) ∧
    (s.scrub.demand = false → s.demandShown = false → s.scrub.wash = .due → s.scrub.fan.runs = true →
      ∃ t, exec .quietTime10s s = .next t ∧ t.scrub.wash = .washing ∧ t.scrub.washTime = some (sec s.image.washTime) ∧
        t.scrub.quietLeft = none ∧ t.rest = s.rest) ∧
    (s.scrub.wash = .washing → ∃ t, exec .washTimeExpiry s = .next t ∧ t.scrub.wash = .settling ∧
      t.scrub.settling = some (sec 10) ∧ t.scrub.washTime = none ∧ t.rest = s.rest) ∧
    (s.scrub.wash = .settling → ∃ t, exec .settlingExpiry s = .next t ∧ t.scrub.settling = none ∧
      t.scrub.wash = (if s.valueHeld .pressure = true ∧ atLevel s.image.washDue s.scrub.pressure = false then .clear
        else .uncleared) ∧ t.rest = s.rest)

/-! ## CONVEYOR -/

/-- The sequence by its times and proof, and what a good answer gives the conveyor sequencer by the meaning of its entry:
MASS_RATE the rate held, CHAIN_LOAD the stall time in RUNNING (R74), any other entry nothing (R68); and a run demand change
that the STATUS of the PRESENT CUTTER brings (R69, R71, R72). -/
def Obligations.ConveyorStartsAndStopsInSequence : Prop :=
  ∀ s : State, s.live = true → s.isRole .conveyor = true →
    (∀ (e : Fin 16) (high low b : Byte) (parity : Bool), s.sensor.polled = some e → s.sensor.assembly = .check high low →
      characterValid s.cfg.parity b parity true = true → b = sensorCheck (s.cfg.channels.get e).address high low →
      let v : Word16 := high ++ low
      ∃ t, exec (.sensorCharacter b parity true) s = .next t ∧
        (if s.channelOf .massRate = some e then t.conv.rate = some v ∧ t.rateHeld = v.toNat
        else t.conv.rate = s.conv.rate) ∧
        (s.channelOf .chainLoad ≠ some e → t.conv.load = s.conv.load) ∧
        (s.channelOf .chainLoad = some e → t.conv.load = some v ∧
          t.conv.stall.isSome = decide (t.conv.state = .running ∧ s.image.stallLevel ≤ v.toNat))) ∧
    (s.conv.state = .warning → s.inputs.i0 = false → ∃ t, exec .warningExpiry s = .next t ∧
      t.conv.state = .beltStarting ∧ t.conv.beltWindow = some (sec 10) ∧ t.conv.warning = none ∧ t.rest = s.rest) ∧
    (s.conv.state = .beltStarting → s.inputs.i1 = false → ∃ t, exec (.beltProvenChange true) s = .next t ∧
      t.conv.state = .chainStarting ∧ t.conv.chainWindow = some (sec 5) ∧ t.conv.beltWindow = none ∧
      t.rest = (s.withInput 0 true).rest) ∧
    (s.conv.state = .chainStarting → s.wantsRun = true → ∃ t, exec (.chainProvenChange true) s = .next t ∧
      t.conv.state = .running ∧ t.conv.chainWindow = none ∧
      t.rest = (s.withInput 1 true).rest) ∧
    (s.conv.state = .runOff → ∃ t, exec .runOffExpiry s = .next t ∧
      t.conv.state = (if s.wantsRun then .warning else .stopped) ∧ t.conv.runOff = none ∧ t.rest = s.rest) ∧
    (s.conv.state = .running → s.inputs.i0 = true → ∃ t, exec (.beltProvenChange false) s = .next t ∧
      (t.conv.beltLoss.isSome = true) ∧ t.rest = (s.withInput 0 false).rest) ∧
    ∀ (n : Station) (x : StatusCommon) (p : CutterPart),
      let h := acceptFrame n s
      s.line.awaitsGap = false → n ≠ s.station → x.role = Role.code .cutter → h.presentOf .cutter = some n → h.wantsRun = s.conv.runDemand →
      let wants : Bool := p.demand || p.outstanding != 0 || s.conv.standing
      ∃ t, exec (.stateTaken n (Entry.status ⟨x, .cutter p⟩).bytes) s = .next t ∧ t.conv.runDemand = wants ∧
        (s.conv.state = .stopped → s.conv.runDemand = false → wants = true →
          t.conv.state = .warning ∧ t.conv.warning = some (sec 5)) ∧
        (s.conv.state = .running → s.conv.runDemand = true → wants = false →
          t.conv.state = .runOff ∧ t.conv.runOff = some (sec s.image.runOff)) ∧
        (s.conv.state = .runOff → s.conv.runDemand = false → wants = true → t.conv.runOff = none ∧
          if s.inputs.i1 then t.conv.state = .running
          else t.conv.state = .chainStarting ∧ t.conv.chainWindow = some (sec 5)) ∧
        (s.conv.state = .fault → t.conv.state = .fault)

def Obligations.ConveyorFaults : Prop :=
  ∀ s : State, s.live = true → s.isRole .conveyor = true → s.conv.state ≠ .fault →
    (s.conv.state = .beltStarting → ∃ t, exec .beltWindowExpiry s = .next t ∧ t.conv.state = .fault ∧
      t.conv.fault = some .windowOrLoss ∧ t.outputs = (false, false, false, false)) ∧
    (s.conv.state = .chainStarting → ∃ t, exec .chainWindowExpiry s = .next t ∧ t.conv.state = .fault ∧
      t.conv.fault = some .windowOrLoss ∧ t.outputs = (false, false, false, false)) ∧
    (s.conv.beltLoss.isSome = true → ∃ t, exec .beltLossExpiry s = .next t ∧ t.conv.state = .fault ∧
      t.conv.fault = some .windowOrLoss ∧ t.outputs = (false, false, false, false)) ∧
    (s.conv.chainLoss.isSome = true → ∃ t, exec .chainLossExpiry s = .next t ∧ t.conv.state = .fault ∧
      t.conv.fault = some .windowOrLoss ∧ t.outputs = (false, false, false, false)) ∧
    (s.conv.stall.isSome = true → ∃ t, exec .stallExpiry s = .next t ∧ t.conv.state = .fault ∧
      t.conv.fault = some .stall ∧ t.outputs = (false, false, false, false)) ∧
    (s.inputs.i2 = false → ∃ t, exec (.pullWireChange true) s = .next t ∧ t.conv.state = .fault ∧
      t.conv.fault = some .pullWire ∧ t.outputs = (false, false, false, false) ∧ t.conv.records = s.conv.records ∧
      t.conv.standing = s.conv.standing ∧ t.conv.taken = s.conv.taken ∧ t.conv.retired = s.conv.retired)

def Obligations.BeltTimeAndLots : Prop :=
  ∀ s : State, s.live = true → s.isRole .conveyor = true →
    (s.conv.state.beltRuns = true → ∃ t, exec .beltTimeTick s = .next t ∧ t.conv.beltTime = s.conv.beltTime + 1 ∧
      (∀ r queued, s.conv.records = r :: queued → s.conv.windowOpen = true →
        t.conv.records = { r with measured := min Config.massTop (r.measured + s.rateHeld) } :: queued ∧
        t.conv.stray = s.conv.stray) ∧
      (s.conv.windowOpen = false → t.conv.records = s.conv.records ∧
        t.conv.stray = min Config.massTop (s.conv.stray + s.rateHeld)) ∧
      t.conv.taken = s.conv.taken ∧ t.conv.retired = s.conv.retired ∧ t.inputs = s.inputs ∧ t.sensor = s.sensor) ∧
    (∀ r queued, s.conv.records = r :: queued → s.conv.windowOpen = false → s.lotOpening r ≤ s.conv.beltTime →
      s.lotOpening r < s.lotClose r → ∃ t, exec .lotWindowOpen s = .next t ∧ t.conv.windowOpen = true ∧
        t.rest = { s with conv := { s.conv with windowOpen := true } }.rest) ∧
    (∀ r, s.conv.records = [r] → s.conv.windowOpen = true → s.lotClose r ≤ s.conv.beltTime →
      ∃ t, exec .lotRetirement s = .next t ∧ t.conv.records = [] ∧ t.conv.retired = s.conv.retired + 1 ∧
        t.conv.windowOpen = false ∧ t.conv.lastClose = some (s.lotClose r) ∧ t.conv.taken = s.conv.taken ∧
        t.conv.retires = queueRetire ⟨r.lot.number, (lotOutcome s.image r).code, BitVec.ofNat 32 (r.measured / 10)⟩
          s.conv.retires) ∧
    ∀ r queued, s.conv.records = r :: queued → s.conv.windowOpen = true → s.lotClose r ≤ s.conv.beltTime →
      ∃ t, exec .lotRetirement s = .next t ∧ t.rest = (openWindow (retireHead r queued s)).rest

/-! ## CAB: vigilance -/

/-- A period time that reaches V at the moment at which a keyed pair restarts it gives no warning where the pair is taken
first (R112). A demand change that the STATUS of the PRESENT CUTTER brings starts and ends the check (R108 to R110). A change
of the vigilance CAB standing, which a station gone SILENT, one heard again or a claim close brings, clears a half-taken pair
(R111) and puts the check to IDLE, or, where it begins with demand shown, to RUNNING with a full period (R108). -/
def Obligations.VigilanceTimesAndPair : Prop :=
  ∀ s : State, s.live = true → s.isRole .cab = true →
    (s.isVigilanceCab = s.cab.standing → s.demandShown = s.cab.demand →
      (s.cab.vig = .running → s.cab.superseded = false → ∃ t, exec .vigilancePeriodExpiry s = .next t ∧ t.cab.vig = .warned ∧
        t.cab.grace = some (sec 10) ∧ t.cab.period = none ∧ t.hornOn = true ∧ t.rest = s.rest) ∧
      (s.cab.vig = .warned → ∃ t, exec .graceExpiry s = .next t ∧ t.cab.vig = .lapsed ∧ t.cab.grace = none ∧
        t.hornOn = true ∧ t.rest = s.rest) ∧
      (∃ t, exec .keyVigilA s = .next t ∧ t.cab.pair = (if s.cab.pair.isSome then none else some (sec 2)) ∧
        t.cab.vig = s.cab.vig ∧ t.panel.page = s.panel.page ∧ t.rest = s.rest) ∧
      (s.cab.pair.isSome = true → s.cab.standing = true → ∃ t, exec .keyVigilB s = .next t ∧ t.cab.pair = none ∧
        t.rest = s.rest ∧
        match s.cab.vig with
        | .idle => t.cab.vig = .idle
        | .running => t.cab.vig = .running ∧ t.cab.period = some (sec s.image.vigilance) ∧ t.cab.grace = none ∧
            ∃ u, exec .vigilancePeriodExpiry t = .next u ∧ u.cab.vig = .running ∧ u.cab.period = t.cab.period ∧
              u.rest = s.rest
        | .warned => t.cab.vig = .running ∧ t.cab.period = some (sec s.image.vigilance) ∧ t.cab.grace = none
        | .lapsed => t.cab.vig = (if s.demandShown then .running else .idle)) ∧
      (s.cab.pair = none → ∃ t, exec .keyVigilB s = .next t ∧ t.cab.vig = s.cab.vig ∧ t.cab.pair = none ∧
        t.rest = s.rest)) ∧
    (∃ t, exec .vigilPairExpiry s = .next t ∧ t.cab.pair = none ∧ t.rest = s.rest) ∧
    (∀ (n : Station) (x : StatusCommon) (p : CutterPart),
      let h := acceptFrame n s
      s.line.awaitsGap = false → n ≠ s.station → x.role = Role.code .cutter → h.presentOf .cutter = some n → h.demandShown = s.cab.demand →
      h.isVigilanceCab = s.cab.standing → s.cab.demand = !p.demand →
      ∃ t, exec (.stateTaken n (Entry.status ⟨x, .cutter p⟩).bytes) s = .next t ∧ t.cab.demand = p.demand ∧
        t.cab.standing = s.cab.standing ∧
        (s.cab.standing = true → p.demand = true → s.cab.vig = .idle →
          t.cab.vig = .running ∧ t.cab.period = some (sec s.image.vigilance)) ∧
        (s.cab.standing = true → p.demand = false → s.cab.vig = .running ∨ s.cab.vig = .warned →
          t.cab.vig = .idle ∧ t.cab.period = none ∧ t.cab.grace = none) ∧
        (s.cab.standing = false ∨ s.cab.vig = .lapsed → t.cab.vig = s.cab.vig)) ∧
    (∀ (n : Station) (target : Byte), ∀ c ∈ [Instr.silenceTimerExpiry n, .orderOtherTarget n target, .claimWindowExpiry],
      ∃ t, exec c s = .next t ∧ (t.live = true → t.isVigilanceCab ≠ s.cab.standing →
        t.cab.standing = t.isVigilanceCab ∧ t.cab.pair = none ∧ t.cab.demand = t.demandShown ∧
        if t.isVigilanceCab = true ∧ t.demandShown = true then
          t.cab.vig = .running ∧ t.cab.period = some (sec s.image.vigilance) ∧ t.cab.grace = none
        else t.cab.vig = .idle ∧ t.cab.period = none ∧ t.cab.grace = none)) ∧
    ∃ t, exec .hornTimeExpiry s = .next t ∧ t.rest = s.rest ∧
      t.cab.horn = if tripEvents s.cab.list t.cab.list = [] then none else some (sec 3)

/-! ## CAB: the panel -/

/-- The cursor of FACE, the selected line of NOTICES, the selected station of LINE, and PAGE. On NOTICES the selection moves on
the snapshot as it stands, and the snapshot is then taken again of the list as it stands after the key (R119). That UP on LINE
goes to the station before is the model's choice, log entry 22. -/
def Obligations.KeysMoveAbout : Prop :=
  ∀ s : State, s.live = true → s.isRole .cab = true →
    (s.panel.offer = none → s.panel.page = .face →
      (∃ t, exec .keyLeft s = .next t ∧ t.panel = { s.panel with cursor := { s.panel.cursor with col := stepDown s.panel.cursor.col } } ∧
        t.rest = { s with panel := t.panel }.rest) ∧
      (∃ t, exec .keyRight s = .next t ∧ t.panel = { s.panel with cursor := { s.panel.cursor with col := stepUp s.panel.cursor.col } } ∧
        t.rest = { s with panel := t.panel }.rest) ∧
      (∃ t, exec .keyUp s = .next t ∧ t.panel = { s.panel with cursor := { s.panel.cursor with row := stepUp s.panel.cursor.row } } ∧
        t.rest = { s with panel := t.panel }.rest) ∧
      ∃ t, exec .keyDown s = .next t ∧ t.panel = { s.panel with cursor := { s.panel.cursor with row := stepDown s.panel.cursor.row } } ∧
        t.rest = { s with panel := t.panel }.rest) ∧
    (s.panel.offer = none → s.panel.page = .line →
      (∃ t, exec .keyUp s = .next t ∧ t.panel = { s.panel with lineSelection := stepDown s.panel.lineSelection } ∧
        t.rest = { s with panel := t.panel }.rest) ∧
      ∃ t, exec .keyDown s = .next t ∧ t.panel = { s.panel with lineSelection := stepUp s.panel.lineSelection } ∧
        t.rest = { s with panel := t.panel }.rest) ∧
    (s.panel.offer = none → s.panel.page = .notices →
      ∀ c moved act, (c, moved, act) ∈ [(Instr.keyUp, s.panel.selection - 1, keyUp),
          (.keyDown, min (s.panel.selection + 1) (s.panel.snapshot.length - 1), keyDown)] →
        let lines : List SnapLine := (subEvent act s).cab.list.map snapLine
        ∃ t, exec c s = .next t ∧ t.rest = { s with panel := t.panel }.rest ∧ t.panel = { s.panel with
          snapshot := lines
          selection := match s.panel.snapshot[moved]? with
            | some l => (lines.findIdx? fun x => x.owner == l.owner && x.code == l.code).getD
                (min moved (lines.length - 1))
            | none => min moved (lines.length - 1) }) ∧
    ∃ t, exec .keyPage s = .next t ∧ t.panel.page = s.panel.page.next ∧ t.panel.offer = none ∧ t.panel.redraw = true ∧
      t.panel.cursor = s.panel.cursor ∧ t.panel.orders = s.panel.orders ∧ t.panel.tagFirst = s.panel.tagFirst ∧
      t.rest = { s with panel := t.panel }.rest

/-- That UP takes the choice to the kind before and DOWN to the one after is the model's choice, log entry 22: R120 gives no
direction. -/
def Obligations.OffersOpenMoveAndCompose : Prop :=
  ∀ s : State, s.live = true → s.isRole .cab = true →
    (s.panel.page = .dust ∨ s.panel.page = .spoil ∨ s.panel.page = .line) →
    let kinds : List OrderKind := match s.panel.page with
      | .dust => [.washNow, .scrubReset]
      | .spoil => [.conveyOn, .conveyOff, .conveyReset]
      | _ => if s.entryState s.panel.lineSelection = some .silent then [.clearFault, .relink] else [.clearFault]
    (s.panel.offer = none → ∃ t, exec .keySelect s = .next t ∧ t.panel = { s.panel with offer := some ⟨kinds, 0⟩ } ∧
      t.rest = s.rest) ∧
    ∀ o, s.panel.offer = some o → (s.panel.page = .line → o.kinds = kinds ∧ o.chosen < kinds.length) →
      (∃ t, exec .keyDown s = .next t ∧
        t.panel = { s.panel with offer := some { o with chosen := min (o.chosen + 1) (o.kinds.length - 1) } }) ∧
      (∃ t, exec .keyUp s = .next t ∧ t.panel = { s.panel with offer := some { o with chosen := o.chosen - 1 } }) ∧
      (∀ c ∈ [Instr.keyLeft, .keyRight, .keyRelease, .keyWithdraw, .keyProtect, .keyAdvance, .keyAck],
        ∃ t, exec c s = .next t ∧ t.panel = { s.panel with offer := none }) ∧
      (∃ t, exec .keyPage s = .next t ∧
        t.panel = { s.panel with page := s.panel.page.next, offer := none, redraw := true }) ∧
      ∀ k n, o.kinds[o.chosen]? = some k → s.kindTarget k = some n → n ≠ s.station →
        s.entryState n = some (if k = .relink then .silent else .present) → s.panel.orders.length < 4 →
        ∃ t, exec .keySelect s = .next t ∧ t.panel = { s.panel with
          offer := none
          counter := s.panel.counter + 1
          orders := s.panel.orders ++ [⟨s.panel.counter + 1, n, k, [], none⟩] }

/-- The order a FACE key composes, with the tag step once it is entered (R118). -/
def Obligations.FaceKeysComposeOrders : Prop :=
  ∀ (s : State) (c : Instr) (kind : OrderKind) (args : List Byte) (step : Bool),
    s.live = true → s.isRole .cab = true → s.panel.page = .face → s.panel.offer = none →
    (c, kind, args, step) ∈
      [(Instr.keySelect, if s.panel.tagFirst then OrderKind.tagLast else .tagFirst,
        [BitVec.ofNat 8 s.panel.cursor.col.val, BitVec.ofNat 8 s.panel.cursor.row.val], !s.panel.tagFirst),
       (.keyRelease, .release, [], false), (.keyWithdraw, .withdraw, [], false), (.keyAdvance, .advance, [], false),
       (.keyProtect, if s.zoneDrawn (zoneOf s.panel.cursor.row) then .unprotect else .protect,
        [BitVec.ofNat 8 (zoneOf s.panel.cursor.row)], false)] →
    (s.presentOf .cutter = none → ∃ t, exec c s = .next t ∧ t.panel = { s.panel with status := .noStation }) ∧
    (∀ n, s.presentOf .cutter = some n →
      (4 ≤ s.panel.orders.length → ∃ t, exec c s = .next t ∧ t.panel = { s.panel with status := .busy }) ∧
      (s.panel.orders.length < 4 → ∃ t, exec c s = .next t ∧ t.panel = { s.panel with
        counter := s.panel.counter + 1
        tagFirst := step
        orders := s.panel.orders ++ [⟨s.panel.counter + 1, n, kind, args, none⟩] }))

/-- An ACK of a line of the own station goes to the CAB's own queue at once (R98, R116); its effect there is `ackNotice`, stated
in AckMatchesSlotAndRaise. What follows the key, the snapshot taken again (R119) and the end of the event close it. -/
def Obligations.AckKeyComposesOrClears : Prop :=
  ∀ s : State, s.live = true → s.isRole .cab = true → s.panel.offer = none →
    (∀ l, s.panel.page = .notices → s.panel.snapshot[s.panel.selection]? = some l → l.owner ≠ s.station →
      s.entryState l.owner = some .present → s.panel.orders.length < 4 →
      ∃ t, exec .keyAck s = .next t ∧ t.panel.counter = s.panel.counter + 1 ∧
        t.panel.orders = s.panel.orders ++ [⟨s.panel.counter + 1, l.owner, .ack, [l.slot, l.raise], none⟩]) ∧
    (∀ l, s.panel.page = .notices → s.panel.snapshot[s.panel.selection]? = some l → l.owner = s.station →
      let a := ackNotice l.slot l.raise s
      let u := { a.2 with panel := { s.panel with status := .answer .ack s.station a.1.code, answerMissing := false } }
      ∃ t, exec .keyAck s = .next t ∧ t = finish s (takeSnapshot (subEvent (fun _ => u) s)) ∧
        t.panel.counter = s.panel.counter ∧ t.panel.orders = s.panel.orders ∧
        t.panel.status = .answer .ack s.station a.1.code ∧ t.panel.answerMissing = false ∧
        t.rest = { a.2 with panel := t.panel }.rest) ∧
    (∀ f, s.panel.page = .firstOut → s.cab.firstOut = some f →
      (s.firstOutCand f).map (·.entry.state) = some NoticeState.active.code →
      ∃ t, exec .keyAck s = .next t ∧ t.panel = { s.panel with status := .active } ∧ t.cab.firstOut = some f) ∧
    (∀ f, s.panel.page = .firstOut → s.cab.firstOut = some f →
      (s.firstOutCand f).map (·.entry.state) ≠ some NoticeState.active.code →
      let u := sync { s with cab := { s.cab with firstOut := none } }
      ∃ t, exec .keyAck s = .next t ∧ t.panel = s.panel ∧ t = finish s u ∧
        (tripEvents s.cab.list u.cab.list = [] → tripEvents u.cab.list t.cab.list = [] → t.cab.firstOut = none))

/-- That a report with its lead byte which ends short of its length counts as one that fails, and ends the clocking of that
wait, is the model's reading, log entry 42. A cycle of PCK is its level on PDI while the clock is low and at the rising edge (R200);
that bytes count from the first rising edge after PSEL goes inactive is the model's choice, log entry 61. The keys of a report
are taken in order (`takeKeys`), each as its own command takes it (`pressKey`), whose statements are those of the keys. -/
def Obligations.PanelLinkUpAndDown : Prop :=
  (∀ (cycles : List (Bool × Bool)) (bytes : List Byte), cycles.map (·.2) = bytesFromTop bytes →
    keyReportRead (cycles.flatMap fun c => [(false, c.1), (true, c.2)]) = .keyReport bytes) ∧
  (∀ s : State, takeKeys [] s = s) ∧
  (∀ (b : Byte) (codes : List Byte) (s : State), takeKeys (b :: codes) s = takeKeys codes (match Key.ofCode b with
    | some k => pressKey k s
    | none => s)) ∧
  ∀ s : State, s.live = true → s.isRole .cab = true →
    (∀ c k, (c, k) ∈ [(Instr.keyPage, Key.page), (.keyUp, .up), (.keyDown, .down), (.keyLeft, .left), (.keyRight, .right),
        (.keySelect, .select), (.keyRelease, .release), (.keyWithdraw, .withdraw), (.keyProtect, .protect),
        (.keyAdvance, .advance), (.keyAck, .ack), (.keyVigilA, .vigilA), (.keyVigilB, .vigilB)] →
      exec c s = .next (finish s (pressKey k s))) ∧
    (s.panel.frameTimer.isSome = true → ∃ t, exec .panelFrameSend s = .next t ∧
      t = finish s { s with panel := { s.panel with
        frame := some s.panelFrame, drawn := s.pageLines, redraw := false, frameTimer := some (ms 100)
        keyWait := some (ms 50), clocking := true } } ∧
      t.panel.frame = some s.panelFrame ∧
      t.panel.frameTimer = some (ms 100) ∧ t.panel.keyWait = some (ms 50) ∧ t.panel.clocking = true ∧ t.panel.redraw = false ∧
      t.panel.up = s.panel.up ∧ t.panel.missing = s.panel.missing ∧ t.panel.page = s.panel.page) ∧
    (∀ bytes, s.panel.keyWait.isSome = true → s.panel.clocking = true → readKeyReport bytes = some [] →
      ∃ t, exec (.keyReport bytes) s = .next t ∧ t.panel.up = true ∧ t.panel.missing = 0 ∧ t.panel.keyWait = none ∧
        t.sensor.ready = true ∧ t.panel.page = s.panel.page ∧ t.panel.orders = s.panel.orders) ∧
    (∀ bytes codes, s.panel.keyWait.isSome = true → s.panel.clocking = true → readKeyReport bytes = some codes →
      exec (.keyReport bytes) s = .next (finish s (takeKeys codes (subEvent (fun _ => setReady true { s with
        panel := { s.panel with
          up := true, missing := 0, keyWait := none, clocking := false, replied := some s.panel.drawn } }) s)))) ∧
    (∀ bytes, s.panel.keyWait.isSome = true → s.panel.clocking = true → readKeyReport bytes = none →
      exec (.keyReport bytes) s =
        .next (finish s { s with panel := { s.panel with clocking := !bytes.contains 0xA6 } })) ∧
    (∀ bytes, s.panel.keyWait = none ∨ s.panel.clocking = false → exec (.keyReport bytes) s = .next (finish s s)) ∧
    (s.panel.keyWait.isSome = true → s.panel.missing < 2 ∨ s.panel.up = false → ∃ t, exec .keyReportMissing s = .next t ∧
      t = finish s { s with panel := { s.panel with
        missing := min 3 (s.panel.missing + 1), keyWait := none, clocking := false } } ∧
      t.panel.missing = min 3 (s.panel.missing + 1) ∧ t.panel.keyWait = none ∧ t.panel.up = s.panel.up ∧
      t.sensor.ready = s.sensor.ready) ∧
    (s.panel.keyWait.isSome = true → 2 ≤ s.panel.missing → s.panel.up = true → ∃ t, exec .keyReportMissing s = .next t ∧
      t = finish s (setReady false { s with
        panel := { s.panel with up := false, offer := none, missing := 3, keyWait := none, clocking := false }
        cab := { s.cab with pair := none } }) ∧
      t.panel.missing = 3 ∧ t.panel.up = false ∧ t.sensor.ready = false ∧ t.panel.offer = none ∧ t.cab.pair = none) ∧
    (s.panel.keyWait = none → exec .keyReportMissing s = .next (finish s s)) ∧
    (∀ k, s.panel.orders.find? (fun q => q.number == k && q.sent.isSome) = none →
      exec (.pendingOrderTimeout k) s = .next (finish s s)) ∧
    ∀ p, p ∈ s.panel.orders → s.panel.orders.find? (fun q => q.number == p.number && q.sent.isSome) = some p →
      ∃ t, exec (.pendingOrderTimeout p.number) s = .next t ∧
        t = finish s { s with panel := { s.panel with
          orders := s.panel.orders.filter fun q => !(q.number == p.number && q.sent.isSome)
          status := .noAnswer p.kind p.target, answerMissing := true } } ∧
        t.panel.status = .noAnswer p.kind p.target ∧ t.panel.answerMissing = true ∧ p ∉ t.panel.orders ∧
        t.panel.orders = s.panel.orders.filter fun q => !(q.number == p.number && q.sent.isSome)

/-! ## Sensor line -/

/-- Polls, and a character taken in each position of the answer assembly (R184): valid, which also ends a break (R181), or
with a parity or framing mark (a good answer stands in SensorCheckIsTheStatedValue); then misses, discards, breaks and stale
values. A character taken first at the moment at which the gap limit is passed lets the frame go on (R184), and a good answer
taken first at the moment at which the value's age reaches its limit leaves the value held (R187); `s.restarted` is the model's own field, log entry 6. The model's choice, log entry 53: a further break while BROKEN ends the
outstanding poll and begins the quiet wait also where no frame is in assembly. -/
def Obligations.SensorPollsAndFailures : Prop :=
  ∀ (s : State) (e : Fin 16), s.live = true →
    (∀ (b : Byte) (parity stop : Bool), characterValid s.cfg.parity b parity stop = true →
      let heard : SensorUnit := { s.sensor with broken := false }
      let discarded : SensorUnit := { heard with
        polled := none, assembly := .hunt, quietWait := true
        channels := s.sensor.channels.set e (countMiss (s.sensor.channels.get e)) }
      let address := (s.cfg.channels.get e).address
      (s.sensor.polled = none → s.sensor.assembly = .hunt →
        ∃ t, exec (.sensorCharacter b parity stop) s = .next t ∧ t.rest = { s with sensor := heard }.rest) ∧
      (s.sensor.polled = some e → s.sensor.assembly = .hunt →
        ∃ t, exec (.sensorCharacter b parity stop) s = .next t ∧
          t.rest = { s with sensor := if b = 0xA5 then { heard with assembly := .channel } else heard }.rest) ∧
      (s.sensor.polled = some e → s.sensor.assembly = .channel →
        ∃ t, exec (.sensorCharacter b parity stop) s = .next t ∧
          t.rest = { s with sensor := if b = address then { heard with assembly := .high } else discarded }.rest) ∧
      (s.sensor.polled = some e → s.sensor.assembly = .high →
        ∃ t, exec (.sensorCharacter b parity stop) s = .next t ∧
          t.rest = { s with sensor := { heard with assembly := .low b } }.rest) ∧
      (∀ high, s.sensor.polled = some e → s.sensor.assembly = .low high →
        ∃ t, exec (.sensorCharacter b parity stop) s = .next t ∧
          t.rest = { s with sensor := { heard with assembly := .check high b } }.rest) ∧
      ∀ high low, s.sensor.polled = some e → s.sensor.assembly = .check high low → b ≠ sensorCheck address high low →
        ∃ t, exec (.sensorCharacter b parity stop) s = .next t ∧ t.rest = { s with sensor := discarded }.rest) ∧
    (∀ (b : Byte) (parity stop : Bool), characterValid s.cfg.parity b parity stop = false →
      (s.sensor.assembly = .hunt → ∃ t, exec (.sensorCharacter b parity stop) s = .next t ∧ t.rest = s.rest) ∧
      (s.sensor.polled = some e → s.sensor.assembly ≠ .hunt →
        ∃ t, exec (.sensorCharacter b parity stop) s = .next t ∧ t.rest = { s with sensor := { s.sensor with
          polled := none, assembly := .hunt, quietWait := true
          channels := s.sensor.channels.set e (countMiss (s.sensor.channels.get e)) } }.rest)) ∧
    (s.polledEntry e = true → (s.sensor.channels.get e).next.isSome = true → ∃ t, exec (.channelDue e) s = .next t ∧
      t.rest = { s with sensor := { s.sensor with
        channels := s.sensor.channels.set e { s.sensor.channels.get e with due := true, next := none } } }.rest) ∧
    (s.mayPoll = true → s.nextPoll = some e → ∃ t, exec .pollSend s = .next t ∧
      t.rest = { s with sensor := { s.sensor with
        polled := some e, assembly := .hunt
        channels := s.sensor.channels.set e { s.sensor.channels.get e with
          due := false, next := some (tenMs (s.cfg.channels.get e).interval) } } }.rest) ∧
    (∃ t, exec .quietWaitEnd s = .next t ∧ t.rest = { s with sensor := { s.sensor with quietWait := false } }.rest) ∧
    (s.sensor.polled = some e → s.sensor.assembly = .hunt → ∃ t, exec .answerTimeout s = .next t ∧
      t.rest = { s with sensor := { s.sensor with
        polled := none, channels := s.sensor.channels.set e (countMiss (s.sensor.channels.get e)) } }.rest) ∧
    (∀ (b : Byte) (parity stop : Bool), characterValid s.cfg.parity b parity stop = true → s.sensor.polled = some e →
      s.sensor.assembly = .channel ∧ b = (s.cfg.channels.get e).address ∨ s.sensor.assembly = .high ∨
        (∃ high, s.sensor.assembly = .low high) →
      ∃ t u, exec (.sensorCharacter b parity stop) s = .next t ∧ exec .gapLimitExpiry t = .next u ∧ u.rest = t.rest ∧
        u.sensor.polled = some e ∧ u.sensor.assembly ≠ .hunt) ∧
    (s.sensor.polled = some e → s.sensor.assembly ≠ .hunt → .gapLimitExpiry ∉ s.restarted →
      ∃ t, exec .gapLimitExpiry s = .next t ∧
      t.rest = { s with sensor := { s.sensor with
        polled := none, assembly := .hunt, quietWait := true
        channels := s.sensor.channels.set e (countMiss (s.sensor.channels.get e)) } }.rest) ∧
    (s.sensor.polled = some e → s.sensor.broken = true → ∃ t, exec .sensorBreak s = .next t ∧
      t.rest = { s with sensor := { s.sensor with
        polled := none, assembly := .hunt, quietWait := true
        channels := s.sensor.channels.set e (countMiss (s.sensor.channels.get e)) } }.rest) ∧
    (s.sensor.broken = false → s.polledEntry e = true → ∃ t, exec .sensorBreak s = .next t ∧ t.sensor.broken = true ∧
      (t.sensor.channels.get e).state = .fault ∧ (t.sensor.channels.get e).miss = 3 ∧
      (t.sensor.channels.get e).value = (s.sensor.channels.get e).value ∧ (s.sensor.polled ≠ none → t.sensor.polled = none ∧
        t.sensor.assembly = .hunt ∧ t.sensor.quietWait = true) ∧ t.inputs = s.inputs ∧ t.face = s.face) ∧
    (∀ (high low b : Byte) (parity : Bool), s.sensor.polled = some e → s.sensor.assembly = .check high low →
      characterValid s.cfg.parity b parity true = true → b = sensorCheck (s.cfg.channels.get e).address high low →
      (s.sensor.channels.get e).value.isSome = true → (s.sensor.channels.get e).stale = false →
      0 < (s.sensor.channels.get e).age → 0 < s.staleAge e →
      ∃ t u, exec (.sensorCharacter b parity true) s = .next t ∧ exec (.valueStale e) t = .next u ∧ u.rest = t.rest ∧
        (u.sensor.channels.get e).stale = false ∧ (u.sensor.channels.get e).value = some (high ++ low)) ∧
    ((s.sensor.channels.get e).value.isSome = true → (s.sensor.channels.get e).stale = false → .valueStale e ∉ s.restarted →
      ∃ t, exec (.valueStale e) s = .next t ∧ (t.sensor.channels.get e).stale = true ∧
        (t.sensor.channels.get e).held = false ∧ (t.sensor.channels.get e).value = (s.sensor.channels.get e).value ∧
        t.inputs = s.inputs ∧ t.face = s.face)
end

