-- ==== Sys2Proof/Laws/State.lean ====
section
/-! SUPPORT. One lemma for each field and each named update of the state: the updated field reads as the update gives, and
every other field as before. -/

namespace Sys2Proof.Machine.State

variable (s : State)

@[simp] theorem withNotices_pending (f : NoticeQueue → NoticeQueue) : (s.withNotices f).pending = s.pending := rfl
@[simp] theorem withNotices_restarted (f : NoticeQueue → NoticeQueue) : (s.withNotices f).restarted = s.restarted := rfl
@[simp] theorem withNotices_serial (f : NoticeQueue → NoticeQueue) : (s.withNotices f).serial = s.serial := rfl
@[simp] theorem withNotices_straps (f : NoticeQueue → NoticeQueue) : (s.withNotices f).straps = s.straps := rfl
@[simp] theorem withNotices_station (f : NoticeQueue → NoticeQueue) : (s.withNotices f).station = s.station := rfl
@[simp] theorem withNotices_resetHeld (f : NoticeQueue → NoticeQueue) : (s.withNotices f).resetHeld = s.resetHeld := rfl
@[simp] theorem withNotices_spi (f : NoticeQueue → NoticeQueue) : (s.withNotices f).spi = s.spi := rfl
@[simp] theorem withNotices_image (f : NoticeQueue → NoticeQueue) : (s.withNotices f).image = s.image := rfl
@[simp] theorem withNotices_status (f : NoticeQueue → NoticeQueue) : (s.withNotices f).status = s.status := rfl
@[simp] theorem withNotices_inputs (f : NoticeQueue → NoticeQueue) : (s.withNotices f).inputs = s.inputs := rfl
@[simp] theorem withNotices_pins (f : NoticeQueue → NoticeQueue) : (s.withNotices f).pins = s.pins := rfl
@[simp] theorem withNotices_line (f : NoticeQueue → NoticeQueue) : (s.withNotices f).line = s.line := rfl
@[simp] theorem withNotices_claim (f : NoticeQueue → NoticeQueue) : (s.withNotices f).claim = s.claim := rfl
@[simp] theorem withNotices_pub (f : NoticeQueue → NoticeQueue) : (s.withNotices f).pub = s.pub := rfl
@[simp] theorem withNotices_notices (f : NoticeQueue → NoticeQueue) : (s.withNotices f).notices = f s.notices := rfl
@[simp] theorem withNotices_replicas (f : NoticeQueue → NoticeQueue) : (s.withNotices f).replicas = s.replicas := rfl
@[simp] theorem withNotices_cabMap (f : NoticeQueue → NoticeQueue) : (s.withNotices f).cabMap = s.cabMap := rfl
@[simp] theorem withNotices_recovery (f : NoticeQueue → NoticeQueue) : (s.withNotices f).recovery = s.recovery := rfl
@[simp] theorem withNotices_sensor (f : NoticeQueue → NoticeQueue) : (s.withNotices f).sensor = s.sensor := rfl
@[simp] theorem withNotices_face (f : NoticeQueue → NoticeQueue) : (s.withNotices f).face = s.face := rfl
@[simp] theorem withNotices_permit (f : NoticeQueue → NoticeQueue) : (s.withNotices f).permit = s.permit := rfl
@[simp] theorem withNotices_dust (f : NoticeQueue → NoticeQueue) : (s.withNotices f).dust = s.dust := rfl
@[simp] theorem withNotices_ring (f : NoticeQueue → NoticeQueue) : (s.withNotices f).ring = s.ring := rfl
@[simp] theorem withNotices_scrub (f : NoticeQueue → NoticeQueue) : (s.withNotices f).scrub = s.scrub := rfl
@[simp] theorem withNotices_conv (f : NoticeQueue → NoticeQueue) : (s.withNotices f).conv = s.conv := rfl
@[simp] theorem withNotices_cab (f : NoticeQueue → NoticeQueue) : (s.withNotices f).cab = s.cab := rfl
@[simp] theorem withNotices_panel (f : NoticeQueue → NoticeQueue) : (s.withNotices f).panel = s.panel := rfl

@[simp] theorem withPanel_pending (f : PanelUnit → PanelUnit) : (s.withPanel f).pending = s.pending := rfl
@[simp] theorem withPanel_restarted (f : PanelUnit → PanelUnit) : (s.withPanel f).restarted = s.restarted := rfl
@[simp] theorem withPanel_serial (f : PanelUnit → PanelUnit) : (s.withPanel f).serial = s.serial := rfl
@[simp] theorem withPanel_straps (f : PanelUnit → PanelUnit) : (s.withPanel f).straps = s.straps := rfl
@[simp] theorem withPanel_station (f : PanelUnit → PanelUnit) : (s.withPanel f).station = s.station := rfl
@[simp] theorem withPanel_resetHeld (f : PanelUnit → PanelUnit) : (s.withPanel f).resetHeld = s.resetHeld := rfl
@[simp] theorem withPanel_spi (f : PanelUnit → PanelUnit) : (s.withPanel f).spi = s.spi := rfl
@[simp] theorem withPanel_image (f : PanelUnit → PanelUnit) : (s.withPanel f).image = s.image := rfl
@[simp] theorem withPanel_status (f : PanelUnit → PanelUnit) : (s.withPanel f).status = s.status := rfl
@[simp] theorem withPanel_inputs (f : PanelUnit → PanelUnit) : (s.withPanel f).inputs = s.inputs := rfl
@[simp] theorem withPanel_pins (f : PanelUnit → PanelUnit) : (s.withPanel f).pins = s.pins := rfl
@[simp] theorem withPanel_line (f : PanelUnit → PanelUnit) : (s.withPanel f).line = s.line := rfl
@[simp] theorem withPanel_claim (f : PanelUnit → PanelUnit) : (s.withPanel f).claim = s.claim := rfl
@[simp] theorem withPanel_pub (f : PanelUnit → PanelUnit) : (s.withPanel f).pub = s.pub := rfl
@[simp] theorem withPanel_notices (f : PanelUnit → PanelUnit) : (s.withPanel f).notices = s.notices := rfl
@[simp] theorem withPanel_replicas (f : PanelUnit → PanelUnit) : (s.withPanel f).replicas = s.replicas := rfl
@[simp] theorem withPanel_cabMap (f : PanelUnit → PanelUnit) : (s.withPanel f).cabMap = s.cabMap := rfl
@[simp] theorem withPanel_recovery (f : PanelUnit → PanelUnit) : (s.withPanel f).recovery = s.recovery := rfl
@[simp] theorem withPanel_sensor (f : PanelUnit → PanelUnit) : (s.withPanel f).sensor = s.sensor := rfl
@[simp] theorem withPanel_face (f : PanelUnit → PanelUnit) : (s.withPanel f).face = s.face := rfl
@[simp] theorem withPanel_permit (f : PanelUnit → PanelUnit) : (s.withPanel f).permit = s.permit := rfl
@[simp] theorem withPanel_dust (f : PanelUnit → PanelUnit) : (s.withPanel f).dust = s.dust := rfl
@[simp] theorem withPanel_ring (f : PanelUnit → PanelUnit) : (s.withPanel f).ring = s.ring := rfl
@[simp] theorem withPanel_scrub (f : PanelUnit → PanelUnit) : (s.withPanel f).scrub = s.scrub := rfl
@[simp] theorem withPanel_conv (f : PanelUnit → PanelUnit) : (s.withPanel f).conv = s.conv := rfl
@[simp] theorem withPanel_cab (f : PanelUnit → PanelUnit) : (s.withPanel f).cab = s.cab := rfl
@[simp] theorem withPanel_panel (f : PanelUnit → PanelUnit) : (s.withPanel f).panel = f s.panel := rfl

@[simp] theorem withCab_pending (f : CabUnit → CabUnit) : (s.withCab f).pending = s.pending := rfl
@[simp] theorem withCab_restarted (f : CabUnit → CabUnit) : (s.withCab f).restarted = s.restarted := rfl
@[simp] theorem withCab_serial (f : CabUnit → CabUnit) : (s.withCab f).serial = s.serial := rfl
@[simp] theorem withCab_straps (f : CabUnit → CabUnit) : (s.withCab f).straps = s.straps := rfl
@[simp] theorem withCab_station (f : CabUnit → CabUnit) : (s.withCab f).station = s.station := rfl
@[simp] theorem withCab_resetHeld (f : CabUnit → CabUnit) : (s.withCab f).resetHeld = s.resetHeld := rfl
@[simp] theorem withCab_spi (f : CabUnit → CabUnit) : (s.withCab f).spi = s.spi := rfl
@[simp] theorem withCab_image (f : CabUnit → CabUnit) : (s.withCab f).image = s.image := rfl
@[simp] theorem withCab_status (f : CabUnit → CabUnit) : (s.withCab f).status = s.status := rfl
@[simp] theorem withCab_inputs (f : CabUnit → CabUnit) : (s.withCab f).inputs = s.inputs := rfl
@[simp] theorem withCab_pins (f : CabUnit → CabUnit) : (s.withCab f).pins = s.pins := rfl
@[simp] theorem withCab_line (f : CabUnit → CabUnit) : (s.withCab f).line = s.line := rfl
@[simp] theorem withCab_claim (f : CabUnit → CabUnit) : (s.withCab f).claim = s.claim := rfl
@[simp] theorem withCab_pub (f : CabUnit → CabUnit) : (s.withCab f).pub = s.pub := rfl
@[simp] theorem withCab_notices (f : CabUnit → CabUnit) : (s.withCab f).notices = s.notices := rfl
@[simp] theorem withCab_replicas (f : CabUnit → CabUnit) : (s.withCab f).replicas = s.replicas := rfl
@[simp] theorem withCab_cabMap (f : CabUnit → CabUnit) : (s.withCab f).cabMap = s.cabMap := rfl
@[simp] theorem withCab_recovery (f : CabUnit → CabUnit) : (s.withCab f).recovery = s.recovery := rfl
@[simp] theorem withCab_sensor (f : CabUnit → CabUnit) : (s.withCab f).sensor = s.sensor := rfl
@[simp] theorem withCab_face (f : CabUnit → CabUnit) : (s.withCab f).face = s.face := rfl
@[simp] theorem withCab_permit (f : CabUnit → CabUnit) : (s.withCab f).permit = s.permit := rfl
@[simp] theorem withCab_dust (f : CabUnit → CabUnit) : (s.withCab f).dust = s.dust := rfl
@[simp] theorem withCab_ring (f : CabUnit → CabUnit) : (s.withCab f).ring = s.ring := rfl
@[simp] theorem withCab_scrub (f : CabUnit → CabUnit) : (s.withCab f).scrub = s.scrub := rfl
@[simp] theorem withCab_conv (f : CabUnit → CabUnit) : (s.withCab f).conv = s.conv := rfl
@[simp] theorem withCab_cab (f : CabUnit → CabUnit) : (s.withCab f).cab = f s.cab := rfl
@[simp] theorem withCab_panel (f : CabUnit → CabUnit) : (s.withCab f).panel = s.panel := rfl

@[simp] theorem withScrub_pending (f : Scrubber → Scrubber) : (s.withScrub f).pending = s.pending := rfl
@[simp] theorem withScrub_restarted (f : Scrubber → Scrubber) : (s.withScrub f).restarted = s.restarted := rfl
@[simp] theorem withScrub_serial (f : Scrubber → Scrubber) : (s.withScrub f).serial = s.serial := rfl
@[simp] theorem withScrub_straps (f : Scrubber → Scrubber) : (s.withScrub f).straps = s.straps := rfl
@[simp] theorem withScrub_station (f : Scrubber → Scrubber) : (s.withScrub f).station = s.station := rfl
@[simp] theorem withScrub_resetHeld (f : Scrubber → Scrubber) : (s.withScrub f).resetHeld = s.resetHeld := rfl
@[simp] theorem withScrub_spi (f : Scrubber → Scrubber) : (s.withScrub f).spi = s.spi := rfl
@[simp] theorem withScrub_image (f : Scrubber → Scrubber) : (s.withScrub f).image = s.image := rfl
@[simp] theorem withScrub_status (f : Scrubber → Scrubber) : (s.withScrub f).status = s.status := rfl
@[simp] theorem withScrub_inputs (f : Scrubber → Scrubber) : (s.withScrub f).inputs = s.inputs := rfl
@[simp] theorem withScrub_pins (f : Scrubber → Scrubber) : (s.withScrub f).pins = s.pins := rfl
@[simp] theorem withScrub_line (f : Scrubber → Scrubber) : (s.withScrub f).line = s.line := rfl
@[simp] theorem withScrub_claim (f : Scrubber → Scrubber) : (s.withScrub f).claim = s.claim := rfl
@[simp] theorem withScrub_pub (f : Scrubber → Scrubber) : (s.withScrub f).pub = s.pub := rfl
@[simp] theorem withScrub_notices (f : Scrubber → Scrubber) : (s.withScrub f).notices = s.notices := rfl
@[simp] theorem withScrub_replicas (f : Scrubber → Scrubber) : (s.withScrub f).replicas = s.replicas := rfl
@[simp] theorem withScrub_cabMap (f : Scrubber → Scrubber) : (s.withScrub f).cabMap = s.cabMap := rfl
@[simp] theorem withScrub_recovery (f : Scrubber → Scrubber) : (s.withScrub f).recovery = s.recovery := rfl
@[simp] theorem withScrub_sensor (f : Scrubber → Scrubber) : (s.withScrub f).sensor = s.sensor := rfl
@[simp] theorem withScrub_face (f : Scrubber → Scrubber) : (s.withScrub f).face = s.face := rfl
@[simp] theorem withScrub_permit (f : Scrubber → Scrubber) : (s.withScrub f).permit = s.permit := rfl
@[simp] theorem withScrub_dust (f : Scrubber → Scrubber) : (s.withScrub f).dust = s.dust := rfl
@[simp] theorem withScrub_ring (f : Scrubber → Scrubber) : (s.withScrub f).ring = s.ring := rfl
@[simp] theorem withScrub_scrub (f : Scrubber → Scrubber) : (s.withScrub f).scrub = f s.scrub := rfl
@[simp] theorem withScrub_conv (f : Scrubber → Scrubber) : (s.withScrub f).conv = s.conv := rfl
@[simp] theorem withScrub_cab (f : Scrubber → Scrubber) : (s.withScrub f).cab = s.cab := rfl
@[simp] theorem withScrub_panel (f : Scrubber → Scrubber) : (s.withScrub f).panel = s.panel := rfl

@[simp] theorem withConv_pending (f : Conveyor → Conveyor) : (s.withConv f).pending = s.pending := rfl
@[simp] theorem withConv_restarted (f : Conveyor → Conveyor) : (s.withConv f).restarted = s.restarted := rfl
@[simp] theorem withConv_serial (f : Conveyor → Conveyor) : (s.withConv f).serial = s.serial := rfl
@[simp] theorem withConv_straps (f : Conveyor → Conveyor) : (s.withConv f).straps = s.straps := rfl
@[simp] theorem withConv_station (f : Conveyor → Conveyor) : (s.withConv f).station = s.station := rfl
@[simp] theorem withConv_resetHeld (f : Conveyor → Conveyor) : (s.withConv f).resetHeld = s.resetHeld := rfl
@[simp] theorem withConv_spi (f : Conveyor → Conveyor) : (s.withConv f).spi = s.spi := rfl
@[simp] theorem withConv_image (f : Conveyor → Conveyor) : (s.withConv f).image = s.image := rfl
@[simp] theorem withConv_status (f : Conveyor → Conveyor) : (s.withConv f).status = s.status := rfl
@[simp] theorem withConv_inputs (f : Conveyor → Conveyor) : (s.withConv f).inputs = s.inputs := rfl
@[simp] theorem withConv_pins (f : Conveyor → Conveyor) : (s.withConv f).pins = s.pins := rfl
@[simp] theorem withConv_line (f : Conveyor → Conveyor) : (s.withConv f).line = s.line := rfl
@[simp] theorem withConv_claim (f : Conveyor → Conveyor) : (s.withConv f).claim = s.claim := rfl
@[simp] theorem withConv_pub (f : Conveyor → Conveyor) : (s.withConv f).pub = s.pub := rfl
@[simp] theorem withConv_notices (f : Conveyor → Conveyor) : (s.withConv f).notices = s.notices := rfl
@[simp] theorem withConv_replicas (f : Conveyor → Conveyor) : (s.withConv f).replicas = s.replicas := rfl
@[simp] theorem withConv_cabMap (f : Conveyor → Conveyor) : (s.withConv f).cabMap = s.cabMap := rfl
@[simp] theorem withConv_recovery (f : Conveyor → Conveyor) : (s.withConv f).recovery = s.recovery := rfl
@[simp] theorem withConv_sensor (f : Conveyor → Conveyor) : (s.withConv f).sensor = s.sensor := rfl
@[simp] theorem withConv_face (f : Conveyor → Conveyor) : (s.withConv f).face = s.face := rfl
@[simp] theorem withConv_permit (f : Conveyor → Conveyor) : (s.withConv f).permit = s.permit := rfl
@[simp] theorem withConv_dust (f : Conveyor → Conveyor) : (s.withConv f).dust = s.dust := rfl
@[simp] theorem withConv_ring (f : Conveyor → Conveyor) : (s.withConv f).ring = s.ring := rfl
@[simp] theorem withConv_scrub (f : Conveyor → Conveyor) : (s.withConv f).scrub = s.scrub := rfl
@[simp] theorem withConv_conv (f : Conveyor → Conveyor) : (s.withConv f).conv = f s.conv := rfl
@[simp] theorem withConv_cab (f : Conveyor → Conveyor) : (s.withConv f).cab = s.cab := rfl
@[simp] theorem withConv_panel (f : Conveyor → Conveyor) : (s.withConv f).panel = s.panel := rfl

@[simp] theorem withClaim_pending (f : ClaimUnit → ClaimUnit) : (s.withClaim f).pending = s.pending := rfl
@[simp] theorem withClaim_restarted (f : ClaimUnit → ClaimUnit) : (s.withClaim f).restarted = s.restarted := rfl
@[simp] theorem withClaim_serial (f : ClaimUnit → ClaimUnit) : (s.withClaim f).serial = s.serial := rfl
@[simp] theorem withClaim_straps (f : ClaimUnit → ClaimUnit) : (s.withClaim f).straps = s.straps := rfl
@[simp] theorem withClaim_station (f : ClaimUnit → ClaimUnit) : (s.withClaim f).station = s.station := rfl
@[simp] theorem withClaim_resetHeld (f : ClaimUnit → ClaimUnit) : (s.withClaim f).resetHeld = s.resetHeld := rfl
@[simp] theorem withClaim_spi (f : ClaimUnit → ClaimUnit) : (s.withClaim f).spi = s.spi := rfl
@[simp] theorem withClaim_image (f : ClaimUnit → ClaimUnit) : (s.withClaim f).image = s.image := rfl
@[simp] theorem withClaim_status (f : ClaimUnit → ClaimUnit) : (s.withClaim f).status = s.status := rfl
@[simp] theorem withClaim_inputs (f : ClaimUnit → ClaimUnit) : (s.withClaim f).inputs = s.inputs := rfl
@[simp] theorem withClaim_pins (f : ClaimUnit → ClaimUnit) : (s.withClaim f).pins = s.pins := rfl
@[simp] theorem withClaim_line (f : ClaimUnit → ClaimUnit) : (s.withClaim f).line = s.line := rfl
@[simp] theorem withClaim_claim (f : ClaimUnit → ClaimUnit) : (s.withClaim f).claim = f s.claim := rfl
@[simp] theorem withClaim_pub (f : ClaimUnit → ClaimUnit) : (s.withClaim f).pub = s.pub := rfl
@[simp] theorem withClaim_notices (f : ClaimUnit → ClaimUnit) : (s.withClaim f).notices = s.notices := rfl
@[simp] theorem withClaim_replicas (f : ClaimUnit → ClaimUnit) : (s.withClaim f).replicas = s.replicas := rfl
@[simp] theorem withClaim_cabMap (f : ClaimUnit → ClaimUnit) : (s.withClaim f).cabMap = s.cabMap := rfl
@[simp] theorem withClaim_recovery (f : ClaimUnit → ClaimUnit) : (s.withClaim f).recovery = s.recovery := rfl
@[simp] theorem withClaim_sensor (f : ClaimUnit → ClaimUnit) : (s.withClaim f).sensor = s.sensor := rfl
@[simp] theorem withClaim_face (f : ClaimUnit → ClaimUnit) : (s.withClaim f).face = s.face := rfl
@[simp] theorem withClaim_permit (f : ClaimUnit → ClaimUnit) : (s.withClaim f).permit = s.permit := rfl
@[simp] theorem withClaim_dust (f : ClaimUnit → ClaimUnit) : (s.withClaim f).dust = s.dust := rfl
@[simp] theorem withClaim_ring (f : ClaimUnit → ClaimUnit) : (s.withClaim f).ring = s.ring := rfl
@[simp] theorem withClaim_scrub (f : ClaimUnit → ClaimUnit) : (s.withClaim f).scrub = s.scrub := rfl
@[simp] theorem withClaim_conv (f : ClaimUnit → ClaimUnit) : (s.withClaim f).conv = s.conv := rfl
@[simp] theorem withClaim_cab (f : ClaimUnit → ClaimUnit) : (s.withClaim f).cab = s.cab := rfl
@[simp] theorem withClaim_panel (f : ClaimUnit → ClaimUnit) : (s.withClaim f).panel = s.panel := rfl

@[simp] theorem withRecovery_pending (f : RecoveryUnit → RecoveryUnit) : (s.withRecovery f).pending = s.pending := rfl
@[simp] theorem withRecovery_restarted (f : RecoveryUnit → RecoveryUnit) : (s.withRecovery f).restarted = s.restarted := rfl
@[simp] theorem withRecovery_serial (f : RecoveryUnit → RecoveryUnit) : (s.withRecovery f).serial = s.serial := rfl
@[simp] theorem withRecovery_straps (f : RecoveryUnit → RecoveryUnit) : (s.withRecovery f).straps = s.straps := rfl
@[simp] theorem withRecovery_station (f : RecoveryUnit → RecoveryUnit) : (s.withRecovery f).station = s.station := rfl
@[simp] theorem withRecovery_resetHeld (f : RecoveryUnit → RecoveryUnit) : (s.withRecovery f).resetHeld = s.resetHeld := rfl
@[simp] theorem withRecovery_spi (f : RecoveryUnit → RecoveryUnit) : (s.withRecovery f).spi = s.spi := rfl
@[simp] theorem withRecovery_image (f : RecoveryUnit → RecoveryUnit) : (s.withRecovery f).image = s.image := rfl
@[simp] theorem withRecovery_status (f : RecoveryUnit → RecoveryUnit) : (s.withRecovery f).status = s.status := rfl
@[simp] theorem withRecovery_inputs (f : RecoveryUnit → RecoveryUnit) : (s.withRecovery f).inputs = s.inputs := rfl
@[simp] theorem withRecovery_pins (f : RecoveryUnit → RecoveryUnit) : (s.withRecovery f).pins = s.pins := rfl
@[simp] theorem withRecovery_line (f : RecoveryUnit → RecoveryUnit) : (s.withRecovery f).line = s.line := rfl
@[simp] theorem withRecovery_claim (f : RecoveryUnit → RecoveryUnit) : (s.withRecovery f).claim = s.claim := rfl
@[simp] theorem withRecovery_pub (f : RecoveryUnit → RecoveryUnit) : (s.withRecovery f).pub = s.pub := rfl
@[simp] theorem withRecovery_notices (f : RecoveryUnit → RecoveryUnit) : (s.withRecovery f).notices = s.notices := rfl
@[simp] theorem withRecovery_replicas (f : RecoveryUnit → RecoveryUnit) : (s.withRecovery f).replicas = s.replicas := rfl
@[simp] theorem withRecovery_cabMap (f : RecoveryUnit → RecoveryUnit) : (s.withRecovery f).cabMap = s.cabMap := rfl
@[simp] theorem withRecovery_recovery (f : RecoveryUnit → RecoveryUnit) : (s.withRecovery f).recovery = f s.recovery := rfl
@[simp] theorem withRecovery_sensor (f : RecoveryUnit → RecoveryUnit) : (s.withRecovery f).sensor = s.sensor := rfl
@[simp] theorem withRecovery_face (f : RecoveryUnit → RecoveryUnit) : (s.withRecovery f).face = s.face := rfl
@[simp] theorem withRecovery_permit (f : RecoveryUnit → RecoveryUnit) : (s.withRecovery f).permit = s.permit := rfl
@[simp] theorem withRecovery_dust (f : RecoveryUnit → RecoveryUnit) : (s.withRecovery f).dust = s.dust := rfl
@[simp] theorem withRecovery_ring (f : RecoveryUnit → RecoveryUnit) : (s.withRecovery f).ring = s.ring := rfl
@[simp] theorem withRecovery_scrub (f : RecoveryUnit → RecoveryUnit) : (s.withRecovery f).scrub = s.scrub := rfl
@[simp] theorem withRecovery_conv (f : RecoveryUnit → RecoveryUnit) : (s.withRecovery f).conv = s.conv := rfl
@[simp] theorem withRecovery_cab (f : RecoveryUnit → RecoveryUnit) : (s.withRecovery f).cab = s.cab := rfl
@[simp] theorem withRecovery_panel (f : RecoveryUnit → RecoveryUnit) : (s.withRecovery f).panel = s.panel := rfl

@[simp] theorem withSensor_pending (f : SensorUnit → SensorUnit) : (s.withSensor f).pending = s.pending := rfl
@[simp] theorem withSensor_restarted (f : SensorUnit → SensorUnit) : (s.withSensor f).restarted = s.restarted := rfl
@[simp] theorem withSensor_serial (f : SensorUnit → SensorUnit) : (s.withSensor f).serial = s.serial := rfl
@[simp] theorem withSensor_straps (f : SensorUnit → SensorUnit) : (s.withSensor f).straps = s.straps := rfl
@[simp] theorem withSensor_station (f : SensorUnit → SensorUnit) : (s.withSensor f).station = s.station := rfl
@[simp] theorem withSensor_resetHeld (f : SensorUnit → SensorUnit) : (s.withSensor f).resetHeld = s.resetHeld := rfl
@[simp] theorem withSensor_spi (f : SensorUnit → SensorUnit) : (s.withSensor f).spi = s.spi := rfl
@[simp] theorem withSensor_image (f : SensorUnit → SensorUnit) : (s.withSensor f).image = s.image := rfl
@[simp] theorem withSensor_status (f : SensorUnit → SensorUnit) : (s.withSensor f).status = s.status := rfl
@[simp] theorem withSensor_inputs (f : SensorUnit → SensorUnit) : (s.withSensor f).inputs = s.inputs := rfl
@[simp] theorem withSensor_pins (f : SensorUnit → SensorUnit) : (s.withSensor f).pins = s.pins := rfl
@[simp] theorem withSensor_line (f : SensorUnit → SensorUnit) : (s.withSensor f).line = s.line := rfl
@[simp] theorem withSensor_claim (f : SensorUnit → SensorUnit) : (s.withSensor f).claim = s.claim := rfl
@[simp] theorem withSensor_pub (f : SensorUnit → SensorUnit) : (s.withSensor f).pub = s.pub := rfl
@[simp] theorem withSensor_notices (f : SensorUnit → SensorUnit) : (s.withSensor f).notices = s.notices := rfl
@[simp] theorem withSensor_replicas (f : SensorUnit → SensorUnit) : (s.withSensor f).replicas = s.replicas := rfl
@[simp] theorem withSensor_cabMap (f : SensorUnit → SensorUnit) : (s.withSensor f).cabMap = s.cabMap := rfl
@[simp] theorem withSensor_recovery (f : SensorUnit → SensorUnit) : (s.withSensor f).recovery = s.recovery := rfl
@[simp] theorem withSensor_sensor (f : SensorUnit → SensorUnit) : (s.withSensor f).sensor = f s.sensor := rfl
@[simp] theorem withSensor_face (f : SensorUnit → SensorUnit) : (s.withSensor f).face = s.face := rfl
@[simp] theorem withSensor_permit (f : SensorUnit → SensorUnit) : (s.withSensor f).permit = s.permit := rfl
@[simp] theorem withSensor_dust (f : SensorUnit → SensorUnit) : (s.withSensor f).dust = s.dust := rfl
@[simp] theorem withSensor_ring (f : SensorUnit → SensorUnit) : (s.withSensor f).ring = s.ring := rfl
@[simp] theorem withSensor_scrub (f : SensorUnit → SensorUnit) : (s.withSensor f).scrub = s.scrub := rfl
@[simp] theorem withSensor_conv (f : SensorUnit → SensorUnit) : (s.withSensor f).conv = s.conv := rfl
@[simp] theorem withSensor_cab (f : SensorUnit → SensorUnit) : (s.withSensor f).cab = s.cab := rfl
@[simp] theorem withSensor_panel (f : SensorUnit → SensorUnit) : (s.withSensor f).panel = s.panel := rfl

@[simp] theorem setReplica_pending (n : Station) (r : Replica) : (s.setReplica n r).pending = s.pending := rfl
@[simp] theorem setReplica_restarted (n : Station) (r : Replica) : (s.setReplica n r).restarted = s.restarted := rfl
@[simp] theorem setReplica_serial (n : Station) (r : Replica) : (s.setReplica n r).serial = s.serial := rfl
@[simp] theorem setReplica_straps (n : Station) (r : Replica) : (s.setReplica n r).straps = s.straps := rfl
@[simp] theorem setReplica_station (n : Station) (r : Replica) : (s.setReplica n r).station = s.station := rfl
@[simp] theorem setReplica_resetHeld (n : Station) (r : Replica) : (s.setReplica n r).resetHeld = s.resetHeld := rfl
@[simp] theorem setReplica_spi (n : Station) (r : Replica) : (s.setReplica n r).spi = s.spi := rfl
@[simp] theorem setReplica_image (n : Station) (r : Replica) : (s.setReplica n r).image = s.image := rfl
@[simp] theorem setReplica_status (n : Station) (r : Replica) : (s.setReplica n r).status = s.status := rfl
@[simp] theorem setReplica_inputs (n : Station) (r : Replica) : (s.setReplica n r).inputs = s.inputs := rfl
@[simp] theorem setReplica_pins (n : Station) (r : Replica) : (s.setReplica n r).pins = s.pins := rfl
@[simp] theorem setReplica_line (n : Station) (r : Replica) : (s.setReplica n r).line = s.line := rfl
@[simp] theorem setReplica_claim (n : Station) (r : Replica) : (s.setReplica n r).claim = s.claim := rfl
@[simp] theorem setReplica_pub (n : Station) (r : Replica) : (s.setReplica n r).pub = s.pub := rfl
@[simp] theorem setReplica_notices (n : Station) (r : Replica) : (s.setReplica n r).notices = s.notices := rfl
@[simp] theorem setReplica_replicas (n : Station) (r : Replica) : (s.setReplica n r).replicas = s.replicas.set n r := rfl
@[simp] theorem setReplica_cabMap (n : Station) (r : Replica) : (s.setReplica n r).cabMap = s.cabMap := rfl
@[simp] theorem setReplica_recovery (n : Station) (r : Replica) : (s.setReplica n r).recovery = s.recovery := rfl
@[simp] theorem setReplica_sensor (n : Station) (r : Replica) : (s.setReplica n r).sensor = s.sensor := rfl
@[simp] theorem setReplica_face (n : Station) (r : Replica) : (s.setReplica n r).face = s.face := rfl
@[simp] theorem setReplica_permit (n : Station) (r : Replica) : (s.setReplica n r).permit = s.permit := rfl
@[simp] theorem setReplica_dust (n : Station) (r : Replica) : (s.setReplica n r).dust = s.dust := rfl
@[simp] theorem setReplica_ring (n : Station) (r : Replica) : (s.setReplica n r).ring = s.ring := rfl
@[simp] theorem setReplica_scrub (n : Station) (r : Replica) : (s.setReplica n r).scrub = s.scrub := rfl
@[simp] theorem setReplica_conv (n : Station) (r : Replica) : (s.setReplica n r).conv = s.conv := rfl
@[simp] theorem setReplica_cab (n : Station) (r : Replica) : (s.setReplica n r).cab = s.cab := rfl
@[simp] theorem setReplica_panel (n : Station) (r : Replica) : (s.setReplica n r).panel = s.panel := rfl

/-! An input's change writes its debounced value and its pin. -/

@[simp] theorem withInput_same (k : Fin 4) (b : Bool) (h : s.inputs.get k = b) : s.withInput k b = s := by
  simp [State.withInput, h]
@[simp] theorem withInput_inputs (k : Fin 4) (b : Bool) : (s.withInput k b).inputs = s.inputs.set k b := by
  unfold State.withInput; split
  · rename_i h; subst h; fin_cases k <;> rfl
  · rfl
@[simp] theorem withInput_pending (k : Fin 4) (b : Bool) : (s.withInput k b).pending = s.pending := by
  unfold State.withInput; split <;> rfl
@[simp] theorem withInput_restarted (k : Fin 4) (b : Bool) : (s.withInput k b).restarted = s.restarted := by
  unfold State.withInput; split <;> rfl
@[simp] theorem withInput_serial (k : Fin 4) (b : Bool) : (s.withInput k b).serial = s.serial := by
  unfold State.withInput; split <;> rfl
@[simp] theorem withInput_straps (k : Fin 4) (b : Bool) : (s.withInput k b).straps = s.straps := by
  unfold State.withInput; split <;> rfl
@[simp] theorem withInput_station (k : Fin 4) (b : Bool) : (s.withInput k b).station = s.station := by
  unfold State.withInput; split <;> rfl
@[simp] theorem withInput_resetHeld (k : Fin 4) (b : Bool) : (s.withInput k b).resetHeld = s.resetHeld := by
  unfold State.withInput; split <;> rfl
@[simp] theorem withInput_spi (k : Fin 4) (b : Bool) : (s.withInput k b).spi = s.spi := by
  unfold State.withInput; split <;> rfl
@[simp] theorem withInput_image (k : Fin 4) (b : Bool) : (s.withInput k b).image = s.image := by
  unfold State.withInput; split <;> rfl
@[simp] theorem withInput_status (k : Fin 4) (b : Bool) : (s.withInput k b).status = s.status := by
  unfold State.withInput; split <;> rfl
@[simp] theorem withInput_line (k : Fin 4) (b : Bool) : (s.withInput k b).line = s.line := by
  unfold State.withInput; split <;> rfl
@[simp] theorem withInput_claim (k : Fin 4) (b : Bool) : (s.withInput k b).claim = s.claim := by
  unfold State.withInput; split <;> rfl
@[simp] theorem withInput_pub (k : Fin 4) (b : Bool) : (s.withInput k b).pub = s.pub := by
  unfold State.withInput; split <;> rfl
@[simp] theorem withInput_notices (k : Fin 4) (b : Bool) : (s.withInput k b).notices = s.notices := by
  unfold State.withInput; split <;> rfl
@[simp] theorem withInput_replicas (k : Fin 4) (b : Bool) : (s.withInput k b).replicas = s.replicas := by
  unfold State.withInput; split <;> rfl
@[simp] theorem withInput_cabMap (k : Fin 4) (b : Bool) : (s.withInput k b).cabMap = s.cabMap := by
  unfold State.withInput; split <;> rfl
@[simp] theorem withInput_recovery (k : Fin 4) (b : Bool) : (s.withInput k b).recovery = s.recovery := by
  unfold State.withInput; split <;> rfl
@[simp] theorem withInput_sensor (k : Fin 4) (b : Bool) : (s.withInput k b).sensor = s.sensor := by
  unfold State.withInput; split <;> rfl
@[simp] theorem withInput_face (k : Fin 4) (b : Bool) : (s.withInput k b).face = s.face := by
  unfold State.withInput; split <;> rfl
@[simp] theorem withInput_permit (k : Fin 4) (b : Bool) : (s.withInput k b).permit = s.permit := by
  unfold State.withInput; split <;> rfl
@[simp] theorem withInput_dust (k : Fin 4) (b : Bool) : (s.withInput k b).dust = s.dust := by
  unfold State.withInput; split <;> rfl
@[simp] theorem withInput_ring (k : Fin 4) (b : Bool) : (s.withInput k b).ring = s.ring := by
  unfold State.withInput; split <;> rfl
@[simp] theorem withInput_scrub (k : Fin 4) (b : Bool) : (s.withInput k b).scrub = s.scrub := by
  unfold State.withInput; split <;> rfl
@[simp] theorem withInput_conv (k : Fin 4) (b : Bool) : (s.withInput k b).conv = s.conv := by
  unfold State.withInput; split <;> rfl
@[simp] theorem withInput_cab (k : Fin 4) (b : Bool) : (s.withInput k b).cab = s.cab := by
  unfold State.withInput; split <;> rfl
@[simp] theorem withInput_panel (k : Fin 4) (b : Bool) : (s.withInput k b).panel = s.panel := by
  unfold State.withInput; split <;> rfl

/-! The ready flag writes the sensor unit's flag and the own roster entry. -/

@[simp] theorem setReady_sensor (b : Bool) : (setReady b s).sensor = { s.sensor with ready := b } := rfl
@[simp] theorem setReady_pending (b : Bool) : (setReady b s).pending = s.pending := rfl
@[simp] theorem setReady_restarted (b : Bool) : (setReady b s).restarted = s.restarted := rfl
@[simp] theorem setReady_serial (b : Bool) : (setReady b s).serial = s.serial := rfl
@[simp] theorem setReady_straps (b : Bool) : (setReady b s).straps = s.straps := rfl
@[simp] theorem setReady_station (b : Bool) : (setReady b s).station = s.station := rfl
@[simp] theorem setReady_resetHeld (b : Bool) : (setReady b s).resetHeld = s.resetHeld := rfl
@[simp] theorem setReady_spi (b : Bool) : (setReady b s).spi = s.spi := rfl
@[simp] theorem setReady_image (b : Bool) : (setReady b s).image = s.image := rfl
@[simp] theorem setReady_status (b : Bool) : (setReady b s).status = s.status := rfl
@[simp] theorem setReady_inputs (b : Bool) : (setReady b s).inputs = s.inputs := rfl
@[simp] theorem setReady_pins (b : Bool) : (setReady b s).pins = s.pins := rfl
@[simp] theorem setReady_line (b : Bool) : (setReady b s).line = s.line := rfl
@[simp] theorem setReady_pub (b : Bool) : (setReady b s).pub = s.pub := rfl
@[simp] theorem setReady_notices (b : Bool) : (setReady b s).notices = s.notices := rfl
@[simp] theorem setReady_replicas (b : Bool) : (setReady b s).replicas = s.replicas := rfl
@[simp] theorem setReady_cabMap (b : Bool) : (setReady b s).cabMap = s.cabMap := rfl
@[simp] theorem setReady_recovery (b : Bool) : (setReady b s).recovery = s.recovery := rfl
@[simp] theorem setReady_face (b : Bool) : (setReady b s).face = s.face := rfl
@[simp] theorem setReady_permit (b : Bool) : (setReady b s).permit = s.permit := rfl
@[simp] theorem setReady_dust (b : Bool) : (setReady b s).dust = s.dust := rfl
@[simp] theorem setReady_ring (b : Bool) : (setReady b s).ring = s.ring := rfl
@[simp] theorem setReady_scrub (b : Bool) : (setReady b s).scrub = s.scrub := rfl
@[simp] theorem setReady_conv (b : Bool) : (setReady b s).conv = s.conv := rfl
@[simp] theorem setReady_cab (b : Bool) : (setReady b s).cab = s.cab := rfl
@[simp] theorem setReady_panel (b : Bool) : (setReady b s).panel = s.panel := rfl

/-! Noting the times started afresh writes that list alone. -/

@[simp] theorem noteRestarted_pending (pre : State) : (noteRestarted pre s).pending = s.pending := rfl
@[simp] theorem noteRestarted_serial (pre : State) : (noteRestarted pre s).serial = s.serial := rfl
@[simp] theorem noteRestarted_straps (pre : State) : (noteRestarted pre s).straps = s.straps := rfl
@[simp] theorem noteRestarted_station (pre : State) : (noteRestarted pre s).station = s.station := rfl
@[simp] theorem noteRestarted_resetHeld (pre : State) : (noteRestarted pre s).resetHeld = s.resetHeld := rfl
@[simp] theorem noteRestarted_spi (pre : State) : (noteRestarted pre s).spi = s.spi := rfl
@[simp] theorem noteRestarted_image (pre : State) : (noteRestarted pre s).image = s.image := rfl
@[simp] theorem noteRestarted_status (pre : State) : (noteRestarted pre s).status = s.status := rfl
@[simp] theorem noteRestarted_inputs (pre : State) : (noteRestarted pre s).inputs = s.inputs := rfl
@[simp] theorem noteRestarted_pins (pre : State) : (noteRestarted pre s).pins = s.pins := rfl
@[simp] theorem noteRestarted_line (pre : State) : (noteRestarted pre s).line = s.line := rfl
@[simp] theorem noteRestarted_claim (pre : State) : (noteRestarted pre s).claim = s.claim := rfl
@[simp] theorem noteRestarted_pub (pre : State) : (noteRestarted pre s).pub = s.pub := rfl
@[simp] theorem noteRestarted_notices (pre : State) : (noteRestarted pre s).notices = s.notices := rfl
@[simp] theorem noteRestarted_replicas (pre : State) : (noteRestarted pre s).replicas = s.replicas := rfl
@[simp] theorem noteRestarted_cabMap (pre : State) : (noteRestarted pre s).cabMap = s.cabMap := rfl
@[simp] theorem noteRestarted_recovery (pre : State) : (noteRestarted pre s).recovery = s.recovery := rfl
@[simp] theorem noteRestarted_sensor (pre : State) : (noteRestarted pre s).sensor = s.sensor := rfl
@[simp] theorem noteRestarted_face (pre : State) : (noteRestarted pre s).face = s.face := rfl
@[simp] theorem noteRestarted_permit (pre : State) : (noteRestarted pre s).permit = s.permit := rfl
@[simp] theorem noteRestarted_dust (pre : State) : (noteRestarted pre s).dust = s.dust := rfl
@[simp] theorem noteRestarted_ring (pre : State) : (noteRestarted pre s).ring = s.ring := rfl
@[simp] theorem noteRestarted_scrub (pre : State) : (noteRestarted pre s).scrub = s.scrub := rfl
@[simp] theorem noteRestarted_conv (pre : State) : (noteRestarted pre s).conv = s.conv := rfl
@[simp] theorem noteRestarted_cab (pre : State) : (noteRestarted pre s).cab = s.cab := rfl
@[simp] theorem noteRestarted_panel (pre : State) : (noteRestarted pre s).panel = s.panel := rfl
@[simp] theorem noteRestarted_restarted (pre : State) :
    (noteRestarted pre s).restarted = s.restarted ∪ restartedSince pre s := rfl

end Sys2Proof.Machine.State
end

