-- ==== Sys2Proof/Laws/Follow.lean ====
section
/-! SUPPORT. The end of an event leaves the rest of the state as it stands: one lemma for each stage, and `finish_rest`
over all of them. -/

namespace Sys2Proof.Machine

/-! ## Notices -/

@[simp] theorem rest_withNotices (f : NoticeQueue → NoticeQueue) (s : State) : (s.withNotices f).rest = s.rest := rfl

@[simp] theorem rest_queueTrip (i : Fin 8) (s : State) : (queueTrip i s).rest = s.rest := by
  unfold queueTrip; split
  · split <;> rfl
  · rfl

@[simp] theorem rest_markSlot (i : Fin 8) (s : State) : (markSlot i s).rest = s.rest := rfl

@[simp] theorem rest_enterSlot (i : Fin 8) (c : NoticeCode) (s : State) : (enterSlot i c s).rest = s.rest := by
  simp [enterSlot]

@[simp] theorem rest_refuseRaise (c : NoticeCode) (s : State) : (refuseRaise c s).rest = s.rest := rfl

@[simp] theorem rest_displaceNote (i : Fin 8) (s : State) : (displaceNote i s).rest = s.rest := by
  unfold displaceNote; split <;> rfl

@[simp] theorem rest_raiseNotice (c : NoticeCode) (s : State) : (raiseNotice c s).rest = s.rest := by
  unfold raiseNotice; repeat' split
  all_goals simp

@[simp] theorem rest_fillSlot (i : Fin 8) (s : State) : (fillSlot i s).rest = s.rest := by
  unfold fillSlot; split <;> simp

/-- A fold of steps that each leave the rest leaves it. -/
theorem rest_foldl {α : Type} (f : State → α → State) (h : ∀ s a, (f s a).rest = s.rest) (l : List α) (s : State) :
    (l.foldl f s).rest = s.rest := by
  induction l generalizing s with
  | nil => rfl
  | cons a l ih => rw [List.foldl_cons, ih, h]

@[simp] theorem rest_refill (s : State) : (refill s).rest = s.rest := by
  unfold refill
  exact rest_foldl _ (fun s i => by split <;> simp) _ _

@[simp] theorem rest_setNoticeState (i : Fin 8) (n : Notice) (st : NoticeState) (s : State) :
    (setNoticeState i n st s).rest = s.rest := rfl

@[simp] theorem rest_vacateSlot (i : Fin 8) (s : State) : (vacateSlot i s).rest = s.rest := rfl

@[simp] theorem rest_clearNotice (c : NoticeCode) (s : State) : (clearNotice c s).rest = s.rest := by
  unfold clearNotice; repeat' split
  all_goals simp

@[simp] theorem rest_setHolds (c : NoticeCode) (b : Bool) (s : State) : (setHolds c b s).rest = s.rest := rfl

@[simp] theorem rest_judgeClear (s : State) (c : NoticeCode) : (judgeClear s c).rest = s.rest := by
  unfold judgeClear; repeat' split
  all_goals simp

@[simp] theorem rest_judgeRaise (s : State) (c : NoticeCode) : (judgeRaise s c).rest = s.rest := by
  unfold judgeRaise; split <;> simp

@[simp] theorem rest_updateSilentDetail (s : State) : (updateSilentDetail s).rest = s.rest := by
  unfold updateSilentDetail; repeat' split
  all_goals simp

@[simp] theorem rest_judgeNotices (s : State) : (judgeNotices s).rest = s.rest := by
  simp [judgeNotices, rest_foldl _ rest_judgeRaise, rest_foldl _ rest_judgeClear]

/-! ## Role -/

/-- The station's role is read from parts that no event's end touches. -/
theorem isRole_of_rest {s t : State} (h : t.rest = s.rest) (r : Role) : t.isRole r = s.isRole r := by
  have h1 : t.image = s.image := show t.rest.image = s.rest.image by rw [h]
  have h2 : t.station = s.station := show t.rest.station = s.rest.station by rw [h]
  simp [State.isRole, State.role, State.cfg, h1, h2]

/-- A station has one role. -/
theorem isRole_eq {s : State} {r q : Role} (h : s.isRole r = true) : s.isRole q = (r == q) := by
  simp only [State.isRole, beq_iff_eq] at h ⊢
  rw [h]; cases r <;> cases q <;> rfl

/-- An update of one unit in a station of the unit's role that the unit's rest does not show leaves the rest. -/
theorem rest_withScrub {s : State} (h : s.isRole .scrubber = true) (f : Scrubber → Scrubber)
    (hf : (f s.scrub).rest = s.scrub.rest) : (s.withScrub f).rest = s.rest := by
  have e : ∀ r, (s.withScrub f).isRole r = s.isRole r := fun _ => rfl
  simp only [State.rest, e, h, if_true, State.withScrub_scrub, hf]; rfl

theorem rest_withConv {s : State} (h : s.isRole .conveyor = true) (f : Conveyor → Conveyor)
    (hf : (f s.conv).rest = s.conv.rest) : (s.withConv f).rest = s.rest := by
  have e : ∀ r, (s.withConv f).isRole r = s.isRole r := fun _ => rfl
  simp only [State.rest, e, h, if_true, State.withConv_conv, hf]; rfl

theorem rest_withCab {s : State} (h : s.isRole .cab = true) (f : CabUnit → CabUnit) : (s.withCab f).rest = s.rest := by
  have e : ∀ r, (s.withCab f).isRole r = s.isRole r := fun _ => rfl
  simp only [State.rest, e, h, if_true]; rfl

theorem rest_withRecovery {s : State} (h : s.isRole .cutter = true) (f : RecoveryUnit → RecoveryUnit)
    (hf : (f s.recovery).rest = s.recovery.rest) : (s.withRecovery f).rest = s.rest := by
  have e : ∀ r, (s.withRecovery f).isRole r = s.isRole r := fun _ => rfl
  simp only [State.rest, e, h, if_true, State.withRecovery_recovery, hf]; rfl

/-! ## The sequencers -/

/-- The scrubber's stages keep the role, so each is read at a SCRUBBER. -/
theorem rest_scrubDemand {s : State} (h : s.isRole .scrubber = true) : (scrubDemand s).rest = s.rest := by
  unfold scrubDemand; simp only; split
  · rfl
  · exact rest_withScrub h _ rfl

theorem rest_fanRuns {s : State} (h : s.isRole .scrubber = true) : (fanRuns s).rest = s.rest := rest_withScrub h _ rfl

theorem rest_fanFollows {s : State} (h : s.isRole .scrubber = true) : (fanFollows s).rest = s.rest := by
  have g : ∀ f : Scrubber → Scrubber, (s.withScrub f).isRole .scrubber = true := fun _ => h
  unfold fanFollows; dsimp only; repeat' split
  all_goals first
    | exact (rest_fanRuns (g _)).trans (rest_withScrub h _ rfl)
    | exact rest_fanRuns h
    | exact rest_withScrub h _ rfl
    | rfl

theorem rest_fanProofLoss {s : State} (h : s.isRole .scrubber = true) : (fanProofLoss s).rest = s.rest := by
  unfold fanProofLoss; exact rest_withScrub h _ rfl

theorem rest_autoWash {s : State} (h : s.isRole .scrubber = true) : (autoWash s).rest = s.rest := by
  unfold autoWash; split
  · exact rest_withScrub h _ rfl
  · rfl

@[simp] theorem rest_scrubSync (s : State) : (scrubSync s).rest = s.rest := by
  unfold scrubSync; split
  case isFalse => rfl
  case isTrue h =>
    have h1 := rest_scrubDemand h
    have r1 := (isRole_of_rest h1 .scrubber).trans h
    have h2 := (rest_fanFollows r1).trans h1
    have r2 := (isRole_of_rest h2 .scrubber).trans h
    have h3 := (rest_fanProofLoss r2).trans h2
    exact (rest_autoWash ((isRole_of_rest h3 .scrubber).trans h)).trans h3

theorem rest_convEnter {s : State} (h : s.isRole .conveyor = true) (st : ConvState) : (convEnter st s).rest = s.rest :=
  rest_withConv h _ rfl

theorem rest_convNext {s : State} (h : s.isRole .conveyor = true) : (convNext s).rest = s.rest := by
  unfold convNext; repeat' split
  all_goals first | rfl | exact rest_convEnter h _

theorem rest_convChain {s : State} (h : s.isRole .conveyor = true) : (convChain s).rest = s.rest := by
  unfold convChain; split
  · exact rest_convEnter h _
  · rfl

theorem rest_convRunOff {s : State} (h : s.isRole .conveyor = true) : (convRunOff s).rest = s.rest := by
  unfold convRunOff; split
  · exact rest_convEnter h _
  · rfl

theorem rest_convWatch {s : State} (h : s.isRole .conveyor = true) : (convWatch s).rest = s.rest := by
  unfold convWatch; exact rest_withConv h _ rfl

@[simp] theorem rest_convSync (s : State) : (convSync s).rest = s.rest := by
  unfold convSync; split
  case isFalse => rfl
  case isTrue h =>
    have h1 : (s.withConv fun u => { u with runDemand := s.wantsRun }).rest = s.rest := rest_withConv h _ rfl
    have h2 := (rest_convNext ((isRole_of_rest h1 .conveyor).trans h)).trans h1
    have h3 := (rest_convChain ((isRole_of_rest h2 .conveyor).trans h)).trans h2
    have h4 := (rest_convRunOff ((isRole_of_rest h3 .conveyor).trans h)).trans h3
    exact (rest_convWatch ((isRole_of_rest h4 .conveyor).trans h)).trans h4

/-! ## Cab -/

theorem rest_vigRun {s : State} (h : s.isRole .cab = true) : (vigRun s).rest = s.rest := rest_withCab h _
theorem rest_vigIdle {s : State} (h : s.isRole .cab = true) : (vigIdle s).rest = s.rest := rest_withCab h _

@[simp] theorem rest_vigSync (s : State) : (vigSync s).rest = s.rest := by
  unfold vigSync
  split
  case isFalse => rfl
  case isTrue h =>
    have g : ∀ f : CabUnit → CabUnit, (s.withCab f).isRole .cab = true := fun _ => h
    unfold vigDemand changeStanding
    simp only
    repeat' split
    all_goals first
      | rfl
      | exact rest_withCab h _
      | exact (rest_vigRun (g _)).trans (rest_withCab h _)
      | exact (rest_vigIdle (g _)).trans (rest_withCab h _)

/-- A change of the panel's offer. -/
theorem rest_offer {s : State} (h : s.isRole .cab = true) (o : Option Offer) :
    (s.withPanel fun u => { u with offer := o }).rest = s.rest := by
  have e : ∀ r, (s.withPanel fun u => { u with offer := o }).isRole r = s.isRole r := fun _ => rfl
  simp only [State.rest, e, h, if_true, State.withPanel_panel]; rfl

@[simp] theorem rest_offerSync (s : State) : (offerSync s).rest = s.rest := by
  unfold offerSync; split
  · split
    case isTrue h =>
      simp only [Bool.and_eq_true] at h
      exact rest_offer h.1 _
    case isFalse => rfl
  · rfl

@[simp] theorem rest_displaySync (s : State) : (displaySync s).rest = s.rest := by
  unfold displaySync; split
  case isFalse => rfl
  case isTrue h => exact rest_withCab h _

/-! ## Permit, recovery -/

/-- An update of the permit at a CUTTER that its rest does not show. -/
theorem rest_permit {s : State} (h : s.isRole .cutter = true) (p : PermitUnit) (hp : p.rest = s.permit.rest) :
    ({ s with permit := p } : State).rest = s.rest := by
  have e : ∀ r, ({ s with permit := p } : State).isRole r = s.isRole r := fun _ => rfl
  simp only [State.rest, e, h, if_true, hp]

theorem rest_commitLot {s : State} (h : s.isRole .cutter = true) : (commitLot s).rest = s.rest := by
  have e : ∀ r, (commitLot s).isRole r = s.isRole r := fun _ => rfl
  simp only [State.rest, e, h, if_true]
  simp [commitLot, LotRing.rest, Function.comp_def]

theorem rest_noteBreachEntered {s : State} (h : s.isRole .cutter = true) : (noteBreachEntered s).rest = s.rest := by
  unfold noteBreachEntered; split
  · exact rest_permit h _ rfl
  · rfl

@[simp] theorem rest_retryBreach (s : State) : (retryBreach s).rest = s.rest := by
  unfold retryBreach; split
  case isFalse => rfl
  case isTrue h =>
    simp only [Bool.and_eq_true] at h
    exact (rest_noteBreachEntered ((isRole_of_rest (rest_raiseNotice _ s) .cutter).trans h.1)).trans (rest_raiseNotice _ s)

@[simp] theorem rest_judgeBreach (s : State) : (judgeBreach s).rest = s.rest := by
  unfold judgeBreach; repeat' split
  all_goals simp

theorem rest_releaseBreach {s : State} (h : s.isRole .cutter = true) : (releaseBreach s).rest = s.rest := by
  unfold releaseBreach; split
  · exact rest_permit h _ rfl
  · rfl

theorem rest_setPermit {s : State} (h : s.isRole .cutter = true) (st : PermitState) : (setPermit st s).rest = s.rest :=
  rest_permit h _ rfl

theorem rest_movePermit {s : State} (h : s.isRole .cutter = true) : (movePermit s).rest = s.rest := by
  unfold movePermit; repeat' split
  all_goals first
    | exact rest_setPermit h _
    | exact (rest_setPermit ((isRole_of_rest (rest_commitLot h) .cutter).trans h) _).trans (rest_commitLot h)

theorem rest_dwellSync {s : State} (h : s.isRole .cutter = true) : (dwellSync s).rest = s.rest := rest_permit h _ rfl

theorem rest_applyReasons {s : State} (h : s.isRole .cutter = true) : (applyReasons s).rest = s.rest := by
  have hr : ({ s with permit := { s.permit with reasons := s.reasonsNow } } : State).rest = s.rest := rest_permit h _ rfl
  have hc := (isRole_of_rest hr .cutter).trans h
  have hm := rest_movePermit hc
  exact (rest_dwellSync ((isRole_of_rest hm .cutter).trans hc)).trans (hm.trans hr)

@[simp] theorem rest_permitSync (s : State) : (permitSync s).rest = s.rest := by
  unfold permitSync; split
  case isFalse => rfl
  case isTrue h =>
    have h1 := rest_judgeBreach s
    have h2 := (rest_noteBreachEntered ((isRole_of_rest h1 .cutter).trans h)).trans h1
    have h3 := (rest_releaseBreach ((isRole_of_rest h2 .cutter).trans h)).trans h2
    exact (rest_applyReasons ((isRole_of_rest h3 .cutter).trans h)).trans h3

theorem rest_placeRequest {s : State} (h : s.isRole .cutter = true) (n : Station) : (placeRequest n s).rest = s.rest := by
  have e : ∀ r, (placeRequest n s).isRole r = s.isRole r := fun _ => rfl
  simp only [State.rest, e, h, if_true]; rfl

theorem rest_dropRequest {s : State} (h : s.isRole .cutter = true) : (dropRequest s).rest = s.rest := by
  unfold dropRequest; repeat' split
  all_goals first
    | exact rest_withRecovery h _ rfl
    | rfl

@[simp] theorem rest_requestSync (s : State) : (requestSync s).rest = s.rest := by
  unfold requestSync; split
  case isFalse => rfl
  case isTrue h =>
    simp only [Bool.and_eq_true] at h
    have h1 := rest_dropRequest h.1
    have h2 := (isRole_of_rest h1 .cutter).trans h.1
    dsimp only
    split
    · exact (rest_placeRequest h2 _).trans h1
    · exact h1

/-! ## The line and the publication unit -/

@[simp] theorem rest_fillOrderSlot (s : State) : (fillOrderSlot s).rest = s.rest := by
  unfold fillOrderSlot; repeat' split
  all_goals rfl

@[simp] theorem rest_buildState (s : State) : (buildState s).rest = s.rest := rfl

@[simp] theorem rest_requestEarly (b : Bool) (s : State) : (requestEarly b s).rest = s.rest := by
  unfold requestEarly; repeat' split
  all_goals rfl

@[simp] theorem rest_earlySync (pre s : State) : (earlySync pre s).rest = s.rest := by
  unfold earlySync; dsimp only; split
  · exact (rest_requestEarly _ _).trans rfl
  · rfl

@[simp] theorem rest_noteEarly (pre s : State) : (noteEarly pre s).rest = s.rest := by
  unfold noteEarly; split <;> rfl

@[simp] theorem rest_beginFrame (s : State) : (beginFrame s).rest = s.rest := by
  unfold beginFrame; repeat' split
  all_goals rfl

@[simp] theorem rest_statusSync (s : State) : (statusSync s).rest = s.rest := by
  unfold statusSync; split <;> rfl

/-! ## The end of an event -/

@[simp] theorem rest_sync (s : State) : (sync s).rest = s.rest := by simp [sync, unitSync]

/-- A sub-event leaves the rest as its own act makes it. -/
@[simp] theorem rest_subEvent (f : State → State) (s : State) : (subEvent f s).rest = (f s).rest := by simp [subEvent]

@[simp] theorem rest_retrySync (pre s : State) : (retrySync pre s).rest = s.rest := by
  unfold retrySync; split <;> simp

@[simp] theorem rest_settle (pre s : State) : (settle pre s).rest = s.rest := by simp [settle]

theorem unlessRestarted_act {c : Instr} {act : State → State} {s : State} (h : c ∉ s.restarted) :
    unlessRestarted c act s = act s := by simp [unlessRestarted, h]

/-- The expiry of a time that has been started afresh at this moment changes nothing but the note of it. -/
theorem rest_unlessRestarted {c : Instr} {act : State → State} {s : State} (h : c ∈ s.restarted) :
    (unlessRestarted c act s).rest = s.rest := by simp only [unlessRestarted, h, if_true]; rfl

@[simp] theorem rest_noteRestarted (pre s : State) : (noteRestarted pre s).rest = s.rest := rfl

/-- What everything else follows is left as it stands by the end of an event. -/
@[simp] theorem finish_rest (pre s : State) : (finish pre s).rest = s.rest := by
  unfold finish; split <;> simp

end Sys2Proof.Machine
end

