-- ==== Sys2Proof/Laws/Permit.lean ====
section
/-! SUPPORT. The end of an event leaves the permit and the STATUS code as they must stand: `finish_permitStands`,
`finish_statusSound`. -/

namespace Sys2Proof.Machine

/-! ## What one rest gives -/

section
variable {s t : State} (h : t.rest = s.rest)
include h

theorem image_of_rest : t.image = s.image := show t.rest.image = s.rest.image by rw [h]
theorem station_of_rest : t.station = s.station := show t.rest.station = s.rest.station by rw [h]
theorem inputs_of_rest : t.inputs = s.inputs := show t.rest.inputs = s.rest.inputs by rw [h]
theorem claim_of_rest : t.claim = s.claim := show t.rest.claim = s.rest.claim by rw [h]
theorem replicas_of_rest : t.replicas = s.replicas := show t.rest.replicas = s.rest.replicas by rw [h]
theorem cabMap_of_rest : t.cabMap = s.cabMap := show t.rest.cabMap = s.rest.cabMap by rw [h]
theorem sensor_of_rest : t.sensor = s.sensor := show t.rest.sensor = s.rest.sensor by rw [h]
theorem face_of_rest : t.face = s.face := show t.rest.face = s.rest.face by rw [h]
theorem dust_of_rest : t.dust = s.dust := show t.rest.dust = s.rest.dust by rw [h]
theorem pending_of_rest : t.pending = s.pending := show t.rest.pending = s.rest.pending by rw [h]
theorem spi_of_rest : t.spi = s.spi := show t.rest.spi = s.rest.spi by rw [h]
theorem resetHeld_of_rest : t.resetHeld = s.resetHeld := show t.rest.resetHeld = s.rest.resetHeld by rw [h]
theorem serial_of_rest : t.serial = s.serial := show t.rest.serial = s.rest.serial by rw [h]
theorem line_of_rest : t.line.rest = s.line.rest := show t.rest.line = s.rest.line by rw [h]
theorem lineState_of_rest : t.line.state = s.line.state := show t.line.rest.state = s.line.rest.state by rw [line_of_rest h]
theorem sfc_of_rest : t.line.sfc = s.line.sfc := show t.line.rest.sfc = s.line.rest.sfc by rw [line_of_rest h]
theorem hfc_of_rest : t.line.hfc = s.line.hfc := show t.line.rest.hfc = s.line.rest.hfc by rw [line_of_rest h]
theorem awaitsGap_of_rest : t.line.awaitsGap = s.line.awaitsGap :=
  show t.line.rest.awaitsGap = s.line.rest.awaitsGap by rw [line_of_rest h]
theorem faultRecord_of_rest : t.line.record = s.line.record := show t.line.rest.record = s.line.rest.record by rw [line_of_rest h]
theorem claimSlot_of_rest : t.line.claim = s.line.claim := show t.line.rest.claim = s.line.rest.claim by rw [line_of_rest h]
theorem mapSlot_of_rest : t.line.map = s.line.map := show t.line.rest.map = s.line.rest.map by rw [line_of_rest h]
theorem idleGaps_of_rest : t.line.idleGaps = s.line.idleGaps := show t.line.rest.idleGaps = s.line.rest.idleGaps by rw [line_of_rest h]
theorem cause_of_rest : t.line.cause = s.line.cause := show t.line.rest.cause = s.line.rest.cause by rw [line_of_rest h]
theorem pub_of_rest : t.pub.rest = s.pub.rest := show t.rest.pub = s.rest.pub by rw [h]
theorem answers_of_rest : t.pub.answers = s.pub.answers := show t.pub.rest.answers = s.pub.rest.answers by rw [pub_of_rest h]
theorem dropped_of_rest : t.pub.dropped = s.pub.dropped := show t.pub.rest.dropped = s.pub.rest.dropped by rw [pub_of_rest h]
theorem pubTimer_of_rest : t.pub.timer = s.pub.timer := show t.pub.rest.timer = s.pub.rest.timer by rw [pub_of_rest h]
theorem late_of_rest : t.pub.late = s.pub.late := show t.pub.rest.late = s.pub.rest.late by rw [pub_of_rest h]
theorem rowMarks_of_rest : t.pub.rowMarks = s.pub.rowMarks := show t.pub.rest.rowMarks = s.pub.rest.rowMarks by rw [pub_of_rest h]
theorem tagMarks_of_rest : t.pub.tagMarks = s.pub.tagMarks := show t.pub.rest.tagMarks = s.pub.rest.tagMarks by rw [pub_of_rest h]

/-- The station is live in both or in neither. -/
theorem live_of_rest : t.live = s.live := by simp [State.live, lineState_of_rest h]

/-- One unit's rest is one in both, whatever the role. -/
theorem permit_of_rest : t.permit.rest = s.permit.rest := by
  have e := congrArg State.permit h
  simp only [State.rest, isRole_of_rest h] at e
  split at e
  · exact e
  · rw [e]

theorem ring_of_rest : t.ring.rest = s.ring.rest := by
  have e := congrArg State.ring h
  simp only [State.rest, isRole_of_rest h] at e
  split at e
  · exact e
  · rw [e]

theorem recovery_of_rest : t.recovery.rest = s.recovery.rest := by
  have e := congrArg State.recovery h
  simp only [State.rest, isRole_of_rest h] at e
  split at e
  · exact e
  · rw [e]

theorem scrub_of_rest : t.scrub.rest = s.scrub.rest := by
  have e := congrArg State.scrub h
  simp only [State.rest, isRole_of_rest h] at e
  split at e
  · exact e
  · rw [e]

theorem conv_of_rest : t.conv.rest = s.conv.rest := by
  have e := congrArg State.conv h
  simp only [State.rest, isRole_of_rest h] at e
  split at e
  · exact e
  · rw [e]

theorem retires_of_rest : t.conv.retires = s.conv.retires := show t.conv.rest.retires = s.conv.rest.retires by rw [conv_of_rest h]

theorem panel_of_rest : { t.panel with offer := none } = { s.panel with offer := none } := by
  have e := congrArg State.panel h
  simp only [State.rest, isRole_of_rest h] at e
  split at e
  · exact e
  · rw [e]

theorem head_of_rest : t.permit.head = s.permit.head := show t.permit.rest.head = s.permit.rest.head by rw [permit_of_rest h]
theorem fresh_of_rest : t.permit.fresh = s.permit.fresh := show t.permit.rest.fresh = s.permit.rest.fresh by rw [permit_of_rest h]
theorem dwell_of_rest : t.permit.dwell = s.permit.dwell := show t.permit.rest.dwell = s.permit.rest.dwell by rw [permit_of_rest h]

theorem lots_of_rest : t.ring.lots.map (fun l => { l with isOpen := false }) = s.ring.lots.map (fun l => { l with isOpen := false }) :=
  congrArg LotRing.lots (ring_of_rest h)

theorem outstanding_of_rest : t.outstanding = s.outstanding := by
  have e := congrArg (List.map Lot.expected) (lots_of_rest h)
  simp only [List.map_map, Function.comp_def] at e
  simp only [State.outstanding, e]

theorem lotCount_of_rest : t.ring.lots.length = s.ring.lots.length := by
  have e := congrArg List.length (lots_of_rest h)
  simpa using e

/-- The hold reasons read the rest of the state and the own notices. -/
theorem reasonsNow_of_rest (hn : t.notices.slots = s.notices.slots) : t.reasonsNow = s.reasonsNow := by
  have hr := recovery_of_rest h
  have ha : t.recovery.adopted = s.recovery.adopted := show t.recovery.rest.adopted = s.recovery.rest.adopted by rw [hr]
  have hs : t.recovery.state = s.recovery.state := show t.recovery.rest.state = s.recovery.rest.state by rw [hr]
  have hl : t.recovery.lostAcked = s.recovery.lostAcked := show t.recovery.rest.lostAcked = s.recovery.rest.lostAcked by rw [hr]
  have hp : t.isPresent = s.isPresent := by
    funext r n; simp only [State.isPresent, State.entryIs, State.entry, claim_of_rest h]
  have hq : t.presentReady = s.presentReady := by
    funext r n; simp only [State.presentReady, hp, State.entry, claim_of_rest h]
  simp only [State.reasonsNow, State.reasonRoster, State.reasonPose, State.reasonCell, State.reasonZone, State.reasonDust,
    State.reasonSpoil, State.reasonTrip, State.reasonVigil, State.reasonRestore, hp, hq, State.entry,
    State.vigilanceCab, State.cabPart, State.replica, State.cell, State.zoneProtected,
    State.capacityRead, State.presentScrubber, State.presentOf, State.presentConveyor, State.counted, State.entryState,
    State.cfg, inputs_of_rest h, lineState_of_rest h, claim_of_rest h, image_of_rest h, replicas_of_rest h,
    station_of_rest h, face_of_rest h, dust_of_rest h, head_of_rest h, fresh_of_rest h, outstanding_of_rest h,
    lotCount_of_rest h, hn, ha, hs, hl]

/-- The state an empty reason set gives reads the head cell and the kinds. -/
theorem onState_of_rest : t.onState = s.onState := by
  have hk : t.kind = s.kind := by funext c; simp [State.kind, image_of_rest h]
  simp only [State.onState, head_of_rest h, hk]

end

/-! ## The permit -/

/-- Sound as it stands: reasons as now given, and on only with none set and by the head's kind. -/
def State.PermitStands (s : State) : Prop :=
  s.permit.reasons = s.reasonsNow ∧ (s.permitOn = true → s.permit.reasons.none = true ∧ s.permit.state = s.onState)

/-- It reads the permit, the own notices and the rest. -/
theorem State.PermitStands.of_same {s t : State} (hs : s.PermitStands) (h : t.rest = s.rest) (hp : t.permit = s.permit)
    (hn : t.notices.slots = s.notices.slots) : t.PermitStands := by
  refine ⟨?_, ?_⟩
  · rw [hp, reasonsNow_of_rest h hn]; exact hs.1
  · intro ho
    have ho' : s.permitOn = true := by simpa [State.permitOn, hp] using ho
    rw [hp, onState_of_rest h]; exact hs.2 ho'

/-- The transitions of R35 leave the permit standing on the reasons held. -/
theorem movePermit_stands {s : State} (hc : s.isRole .cutter = true) (hr : s.permit.reasons = s.reasonsNow) :
    (movePermit s).PermitStands := by
  have hrest := rest_movePermit hc
  have hn : (movePermit s).notices.slots = s.notices.slots := by
    unfold movePermit; repeat' split
    all_goals rfl
  have hre : (movePermit s).permit.reasons = s.permit.reasons := by
    unfold movePermit; repeat' split
    all_goals rfl
  refine ⟨?_, ?_⟩
  · rw [hre, reasonsNow_of_rest hrest hn, hr]
  · intro ho
    rw [hre, onState_of_rest hrest]
    revert ho
    unfold State.permitOn movePermit
    split
    · rename_i hst; rw [hst]; simp [PermitState.on]
    · rename_i hst; split
      · rename_i hn0; intro _; exact ⟨hn0, rfl⟩
      · rw [hst]; simp [PermitState.on]
    · split
      · rename_i hn0; intro _; exact ⟨hn0, rfl⟩
      · simp [setPermit, PermitState.on]
    · split
      · rename_i hn0; intro _; exact ⟨hn0, rfl⟩
      · simp [setPermit, PermitState.on]

/-- A stopped dwell timer is no matter of the permit's. -/
theorem dwellSync_stands {s : State} (hc : s.isRole .cutter = true) (h : s.PermitStands) : (dwellSync s).PermitStands := by
  have hr := rest_dwellSync hc
  exact ⟨h.1.trans (reasonsNow_of_rest hr rfl).symm, fun ho => by rw [onState_of_rest hr]; exact h.2 ho⟩

theorem applyReasons_stands {s : State} (hc : s.isRole .cutter = true) : (applyReasons s).PermitStands := by
  have hv : ({ s with permit := { s.permit with reasons := s.reasonsNow } } : State).rest = s.rest := rest_permit hc _ rfl
  have hc' := (isRole_of_rest hv .cutter).trans hc
  exact dwellSync_stands ((isRole_of_rest (rest_movePermit hc') .cutter).trans hc')
    (movePermit_stands hc' (reasonsNow_of_rest hv rfl).symm)

/-- An evaluation of the permit at a CUTTER (R34). -/
theorem permitSync_stands {s : State} (hc : s.isRole .cutter = true) : (permitSync s).PermitStands := by
  unfold permitSync; rw [if_pos hc]; unfold evaluatePermit
  have h3 : (releaseBreach (noteBreachEntered (judgeBreach s))).isRole .cutter = true := by
    have h1 := (isRole_of_rest (rest_judgeBreach s) .cutter).trans hc
    have h2 := (isRole_of_rest (rest_noteBreachEntered h1) .cutter).trans h1
    exact (isRole_of_rest (rest_releaseBreach h2) .cutter).trans h2
  exact applyReasons_stands h3

/-! Every stage after the evaluation leaves permit and notices. -/

theorem requestSync_permit (s : State) : (requestSync s).permit = s.permit := by
  unfold requestSync dropRequest placeRequest; dsimp only; repeat' split
  all_goals rfl
theorem requestSync_notices (s : State) : (requestSync s).notices = s.notices := by
  unfold requestSync dropRequest placeRequest; dsimp only; repeat' split
  all_goals rfl
theorem displaySync_permit (s : State) : (displaySync s).permit = s.permit := by
  unfold displaySync; split <;> rfl
theorem displaySync_notices (s : State) : (displaySync s).notices = s.notices := by
  unfold displaySync; split <;> rfl
theorem fillOrderSlot_permit (s : State) : (fillOrderSlot s).permit = s.permit := by
  unfold fillOrderSlot; repeat' split
  all_goals rfl
theorem fillOrderSlot_notices (s : State) : (fillOrderSlot s).notices = s.notices := by
  unfold fillOrderSlot; repeat' split
  all_goals rfl
theorem fillOrderSlot_cab (s : State) : (fillOrderSlot s).cab = s.cab := by
  unfold fillOrderSlot; repeat' split
  all_goals rfl
theorem earlySync_permit (pre s : State) : (earlySync pre s).permit = s.permit := by
  unfold earlySync requestEarly; dsimp only; repeat' split
  all_goals rfl
theorem earlySync_notices (pre s : State) : (earlySync pre s).notices = s.notices := by
  unfold earlySync requestEarly; dsimp only; repeat' split
  all_goals rfl
theorem earlySync_cab (pre s : State) : (earlySync pre s).cab = s.cab := by
  unfold earlySync requestEarly; dsimp only; repeat' split
  all_goals rfl
theorem beginFrame_permit (s : State) : (beginFrame s).permit = s.permit := by
  unfold beginFrame; repeat' split
  all_goals rfl
theorem beginFrame_notices (s : State) : (beginFrame s).notices = s.notices := by
  unfold beginFrame; repeat' split
  all_goals rfl
theorem beginFrame_cab (s : State) : (beginFrame s).cab = s.cab := by
  unfold beginFrame; repeat' split
  all_goals rfl
theorem statusSync_permit (s : State) : (statusSync s).permit = s.permit := by
  unfold statusSync; split <;> rfl
theorem statusSync_notices (s : State) : (statusSync s).notices = s.notices := by
  unfold statusSync; split <;> rfl
theorem statusSync_cab (s : State) : (statusSync s).cab = s.cab := by
  unfold statusSync; split <;> rfl

theorem sync_stands {s : State} (hc : s.isRole .cutter = true) : (sync s).PermitStands := by
  unfold sync
  have h : (judgeNotices (unitSync s)).rest = s.rest := by simp [unitSync]
  have p := permitSync_stands ((isRole_of_rest h .cutter).trans hc)
  generalize permitSync (judgeNotices (unitSync s)) = v at p
  refine p.of_same (by simp) ?_ ?_
  · rw [displaySync_permit, requestSync_permit]
  · rw [displaySync_notices, requestSync_notices]

/-- The end of an event at a live CUTTER leaves the permit standing on the reasons of that moment (R34, R35). -/
theorem finish_permitStands {pre s : State} (hl : s.live = true) (hc : s.isRole .cutter = true) :
    (finish pre s).PermitStands := by
  unfold finish; rw [if_pos hl]; unfold settle
  have p : (retrySync pre (sync s)).PermitStands := by
    unfold retrySync; split
    · exact sync_stands ((isRole_of_rest (by simp : (retryBreach (sync s)).rest = s.rest) .cutter).trans hc)
    · exact sync_stands hc
  generalize retrySync pre (sync s) = v at p
  refine p.of_same (by simp) ?_ ?_
  · rw [statusSync_permit, State.noteRestarted_permit, beginFrame_permit, earlySync_permit, fillOrderSlot_permit]
  · rw [statusSync_notices, State.noteRestarted_notices, beginFrame_notices, earlySync_notices, fillOrderSlot_notices]

/-- A completion stands only while the dwell timer runs (R41). -/
def State.DwellStands (s : State) : Prop := s.permit.reached = true → s.dwellRuns = true

theorem State.DwellStands.of_same {s t : State} (hs : s.DwellStands) (h : t.rest = s.rest) (hp : t.permit = s.permit) :
    t.DwellStands := by
  have e : t.dwellRuns = s.dwellRuns := by
    simp only [State.dwellRuns, State.permitOn, State.cell, hp, inputs_of_rest h, face_of_rest h]
  intro hr; rw [e]; exact hs (hp ▸ hr)

theorem permitSync_dwellStands {s : State} (hc : s.isRole .cutter = true) : (permitSync s).DwellStands := by
  unfold permitSync; rw [if_pos hc]
  intro h
  exact (Bool.and_eq_true _ _ ▸ h).2

theorem sync_dwellStands {s : State} (hc : s.isRole .cutter = true) : (sync s).DwellStands := by
  unfold sync
  have h : (judgeNotices (unitSync s)).rest = s.rest := by simp [unitSync]
  have p := permitSync_dwellStands ((isRole_of_rest h .cutter).trans hc)
  generalize permitSync (judgeNotices (unitSync s)) = v at p
  exact p.of_same (by simp) (by rw [displaySync_permit, requestSync_permit])

/-- The end of an event at a live CUTTER leaves no completion of a dwell timer that does not run. -/
theorem finish_dwellStands {pre s : State} (hl : s.live = true) (hc : s.isRole .cutter = true) :
    (finish pre s).DwellStands := by
  unfold finish; rw [if_pos hl]; unfold settle
  have p : (retrySync pre (sync s)).DwellStands := by
    unfold retrySync; split
    · exact sync_dwellStands ((isRole_of_rest (by simp : (retryBreach (sync s)).rest = s.rest) .cutter).trans hc)
    · exact sync_dwellStands hc
  generalize retrySync pre (sync s) = v at p
  refine p.of_same (by simp) ?_
  rw [statusSync_permit, State.noteRestarted_permit, beginFrame_permit, earlySync_permit, fillOrderSlot_permit]

/-! ## The STATUS code -/

/-- The further attempt of R37 is the CUTTER's. -/
theorem retrySync_other {pre s : State} (h : s.isRole .cutter = false) : retrySync pre s = s := by
  unfold retrySync; rw [h]; rfl

theorem statusSync_statusSound (s : State) : (statusSync s).StatusSound := by
  unfold statusSync
  split
  · rename_i h; exact h.symm
  · rfl

theorem finish_statusSound (pre s : State) : (finish pre s).StatusSound := by
  unfold finish; exact statusSync_statusSound _

end Sys2Proof.Machine
end

