-- ==== Sys2Proof/Laws/Events.lean ====
section
/-! SUPPORT. What the end of an event gives the parts that follow: the scrubber, the conveyor, the panel, the cab unit and
the hold reasons after `finish`, each by its own stage alone. -/

namespace Sys2Proof.Machine

/-- An event at a live station. -/
theorem event_live {f : State → State} {s : State} (h : s.live = true) : event f s = .next (finish s (f s)) := by
  simp [event, h]

/-! ## The notices leave every unit -/

/-- Every part but the own notices and the TRIP slots is equal. -/
def NoticesOnly (s t : State) : Prop :=
  t = { s with notices := t.notices, line := { s.line with trip := t.line.trip } }

theorem NoticesOnly.refl (s : State) : NoticesOnly s s := rfl

theorem NoticesOnly.trans {s t u : State} (h : NoticesOnly s t) (g : NoticesOnly t u) : NoticesOnly s u := by
  unfold NoticesOnly at *; rw [g, h]

theorem noticesOnly_foldl {α : Type} (f : State → α → State) (h : ∀ s a, NoticesOnly s (f s a)) (l : List α) (s : State) :
    NoticesOnly s (l.foldl f s) := by
  induction l generalizing s with
  | nil => exact .refl s
  | cons a l ih => exact (h s a).trans (ih _)

theorem noticesOnly_enterSlot (i : Fin 8) (c : NoticeCode) (s : State) : NoticesOnly s (enterSlot i c s) := by
  unfold enterSlot queueTrip; dsimp only; repeat' split
  all_goals rfl

theorem noticesOnly_raiseNotice (c : NoticeCode) (s : State) : NoticesOnly s (raiseNotice c s) := by
  unfold raiseNotice; repeat' split
  · exact noticesOnly_enterSlot _ _ _
  · exact noticesOnly_enterSlot _ _ _
  · rfl
  · refine .trans ?_ (noticesOnly_enterSlot _ _ _)
    unfold displaceNote; split <;> rfl
  · rfl

theorem noticesOnly_refill (s : State) : NoticesOnly s (refill s) := by
  unfold refill
  refine noticesOnly_foldl _ (fun s i => ?_) _ _
  split
  · unfold fillSlot; split
    · exact noticesOnly_enterSlot _ _ _
    · exact .refl _
  · exact .refl _

theorem noticesOnly_clearNotice (c : NoticeCode) (s : State) : NoticesOnly s (clearNotice c s) := by
  unfold clearNotice; repeat' split
  all_goals rfl

theorem noticesOnly_judgeNotices (s : State) : NoticesOnly s (judgeNotices s) := by
  unfold judgeNotices
  have h1 := noticesOnly_foldl judgeClear (fun s c => by
    unfold judgeClear; split
    · split
      · exact noticesOnly_clearNotice c s
      · exact .refl _
    · split
      · exact (noticesOnly_clearNotice c s).trans rfl
      · exact .refl _) NoticeCode.all s
  have h2 := h1.trans (noticesOnly_refill _)
  have h3 := h2.trans (noticesOnly_foldl judgeRaise (fun s c => by
    unfold judgeRaise; split
    · exact (noticesOnly_raiseNotice c s).trans rfl
    · exact .refl _) NoticeCode.all _)
  refine h3.trans ?_
  generalize NoticeCode.all.foldl judgeRaise _ = v
  unfold updateSilentDetail; repeat' split
  all_goals rfl

/-! ## The stages, unit by unit -/

section
variable (pre s : State)

theorem judgeNotices_scrub : (judgeNotices s).scrub = s.scrub := by rw [noticesOnly_judgeNotices s]
theorem judgeNotices_conv : (judgeNotices s).conv = s.conv := by rw [noticesOnly_judgeNotices s]
theorem judgeNotices_cab : (judgeNotices s).cab = s.cab := by rw [noticesOnly_judgeNotices s]
theorem judgeNotices_panel : (judgeNotices s).panel = s.panel := by rw [noticesOnly_judgeNotices s]
theorem judgeNotices_sending : (judgeNotices s).line.sending = s.line.sending := by rw [noticesOnly_judgeNotices s]
theorem judgeNotices_permit : (judgeNotices s).permit = s.permit := by rw [noticesOnly_judgeNotices s]

/-- The permit's evaluation leaves the other units, and changes the line in its TRIP slots only. -/
theorem evaluatePermit_units : (evaluatePermit s).scrub = s.scrub ∧ (evaluatePermit s).conv = s.conv ∧
    (evaluatePermit s).cab = s.cab ∧ (evaluatePermit s).panel = s.panel ∧
    (evaluatePermit s).line.sending = s.line.sending := by
  have hj : NoticesOnly s (judgeBreach s) := by
    unfold judgeBreach; repeat' split
    · exact .refl s
    · exact noticesOnly_clearNotice _ s
    · exact noticesOnly_raiseNotice _ s
    · exact .refl s
  have e : ∀ v : State, v.scrub = s.scrub ∧ v.conv = s.conv ∧ v.cab = s.cab ∧ v.panel = s.panel ∧
      v.line.sending = s.line.sending → ((movePermit v).scrub = s.scrub ∧ (movePermit v).conv = s.conv ∧
      (movePermit v).cab = s.cab ∧ (movePermit v).panel = s.panel ∧ (movePermit v).line.sending = s.line.sending) := by
    intro v hv; unfold movePermit; repeat' split
    all_goals exact hv
  unfold evaluatePermit applyReasons
  refine e _ ?_
  unfold releaseBreach noteBreachEntered
  generalize judgeBreach s = v at hj
  rw [hj]; repeat' split
  all_goals exact ⟨rfl, rfl, rfl, rfl, rfl⟩

theorem permitSync_scrub : (permitSync s).scrub = s.scrub := by
  unfold permitSync; split
  · exact (evaluatePermit_units s).1
  · rfl
theorem permitSync_conv : (permitSync s).conv = s.conv := by
  unfold permitSync; split
  · exact (evaluatePermit_units s).2.1
  · rfl
theorem permitSync_cab : (permitSync s).cab = s.cab := by
  unfold permitSync; split
  · exact (evaluatePermit_units s).2.2.1
  · rfl
theorem permitSync_panel : (permitSync s).panel = s.panel := by
  unfold permitSync; split
  · exact (evaluatePermit_units s).2.2.2.1
  · rfl
theorem requestSync_scrub : (requestSync s).scrub = s.scrub := by
  unfold requestSync dropRequest placeRequest; dsimp only; repeat' split
  all_goals rfl
theorem requestSync_conv : (requestSync s).conv = s.conv := by
  unfold requestSync dropRequest placeRequest; dsimp only; repeat' split
  all_goals rfl
theorem requestSync_cab : (requestSync s).cab = s.cab := by
  unfold requestSync dropRequest placeRequest; dsimp only; repeat' split
  all_goals rfl
theorem requestSync_panel : (requestSync s).panel = s.panel := by
  unfold requestSync dropRequest placeRequest; dsimp only; repeat' split
  all_goals rfl
theorem displaySync_scrub : (displaySync s).scrub = s.scrub := by unfold displaySync; split <;> rfl
theorem displaySync_conv : (displaySync s).conv = s.conv := by unfold displaySync; split <;> rfl
theorem displaySync_panel : (displaySync s).panel = s.panel := by unfold displaySync; split <;> rfl
theorem offerSync_scrub : (offerSync s).scrub = s.scrub := by
  unfold offerSync; repeat' split
  all_goals rfl
theorem offerSync_conv : (offerSync s).conv = s.conv := by
  unfold offerSync; repeat' split
  all_goals rfl
theorem offerSync_cab : (offerSync s).cab = s.cab := by
  unfold offerSync; repeat' split
  all_goals rfl
theorem vigSync_scrub : (vigSync s).scrub = s.scrub := by
  unfold vigSync vigDemand changeStanding; dsimp only; repeat' split
  all_goals rfl
theorem vigSync_conv : (vigSync s).conv = s.conv := by
  unfold vigSync vigDemand changeStanding; dsimp only; repeat' split
  all_goals rfl
theorem vigSync_panel : (vigSync s).panel = s.panel := by
  unfold vigSync vigDemand changeStanding; dsimp only; repeat' split
  all_goals rfl
theorem convSync_other (h : s.isRole .conveyor = false) : convSync s = s := by unfold convSync; rw [h]; rfl
theorem scrubSync_other (h : s.isRole .scrubber = false) : scrubSync s = s := by unfold scrubSync; rw [h]; rfl
theorem vigSync_other (h : s.isRole .cab = false) : vigSync s = s := by unfold vigSync; rw [h]; rfl
theorem displaySync_other (h : s.isRole .cab = false) : displaySync s = s := by unfold displaySync; rw [h]; rfl

end

/-! ## The end of the event -/

section
variable (pre s : State)

theorem fillOrderSlot_units : (fillOrderSlot s).scrub = s.scrub ∧ (fillOrderSlot s).conv = s.conv ∧
    (fillOrderSlot s).panel = s.panel := by
  unfold fillOrderSlot; repeat' split
  all_goals exact ⟨rfl, rfl, rfl⟩
theorem earlySync_units : (earlySync pre s).scrub = s.scrub ∧ (earlySync pre s).conv = s.conv ∧
    (earlySync pre s).panel = s.panel := by
  unfold earlySync requestEarly; dsimp only; repeat' split
  all_goals exact ⟨rfl, rfl, rfl⟩
theorem beginFrame_units : (beginFrame s).scrub = s.scrub ∧ (beginFrame s).conv = s.conv ∧
    (beginFrame s).panel = s.panel := by
  unfold beginFrame; repeat' split
  all_goals exact ⟨rfl, rfl, rfl⟩

theorem statusSync_units : (statusSync s).scrub = s.scrub ∧ (statusSync s).conv = s.conv ∧
    (statusSync s).panel = s.panel := by
  unfold statusSync; split <;> exact ⟨rfl, rfl, rfl⟩

/-- What serves the line after the sync leaves the units. -/
theorem afterSync_units : (beginFrame (earlySync pre (fillOrderSlot s))).scrub = s.scrub ∧
    (beginFrame (earlySync pre (fillOrderSlot s))).conv = s.conv ∧
    (beginFrame (earlySync pre (fillOrderSlot s))).panel = s.panel := by
  obtain ⟨a1, a2, a3⟩ := beginFrame_units (earlySync pre (fillOrderSlot s))
  obtain ⟨b1, b2, b3⟩ := earlySync_units pre (fillOrderSlot s)
  obtain ⟨c1, c2, c3⟩ := fillOrderSlot_units s
  exact ⟨a1.trans (b1.trans c1), a2.trans (b2.trans c2), a3.trans (b3.trans c3)⟩

/-- The end of an event at a live station that is no CUTTER. -/
theorem finish_other (hl : s.live = true) (h : s.isRole .cutter = false) :
    finish pre s = statusSync (noteRestarted pre (beginFrame (earlySync pre (fillOrderSlot (sync s))))) := by
  unfold finish; rw [if_pos hl]; unfold settle
  rw [retrySync_other ((isRole_of_rest (rest_sync s) .cutter).trans h)]

variable {pre s}

/-- The scrubber after an event is what its sequencer makes of it. -/
theorem finish_scrub (hl : s.live = true) (h : s.isRole .scrubber = true) :
    (finish pre s).scrub = (scrubSync s).scrub := by
  rw [finish_other pre s hl ((isRole_eq h).trans rfl)]
  have e : (statusSync (noteRestarted pre (beginFrame (earlySync pre (fillOrderSlot (sync s)))))).scrub = (sync s).scrub := by
    exact (statusSync_units _).1.trans ((State.noteRestarted_scrub _ _).trans (afterSync_units _ _).1)
  rw [e]; unfold sync unitSync
  rw [displaySync_scrub, requestSync_scrub, permitSync_scrub, judgeNotices_scrub, offerSync_scrub, vigSync_scrub,
    convSync_other _ ((isRole_of_rest (rest_scrubSync s) .conveyor).trans ((isRole_eq h).trans rfl))]

/-- The conveyor after an event is what its sequencer makes of it. -/
theorem finish_conv (hl : s.live = true) (h : s.isRole .conveyor = true) :
    (finish pre s).conv = (convSync s).conv := by
  rw [finish_other pre s hl ((isRole_eq h).trans rfl)]
  have e : (statusSync (noteRestarted pre (beginFrame (earlySync pre (fillOrderSlot (sync s)))))).conv = (sync s).conv := by
    exact (statusSync_units _).2.1.trans ((State.noteRestarted_conv _ _).trans (afterSync_units _ _).2.1)
  rw [e]; unfold sync unitSync
  rw [displaySync_conv, requestSync_conv, permitSync_conv, judgeNotices_conv, offerSync_conv, vigSync_conv,
    scrubSync_other _ ((isRole_eq h).trans rfl)]

/-- At a CAB the vigilance check acts first and the display list is recomputed last. -/
theorem sync_cab (h : s.isRole .cab = true) : ∃ v : State, v.rest = s.rest ∧ v.cab = (vigSync s).cab ∧
    (sync s).cab = (displaySync v).cab := by
  have e : unitSync s = offerSync (vigSync s) := by
    unfold unitSync
    rw [scrubSync_other _ ((isRole_eq h).trans rfl), convSync_other _ ((isRole_eq h).trans rfl)]
  refine ⟨requestSync (permitSync (judgeNotices (offerSync (vigSync s)))), by simp, ?_, ?_⟩
  · rw [requestSync_cab, permitSync_cab, judgeNotices_cab, offerSync_cab]
  · unfold sync; rw [e]

/-- The panel after an event: an open LINE offer judged again. -/
theorem finish_panel (hl : s.live = true) (h : s.isRole .cab = true) :
    (finish pre s).panel = (offerSync s).panel := by
  rw [finish_other pre s hl ((isRole_eq h).trans rfl)]
  have e : (statusSync (noteRestarted pre (beginFrame (earlySync pre (fillOrderSlot (sync s)))))).panel = (sync s).panel := by
    exact (statusSync_units _).2.2.trans ((State.noteRestarted_panel _ _).trans (afterSync_units _ _).2.2)
  rw [e]; unfold sync unitSync
  rw [displaySync_panel, requestSync_panel, permitSync_panel, judgeNotices_panel,
    scrubSync_other _ ((isRole_eq h).trans rfl), convSync_other _ ((isRole_eq h).trans rfl)]
  have hv := vigSync_panel s
  have hr := rest_vigSync s
  unfold offerSync State.lineOffer
  rw [hv, isRole_of_rest hr, h]
  have hs : (vigSync s).entryState = s.entryState := by
    funext n; simp only [State.entryState, State.entry, claim_of_rest hr]
  rw [hs]; repeat' split
  all_goals simp [hv]

/-- With no LINE offer open the panel stays as the event made it. -/
theorem finish_panel_same (hl : s.live = true) (h : s.isRole .cab = true)
    (ho : s.panel.offer = none ∨ s.panel.page ≠ .line) : (finish pre s).panel = s.panel := by
  rw [finish_panel hl h]; unfold offerSync
  rcases ho with ho | ho
  · rw [ho]
  · split
    · rw [if_neg]; simp [ho]
    · rfl

end

/-! ## Times started afresh -/

theorem mem_restartable (c : Instr) (h : c = .claimWindowExpiry ∨ c = .lineSilenceWatchExpiry ∨
    (∃ n, c = .silenceTimerExpiry n) ∨ ∃ e, c = .valueStale e) : c ∈ restartable := by
  rcases h with rfl | rfl | ⟨n, rfl⟩ | ⟨e, rfl⟩
  · decide
  · decide
  · fin_cases n <;> decide
  · fin_cases e <;> decide

/-- What is left of a time is read from parts that no event's end touches. -/
theorem timeLeft_of_rest {s t : State} (h : t.rest = s.rest) : t.timeLeft = s.timeLeft := by
  funext c
  unfold State.timeLeft
  simp only [State.entry, State.staleAge, State.cfg, claim_of_rest h, sensor_of_rest h, image_of_rest h, station_of_rest h]

/-- What the end of an event notes of the times started afresh. -/
theorem mem_finish_restarted {pre s : State} {c : Instr} (hl : s.live = true) (h : c ∈ restartedSince pre (settle pre s)) :
    c ∈ (finish pre s).restarted := by
  have e : (finish pre s).restarted = (settle pre s).restarted ∪ restartedSince pre (settle pre s) := by
    unfold finish statusSync; rw [if_pos hl]; split <;> rfl
  rw [e, List.mem_union_iff]; exact .inr h

/-- A character that moves a frame on starts its gap limit afresh (R184). -/
theorem finish_goesOn {pre s : State} (hl : s.live = true) (h : frameGoesOn pre s = true) :
    .gapLimitExpiry ∈ (finish pre s).restarted := by
  have e : frameGoesOn pre (settle pre s) = frameGoesOn pre s := by
    simp only [frameGoesOn, sensor_of_rest (rest_settle pre s)]
  exact mem_finish_restarted hl (by simp [restartedSince, e, h])

/-- A time that ran before an event and has more left after it is noted at the end of the event. -/
theorem finish_restarted {pre s : State} {c : Instr} {a b : Ticks} (hl : s.live = true) (hc : c ∈ restartable)
    (ha : pre.timeLeft c = some a) (hb : s.timeLeft c = some b) (lt : a < b) : c ∈ (finish pre s).restarted := by
  refine mem_finish_restarted hl ?_
  simp [restartedSince, hc, ha, timeLeft_of_rest (rest_settle pre s), hb, lt]

/-! ## Fields the end of an event leaves -/

section
variable (pre s : State)

@[simp] theorem finish_image : (finish pre s).image = s.image := image_of_rest (finish_rest pre s)
@[simp] theorem finish_station : (finish pre s).station = s.station := station_of_rest (finish_rest pre s)
@[simp] theorem finish_inputs : (finish pre s).inputs = s.inputs := inputs_of_rest (finish_rest pre s)
@[simp] theorem finish_claim : (finish pre s).claim = s.claim := claim_of_rest (finish_rest pre s)
@[simp] theorem finish_replicas : (finish pre s).replicas = s.replicas := replicas_of_rest (finish_rest pre s)
@[simp] theorem finish_cabMap : (finish pre s).cabMap = s.cabMap := cabMap_of_rest (finish_rest pre s)
@[simp] theorem finish_sensor : (finish pre s).sensor = s.sensor := sensor_of_rest (finish_rest pre s)
@[simp] theorem finish_face : (finish pre s).face = s.face := face_of_rest (finish_rest pre s)
@[simp] theorem finish_dust : (finish pre s).dust = s.dust := dust_of_rest (finish_rest pre s)
@[simp] theorem finish_pending : (finish pre s).pending = s.pending := pending_of_rest (finish_rest pre s)
@[simp] theorem finish_serial : (finish pre s).serial = s.serial := serial_of_rest (finish_rest pre s)
@[simp] theorem finish_lineState : (finish pre s).line.state = s.line.state := lineState_of_rest (finish_rest pre s)
@[simp] theorem finish_sfc : (finish pre s).line.sfc = s.line.sfc := sfc_of_rest (finish_rest pre s)
@[simp] theorem finish_hfc : (finish pre s).line.hfc = s.line.hfc := hfc_of_rest (finish_rest pre s)
@[simp] theorem finish_awaitsGap : (finish pre s).line.awaitsGap = s.line.awaitsGap := awaitsGap_of_rest (finish_rest pre s)
@[simp] theorem finish_record : (finish pre s).line.record = s.line.record := faultRecord_of_rest (finish_rest pre s)
@[simp] theorem finish_claimSlot : (finish pre s).line.claim = s.line.claim := claimSlot_of_rest (finish_rest pre s)
@[simp] theorem finish_mapSlot : (finish pre s).line.map = s.line.map := mapSlot_of_rest (finish_rest pre s)
@[simp] theorem finish_idleGaps : (finish pre s).line.idleGaps = s.line.idleGaps := idleGaps_of_rest (finish_rest pre s)
@[simp] theorem finish_cause : (finish pre s).line.cause = s.line.cause := cause_of_rest (finish_rest pre s)
@[simp] theorem finish_answers : (finish pre s).pub.answers = s.pub.answers := answers_of_rest (finish_rest pre s)
@[simp] theorem finish_pubTimer : (finish pre s).pub.timer = s.pub.timer := pubTimer_of_rest (finish_rest pre s)
@[simp] theorem finish_late : (finish pre s).pub.late = s.pub.late := late_of_rest (finish_rest pre s)
@[simp] theorem finish_rowMarks : (finish pre s).pub.rowMarks = s.pub.rowMarks := rowMarks_of_rest (finish_rest pre s)
@[simp] theorem finish_head : (finish pre s).permit.head = s.permit.head := head_of_rest (finish_rest pre s)
@[simp] theorem finish_fresh : (finish pre s).permit.fresh = s.permit.fresh := fresh_of_rest (finish_rest pre s)
@[simp] theorem finish_dwell : (finish pre s).permit.dwell = s.permit.dwell := dwell_of_rest (finish_rest pre s)
@[simp] theorem finish_isRole (r : Role) : (finish pre s).isRole r = s.isRole r := isRole_of_rest (finish_rest pre s) r
@[simp] theorem finish_live : (finish pre s).live = s.live := live_of_rest (finish_rest pre s)

end

end Sys2Proof.Machine
end

