-- ==== Sys2Proof/Laws/Notices.lean ====
section
/-! SUPPORT. The operations of the notice queue keep it in order, the judging holds every condition as it stands, the refill
enters what waits, and the display list recomputed stands as R101 and R102 give it. -/

namespace Sys2Proof.Machine

theorem NoticeCode.code_inj : ∀ {a b : NoticeCode}, a.code = b.code → a = b := by
  intro a b; cases a <;> cases b <;> first | exact fun _ => rfl | (intro h; exact absurd h (by decide))

theorem NoticeCode.index_inj : ∀ {a b : NoticeCode}, a.index = b.index → a = b := by
  intro a b; cases a <;> cases b <;> first | exact fun _ => rfl | (intro h; exact absurd h (by decide))

theorem mem_eight (i : Fin 8) : i ∈ eight := by fin_cases i <;> decide

/-! ## The queue -/

namespace NoticeQueue
variable {q : NoticeQueue}

theorem slotOf_none {c : NoticeCode} (h : q.slotOf c = none) (i : Fin 8) (x : Notice) (hx : q.slots.get i = some x) :
    x.code ≠ c := by
  intro e
  have := List.find?_eq_none.1 h i (mem_eight i)
  simp [hx, e] at this

theorem slotOf_some {c : NoticeCode} {i : Fin 8} (h : q.slotOf c = some i) :
    ∃ x, q.slots.get i = some x ∧ x.code = c := by
  have := List.find?_some h
  simpa using this

/-- A slot emptied. -/
theorem Sound.vacate (h : q.Sound) (i : Fin 8) (m : Tbl (Option Nat) 8) :
    { q with slots := q.slots.set i none, marks := m, order := q.order.filter (· != i) }.Sound := by
  obtain ⟨h1, h2, h3, h4⟩ := h
  refine ⟨h1.filter _, fun k => ?_, fun k j x y hx hy => ?_, fun k x hx => ?_⟩
  · simp only [List.mem_filter, Tbl.get_set, bne_iff_ne]
    by_cases e : k = i <;> simp [e, h2]
  · simp only [Tbl.get_set] at hx hy
    split at hx
    · cases hx
    · split at hy
      · cases hy
      · exact h3 k j x y hx hy
  · simp only [Tbl.get_set] at hx
    split at hx
    · cases hx
    · exact h4 k x hx

/-- A notice replaced by one of the same code. -/
theorem Sound.restate (h : q.Sound) {i : Fin 8} {x : Notice} (hx : q.slots.get i = some x) {y : Notice}
    (hy : y.code = x.code) (m : Tbl (Option Nat) 8) : { q with slots := q.slots.set i (some y), marks := m }.Sound := by
  obtain ⟨h1, h2, h3, h4⟩ := h
  have g : ∀ k z, (q.slots.set i (some y)).get k = some z → ∃ z', q.slots.get k = some z' ∧ z'.code = z.code := by
    intro k z e
    rw [Tbl.get_set] at e
    split at e
    · rename_i ek; subst ek; cases e; exact ⟨x, hx, hy.symm⟩
    · exact ⟨z, e, rfl⟩
  refine ⟨h1, fun k => ?_, fun k j a b ha hb e => ?_, fun k a ha => ?_⟩
  · rw [h2]; simp only [Tbl.get_set]; split
    · rename_i ek; subst ek; simp [hx]
    · rfl
  · obtain ⟨a', pa, ea⟩ := g k a ha
    obtain ⟨b', pb, eb⟩ := g j b hb
    exact h3 k j a' b' pa pb (ea.trans (e.trans eb.symm))
  · obtain ⟨a', pa, ea⟩ := g k a ha
    rw [← ea]; exact h4 k a' pa

/-- A code entered in a slot, where it stands in no other. -/
theorem Sound.enter (h : q.Sound) {i : Fin 8} {y : Notice} (ho : ∀ j x, q.slots.get j = some x → x.code = y.code → j = i)
    (m : Tbl (Option Nat) 8) (c : Byte) :
    { q with slots := q.slots.set i (some y), marks := m, counter := c, order := q.order.filter (· != i) ++ [i]
             waiting := q.waiting.set y.code.index false }.Sound := by
  obtain ⟨h1, h2, h3, h4⟩ := h
  refine ⟨?_, fun k => ?_, fun k j a b ha hb e => ?_, fun k a ha => ?_⟩
  · rw [List.nodup_append]
    exact ⟨h1.filter _, by simp, by simp⟩
  · simp only [List.mem_append, List.mem_filter, List.mem_singleton, Tbl.get_set, bne_iff_ne]
    by_cases e : k = i <;> simp [e, h2]
  · simp only [Tbl.get_set] at ha hb
    split at ha <;> split at hb
    · rename_i p q; exact p.trans q.symm
    · rename_i p _; cases ha; rw [p]; exact (ho j b hb e.symm).symm
    · rename_i _ p; cases hb; rw [p]; exact ho k a ha e
    · exact h3 k j a b ha hb e
  · simp only [Tbl.get_set] at ha ⊢
    split
    · rfl
    · rename_i ne
      split at ha
      · cases ha; exact absurd rfl ne
      · exact h4 k a ha

/-- A code that stands in no slot joins the waiting set, or a code leaves it. -/
theorem Sound.wait (h : q.Sound) (c : NoticeCode) (b : Bool) (o : Bool)
    (hc : b = true → ∀ j x, q.slots.get j = some x → x.code ≠ c) :
    { q with waiting := q.waiting.set c.index b, overflow := o }.Sound := by
  obtain ⟨h1, h2, h3, h4⟩ := h
  refine ⟨h1, h2, h3, fun k x hx => ?_⟩
  simp only [Tbl.get_set]
  split
  · rename_i e
    cases b
    · rfl
    · exact absurd (NoticeCode.index_inj e) (hc rfl k x hx)
  · exact h4 k x hx

end NoticeQueue

/-! ## What the operations do -/

theorem enterSlot_notices (i : Fin 8) (c : NoticeCode) (s : State) : (enterSlot i c s).notices = { s.notices with
      slots := s.notices.slots.set i (some ⟨c, s.notices.counter + 1, .active, detailOf c s⟩)
      marks := s.notices.marks.set i (some s.pub.builds), counter := s.notices.counter + 1
      order := s.notices.order.filter (· != i) ++ [i], waiting := s.notices.waiting.set c.index false } := by
  unfold enterSlot queueTrip; dsimp only; repeat' split
  all_goals rfl

theorem enterSlot_sound {s : State} {i : Fin 8} {c : NoticeCode} (h : s.notices.Sound)
    (ho : ∀ j x, s.notices.slots.get j = some x → x.code = c → j = i) : (enterSlot i c s).notices.Sound := by
  rw [enterSlot_notices]
  exact NoticeQueue.Sound.enter (y := { code := c, raise := _, state := .active, detail := _ }) h ho _ _

/-- A NOTE displaced for a code, which then stands in its slot (R95 case 2). -/
theorem displace_sound {s : State} {i : Fin 8} {c : NoticeCode} (h : s.notices.Sound) (hc : s.notices.slotOf c = none) :
    (enterSlot i c (displaceNote i s)).notices.Sound := by
  obtain ⟨n, hn⟩ | hn : (∃ n, s.notices.slots.get i = some n) ∨ s.notices.slots.get i = none := by
    cases s.notices.slots.get i <;> simp
  · have hd : displaceNote i s = s.withNotices fun q =>
        { q with waiting := if q.holds.get n.code.index then q.waiting.set n.code.index true else q.waiting,
                 overflow := true } := by
      unfold displaceNote; rw [hn]
    have hv := (h.vacate i s.notices.marks)
    have gone : ∀ j x, (s.notices.slots.set i none).get j = some x → x.code ≠ n.code := by
      intro j x hx e
      rw [Tbl.get_set] at hx
      split at hx
      · cases hx
      · rename_i ne; exact ne (h.2.2.1 j i x n hx hn e)
    have hw : { s.notices with
        slots := s.notices.slots.set i none, order := s.notices.order.filter (· != i), overflow := true
        waiting := if s.notices.holds.get n.code.index then s.notices.waiting.set n.code.index true
          else s.notices.waiting }.Sound := by
      split
      · exact hv.wait n.code true true fun _ => gone
      · exact hv
    have e : (enterSlot i c (displaceNote i s)).notices = { s.notices with
        slots := (s.notices.slots.set i none).set i (some ⟨c, s.notices.counter + 1, .active, detailOf c (displaceNote i s)⟩)
        marks := s.notices.marks.set i (some s.pub.builds), counter := s.notices.counter + 1, overflow := true
        order := (s.notices.order.filter (· != i)).filter (· != i) ++ [i]
        waiting := (if s.notices.holds.get n.code.index then s.notices.waiting.set n.code.index true
          else s.notices.waiting).set c.index false } := by
      have e2 : (s.notices.slots.set i none).set i = s.notices.slots.set i := by
        funext v; exact Tbl.ext' (by simp [Tbl.set])
      rw [e2, List.filter_filter, enterSlot_notices, hd]
      simp only [Bool.and_self]
      rfl
    rw [e]
    refine NoticeQueue.Sound.enter (y := { code := c, raise := _, state := .active, detail := _ }) hw ?_ _ _
    intro j x hx ex
    rw [Tbl.get_set] at hx
    split at hx
    · cases hx
    · exact absurd ex (NoticeQueue.slotOf_none hc j x hx)
  · have hd : displaceNote i s = s := by unfold displaceNote; rw [hn]
    rw [hd]
    exact enterSlot_sound h fun j x hx e => absurd e (NoticeQueue.slotOf_none hc j x hx)

theorem raiseNotice_sound {s : State} (c : NoticeCode) (h : s.notices.Sound) : (raiseNotice c s).notices.Sound := by
  have absent (hc : s.notices.slotOf c = none) (i : Fin 8) :
      ∀ j x, s.notices.slots.get j = some x → x.code = c → j = i :=
    fun j x hx e => absurd e (NoticeQueue.slotOf_none hc j x hx)
  have refuse (hc : s.notices.slotOf c = none) : (refuseRaise c s).notices.Sound :=
    h.wait c true true fun _ => NoticeQueue.slotOf_none hc
  unfold raiseNotice
  split
  · rename_i i hi
    obtain ⟨x, hx, ex⟩ := NoticeQueue.slotOf_some hi
    exact enterSlot_sound h fun j y hy ey => h.2.2.1 j i y x hy hx (ey.trans ex.symm)
  · rename_i hc _; exact enterSlot_sound h (absent hc _)
  · rename_i hc _ _
    split
    · exact refuse hc
    · exact displace_sound h hc
  · rename_i hc _ _; exact refuse hc

theorem nextWaiting_waits {q : NoticeQueue} {c : NoticeCode} (h : nextWaiting q = some c) :
    q.waiting.get c.index = true := by
  have mem : ∀ d, d ∈ NoticeCode.all.filter (fun c => q.waiting.get c.index) → q.waiting.get d.index = true :=
    fun d hd => by simpa using (List.mem_filter.1 hd).2
  unfold nextWaiting at h
  dsimp only at h
  split at h
  · rename_i e; cases h; exact mem _ (List.mem_of_find?_eq_some e)
  · rename_i e; cases h; exact mem _ (List.mem_of_find?_eq_some e)
  · exact mem _ (List.mem_of_mem_head? h)

theorem fillSlot_sound {s : State} (i : Fin 8) (h : s.notices.Sound) : (fillSlot i s).notices.Sound := by
  unfold fillSlot
  split
  · rename_i c hc
    refine enterSlot_sound h fun j x hx e => ?_
    have := h.2.2.2 j x hx
    rw [e, nextWaiting_waits hc] at this
    cases this
  · exact h

/-- A fold of steps that keep the queue in order keeps it. -/
theorem sound_foldl {α : Type} (f : State → α → State) (hf : ∀ s a, s.notices.Sound → (f s a).notices.Sound) (l : List α)
    {s : State} (h : s.notices.Sound) : (l.foldl f s).notices.Sound := by
  induction l generalizing s with
  | nil => exact h
  | cons a l ih => exact ih (hf s a h)

theorem refill_sound {s : State} (h : s.notices.Sound) : (refill s).notices.Sound := by
  unfold refill
  refine sound_foldl _ (fun s i h => ?_) _ h
  split
  · exact fillSlot_sound i h
  · exact h

theorem setNoticeState_sound {s : State} {i : Fin 8} {n : Notice} (st : NoticeState) (h : s.notices.Sound)
    (hn : s.notices.slots.get i = some n) : (setNoticeState i n st s).notices.Sound :=
  h.restate hn (y := { n with state := st }) rfl _

theorem vacateSlot_sound {s : State} (i : Fin 8) (h : s.notices.Sound) : (vacateSlot i s).notices.Sound := h.vacate i _

theorem clearNotice_sound {s : State} (c : NoticeCode) (h : s.notices.Sound) : (clearNotice c s).notices.Sound := by
  unfold clearNotice
  split
  · split
    · rename_i n hn
      split
      · exact vacateSlot_sound _ h
      · split
        · exact setNoticeState_sound _ h hn
        · exact h
    · exact h
  · exact h.wait c false _ (fun e => by cases e)

theorem judgeNotices_sound {s : State} (h : s.notices.Sound) : (judgeNotices s).notices.Sound := by
  unfold judgeNotices
  have hc := sound_foldl judgeClear (fun s c h => by
    unfold judgeClear; repeat' split
    all_goals first | exact clearNotice_sound c h | exact h) NoticeCode.all h
  have hr := sound_foldl judgeRaise (fun s c h => by
    unfold judgeRaise; split
    · exact raiseNotice_sound c h
    · exact h) NoticeCode.all (refill_sound hc)
  generalize NoticeCode.all.foldl judgeRaise _ = v at hr ⊢
  unfold updateSilentDetail; repeat' split
  all_goals first
    | exact hr
    | (rename_i n hn _; exact hr.restate hn (y := { n with detail := v.silentSet }) rfl _)

theorem acknowledge_sound {s : State} {i : Fin 8} {n : Notice} (h : s.notices.Sound)
    (hn : s.notices.slots.get i = some n) : (acknowledge i n s).notices.Sound := by
  unfold acknowledge
  split
  · dsimp only; split
    · exact setNoticeState_sound _ h hn
    · exact setNoticeState_sound _ h hn
  · exact vacateSlot_sound i h
  · exact h

theorem ackNotice_sound {s : State} (slot raise : Byte) (h : s.notices.Sound) :
    (ackNotice slot raise s).2.notices.Sound := by
  have h' : (s.withNotices fun q => { q with overflow := false }).notices.Sound := h
  unfold ackNotice
  dsimp only
  split
  · split
    · rename_i hn
      split
      · exact acknowledge_sound h' hn
      · exact h'
    · exact h'
  · exact h'

/-! ## The conditions as last judged (R93) -/

theorem NoticeCode.mem_all (c : NoticeCode) : c ∈ NoticeCode.all := by cases c <;> decide

/-- A condition is read from parts that no notice operation changes. -/
theorem condition_of_noticesOnly {s t : State} (h : NoticesOnly s t) (c : NoticeCode) : t.condition c = s.condition c := by
  rw [h]; rfl

theorem enterSlot_holds (i : Fin 8) (c : NoticeCode) (s : State) : (enterSlot i c s).notices.holds = s.notices.holds := by
  rw [enterSlot_notices]

theorem raiseNotice_holds (c : NoticeCode) (s : State) : (raiseNotice c s).notices.holds = s.notices.holds := by
  unfold raiseNotice; repeat' split
  · exact enterSlot_holds ..
  · exact enterSlot_holds ..
  · rfl
  · rw [enterSlot_holds]; unfold displaceNote; split <;> rfl
  · rfl

theorem clearNotice_holds (c : NoticeCode) (s : State) : (clearNotice c s).notices.holds = s.notices.holds := by
  unfold clearNotice; repeat' split
  all_goals rfl

theorem refill_holds (s : State) : (refill s).notices.holds = s.notices.holds := by
  unfold refill
  generalize eight = l
  induction l generalizing s with
  | nil => rfl
  | cons i l ih =>
    rw [List.foldl_cons, ih]; split
    · unfold fillSlot; split
      · exact enterSlot_holds ..
      · rfl
    · rfl

theorem setHolds_get (c d : NoticeCode) (b : Bool) (s : State) :
    (setHolds c b s).notices.holds.get d.index = if d = c then b else s.notices.holds.get d.index := by
  simp only [setHolds, State.withNotices, Tbl.get_set]
  by_cases h : d = c
  · simp [h]
  · rw [if_neg h, if_neg fun e => h (NoticeCode.index_inj e)]

theorem judgeClear_only (s : State) (c : NoticeCode) : NoticesOnly s (judgeClear s c) := by
  unfold judgeClear; split
  · split
    · exact noticesOnly_clearNotice c s
    · exact .refl _
  · split
    · exact (noticesOnly_clearNotice c s).trans rfl
    · exact .refl _

theorem judgeRaise_only (s : State) (c : NoticeCode) : NoticesOnly s (judgeRaise s c) := by
  unfold judgeRaise; split
  · exact (noticesOnly_raiseNotice c s).trans rfl
  · exact .refl _

theorem judgeClear_holds (s : State) (c d : NoticeCode) : (judgeClear s c).notices.holds.get d.index =
    if d = c ∧ c ≠ .profileBreach then s.notices.holds.get d.index && s.condition d else s.notices.holds.get d.index := by
  unfold judgeClear
  by_cases hp : c = .profileBreach
  · simp only [hp, beq_self_eq_true, if_true, ne_eq, not_true, and_false, if_false]; split
    · rw [clearNotice_holds]
    · rfl
  · have : (c == NoticeCode.profileBreach) = false := by simpa using hp
    simp only [this, Bool.false_eq_true, if_false, ne_eq, hp, not_false_eq_true, and_true]
    by_cases e : d = c
    · subst e; simp only [if_true]; split
      · rename_i h; rw [setHolds_get, if_pos rfl]; simp_all
      · rename_i h; revert h; cases s.notices.holds.get d.index <;> cases s.condition d <;> simp
    · simp only [e, if_false]; split
      · rw [setHolds_get, if_neg e, clearNotice_holds]
      · rfl

theorem judgeRaise_holds (s : State) (c d : NoticeCode) : (judgeRaise s c).notices.holds.get d.index =
    if d = c ∧ c ≠ .profileBreach then s.notices.holds.get d.index || s.condition d else s.notices.holds.get d.index := by
  unfold judgeRaise
  by_cases e : d = c
  · subst e; simp only [true_and]
    by_cases hp : d = .profileBreach
    · subst hp; simp
    · simp only [bne_iff_ne, ne_eq, hp, not_false_eq_true, Bool.and_eq_true, Bool.not_eq_true', if_true, true_and]
      split
      · rename_i h; rw [setHolds_get, if_pos rfl]; simp [h.2]
      · rename_i h; revert h; cases s.notices.holds.get d.index <;> cases s.condition d <;> simp
  · simp only [e, false_and, if_false]; split
    · rw [setHolds_get, if_neg e, raiseNotice_holds]
    · rfl

theorem judgeClears_holds (l : List NoticeCode) (s : State) (d : NoticeCode) (hd : d ≠ .profileBreach) :
    (l.foldl judgeClear s).notices.holds.get d.index =
      if d ∈ l then s.notices.holds.get d.index && s.condition d else s.notices.holds.get d.index := by
  induction l generalizing s with
  | nil => simp
  | cons c l ih =>
    rw [List.foldl_cons, ih, judgeClear_holds, condition_of_noticesOnly (judgeClear_only s c)]
    by_cases e : d = c
    · subst e; simp [hd]
    · simp [e]

theorem judgeRaises_holds (l : List NoticeCode) (s : State) (d : NoticeCode) (hd : d ≠ .profileBreach) :
    (l.foldl judgeRaise s).notices.holds.get d.index =
      if d ∈ l then s.notices.holds.get d.index || s.condition d else s.notices.holds.get d.index := by
  induction l generalizing s with
  | nil => simp
  | cons c l ih =>
    rw [List.foldl_cons, ih, judgeRaise_holds, condition_of_noticesOnly (judgeRaise_only s c)]
    by_cases e : d = c
    · subst e; simp [hd]
    · simp [e]

/-- After the judging every condition is held as it stands, whatever was held before. -/
theorem judgeNotices_holds (s : State) {d : NoticeCode} (hd : d ≠ .profileBreach) :
    (judgeNotices s).notices.holds.get d.index = s.condition d := by
  have hu : ∀ v : State, (updateSilentDetail v).notices.holds = v.notices.holds := by
    intro v; unfold updateSilentDetail; repeat' split
    all_goals rfl
  unfold judgeNotices
  rw [hu, judgeRaises_holds _ _ _ hd, if_pos d.mem_all, refill_holds, judgeClears_holds _ _ _ hd, if_pos d.mem_all,
    condition_of_noticesOnly ((noticesOnly_foldl _ judgeClear_only _ _).trans (noticesOnly_refill _))]
  cases s.notices.holds.get d.index <;> cases s.condition d <;> rfl

/-- A mask of flags is not 0 where one of them is set. -/
theorem maskOf_ne_zero (t : Tbl Bool 8) : maskOf t ≠ 0 ↔ ∃ n, t.get n = true := by
  have e : (∃ n, t.get n = true) ↔ (t.get 0 || t.get 1 || t.get 2 || t.get 3 || t.get 4 || t.get 5 || t.get 6 || t.get 7) = true := by
    constructor
    · rintro ⟨n, h⟩; fin_cases n <;> simp_all
    · simp only [Bool.or_eq_true]; rintro (((((((h | h) | h) | h) | h) | h) | h) | h) <;> exact ⟨_, h⟩
  rw [e]; unfold maskOf
  generalize t.get 0 = a, t.get 1 = b, t.get 2 = c, t.get 3 = d, t.get 4 = e, t.get 5 = f, t.get 6 = g, t.get 7 = h
  revert a b c d e f g h; decide

/-- The condition computed is that of the catalogue. -/
theorem condition_iff (s : State) (c : NoticeCode) : s.condition c = true ↔ s.CatalogueSays c := by
  cases c <;> simp [State.condition, State.CatalogueSays, and_assoc]
  case faceFall =>
    intro _
    unfold State.faceFalling State.atFall
    cases s.conv.records <;> simp
  case stationSilent =>
    intro _
    unfold State.silentSet
    refine (maskOf_ne_zero _).trans (exists_congr fun n => ?_)
    simp only [Tbl.get_map, State.entryState, State.entry]
    cases s.claim.roster.get n <;> simp
  case channelFault =>
    constructor
    · rintro ⟨x, hx, e⟩
      obtain ⟨i, hi, rfl⟩ := List.getElem_of_mem hx
      exact ⟨⟨i, by rw [s.sensor.channels.size] at hi; exact hi⟩, e⟩
    · rintro ⟨i, e⟩
      exact ⟨_, List.getElem_mem _, e⟩

/-! ## The refill of empty slots (R96) -/

/-- The refill over a list of slots with no code waiting, or none of them empty. -/
theorem refills_none (l : List (Fin 8)) {s : State} (h : nextWaiting s.notices = none ∨ ∀ i ∈ l, (s.notices.slots.get i).isNone = false) :
    l.foldl (fun s i => if (s.notices.slots.get i).isNone then fillSlot i s else s) s = s := by
  induction l with
  | nil => rfl
  | cons i l ih =>
    have e : (if (s.notices.slots.get i).isNone then fillSlot i s else s) = s := by
      rcases h with h | h
      · unfold fillSlot; rw [h]; simp
      · simp [h i (List.mem_cons_self ..)]
    rw [List.foldl_cons, e]
    exact ih (h.imp_right fun h j hj => h j (List.mem_cons_of_mem _ hj))

theorem enterSlot_isNone (i j : Fin 8) (d : NoticeCode) (s : State) :
    ((enterSlot i d s).notices.slots.get j).isNone = if j = i then false else (s.notices.slots.get j).isNone := by
  rw [enterSlot_notices]; simp only [Tbl.get_set]; split <;> simp

/-- The refill over a list of slots whose first empty one takes the code that waits first. -/
theorem refills_enter (l : List (Fin 8)) {s : State} {i : Fin 8} {d : NoticeCode}
    (hi : l.find? (fun i => (s.notices.slots.get i).isNone) = some i) (hd : nextWaiting s.notices = some d) :
    l.foldl (fun s i => if (s.notices.slots.get i).isNone then fillSlot i s else s) s =
      l.foldl (fun s i => if (s.notices.slots.get i).isNone then fillSlot i s else s) (enterSlot i d s) := by
  induction l with
  | nil => cases hi
  | cons j l ih =>
    rw [List.find?_cons] at hi
    rw [List.foldl_cons, List.foldl_cons]
    split at hi
    · rename_i h
      cases hi
      rw [if_pos h, enterSlot_isNone, if_pos rfl]
      simp only [Bool.false_eq_true, if_false]
      unfold fillSlot; rw [hd]
    · rename_i h
      have hij : j ≠ i := by
        rintro rfl
        have := List.find?_some hi
        simp [this] at h
      rw [if_neg (by simp [h]), enterSlot_isNone, if_neg hij, if_neg (by simp [h])]
      exact ih hi

/-- Everything the refill does: the lowest empty slot takes the waiting code that comes first, and so on while there is one
of each. -/
theorem refill_eq (s : State) : match freeSlot s.notices, nextWaiting s.notices with
    | some i, some d => refill s = refill (enterSlot i d s)
    | _, _ => refill s = s := by
  split
  · rename_i i d hi hd; exact refills_enter eight hi hd
  · rename_i h
    refine refills_none eight ?_
    cases hd : nextWaiting s.notices with
    | none => exact .inl rfl
    | some d =>
      cases hi : freeSlot s.notices with
      | none =>
        refine .inr fun i _ => ?_
        have := List.find?_eq_none.1 hi i (mem_eight i)
        cases hq : s.notices.slots.get i <;> simp_all
      | some i => exact (h i d hi hd).elim

/-! ## The display list -/

theorem Cand.rank_lt (c : Cand) : c.rank < 8 := by
  have := c.entry.cls.isLt
  unfold Cand.rank; split <;> omega

/-- One group of R102 is the candidates of one rank. -/
theorem inGroup_eq_rank (cls : BitVec 2) (a : Bool) (c : Cand) :
    inGroup cls a c = (c.rank == 2 * cls.toNat + if a then 1 else 0) := by
  have hc : c.entry.cls = cls ↔ c.entry.cls.toNat = cls.toNat := BitVec.toNat_inj.symm
  rw [Bool.eq_iff_iff]
  by_cases h : c.entry.state = NoticeState.acked.code <;> cases a <;> simp [inGroup, Cand.rank, h, hc] <;> omega

theorem displayOrder_ranks (cands : List Cand) :
    displayOrder cands = (List.range 8).flatMap fun r => cands.filter (·.rank == r) := by
  have e : ∀ (cls : BitVec 2) (a : Bool), (inGroup cls a) = fun c => c.rank == 2 * cls.toNat + if a then 1 else 0 :=
    fun cls a => funext (inGroup_eq_rank cls a)
  simp only [displayOrder, e, List.range, List.range.loop, List.flatMap_cons, List.flatMap_nil, List.append_nil,
    List.append_assoc]
  rfl

/-- The candidates of one rank among those of the ranks below `n`. -/
theorem filter_ranks (cands : List Cand) (n r : Nat) :
    ((List.range n).flatMap fun k => cands.filter (·.rank == k)).filter (·.rank == r) =
      if r < n then cands.filter (·.rank == r) else [] := by
  induction n with
  | zero => rfl
  | succ n ih =>
    rw [List.range_succ, List.flatMap_append, List.filter_append, ih]
    simp only [List.flatMap_cons, List.flatMap_nil, List.append_nil, List.filter_filter]
    by_cases h : r = n
    · subst h; simp
    · have e : (fun c : Cand => c.rank == r && c.rank == n) = fun _ => false := by
        funext c
        rw [Bool.and_eq_false_iff]
        by_cases g : c.rank = r
        · right; simp; omega
        · left; simpa using g
      rw [e]
      by_cases l : r < n
      · simp [l, Nat.lt_succ_of_lt l]
      · have : ¬ r < n + 1 := by omega
        simp [l, this]

theorem ranks_pairwise (cands : List Cand) (n : Nat) :
    ((List.range n).flatMap fun k => cands.filter (·.rank == k)).Pairwise (fun a b => a.rank ≤ b.rank) := by
  induction n with
  | zero => exact .nil
  | succ n ih =>
    rw [List.range_succ, List.flatMap_append, List.pairwise_append]
    refine ⟨ih, ?_, fun a ha b hb => ?_⟩
    · simp only [List.flatMap_cons, List.flatMap_nil, List.append_nil]
      refine List.pairwise_iff_forall_sublist.2 fun {a b} h => ?_
      have ha := h.subset (List.mem_cons_self ..)
      have hb := h.subset (List.mem_cons_of_mem _ (List.mem_cons_self ..))
      simp only [List.mem_filter, beq_iff_eq] at ha hb
      omega
    · simp only [List.mem_flatMap, List.mem_range, List.mem_filter, beq_iff_eq, List.flatMap_cons, List.flatMap_nil,
        List.append_nil] at ha hb
      obtain ⟨k, hk, -, ea⟩ := ha
      omega

/-- The list recomputed is that of R102. -/
theorem displayList_lists (cands : List Cand) : ListsCands (displayList cands) cands := by
  have hf : ∀ r, (displayOrder cands).filter (·.rank == r) = cands.filter (·.rank == r) := by
    intro r
    rw [displayOrder_ranks, filter_ranks]
    split
    · rfl
    · rename_i h
      refine (List.filter_eq_nil_iff.2 fun c _ => ?_).symm
      have := c.rank_lt
      simp; omega
  refine ⟨displayOrder cands, ?_, ?_, hf, rfl⟩
  · rw [List.perm_iff_count]
    intro c
    have e := congrArg (List.count c) (hf c.rank)
    rwa [List.count_filter (by simp), List.count_filter (by simp)] at e
  · rw [displayOrder_ranks]; exact ranks_pairwise _ _

/-! ## Arrivals -/

theorem Cand.same_iff {a b : Cand} :
    a.same b = true ↔ a.owner = b.owner ∧ a.entry.slot = b.entry.slot ∧ a.entry.code = b.entry.code := by
  simp [Cand.same, and_assoc]

/-- In a list without two of one owner and code, the one that is the same as a member is that member. -/
theorem find_same {now : List Cand} (h : DistinctCands now) {c d : Cand} (hd : d ∈ now) (e : d.same c = true) :
    now.find? (·.same c) = some d := by
  obtain ⟨x, hx⟩ : ∃ x, now.find? (·.same c) = some x :=
    Option.isSome_iff_exists.1 (List.find?_isSome.2 ⟨d, hd, e⟩)
  have hs := List.find?_some hx
  rw [Cand.same_iff] at hs e
  rw [hx, List.inj_on_of_nodup_map h (List.mem_of_find?_eq_some hx) hd
    (by rw [hs.1, hs.2.2, e.1, e.2.2])]

/-- The candidates by arrival are the candidates now, each once. -/
theorem arrivals_perm {old now : List Cand} (ho : DistinctCands old) (hn : DistinctCands now) :
    (arrivals old now).Perm now := by
  have kept : ∀ c d, d ∈ now.find? (·.same c) → d.same c = true := fun c d e => List.find?_some (p := fun d : Cand => d.same c) e
  rw [List.perm_ext_iff_of_nodup]
  · intro d
    simp only [arrivals, List.mem_append, List.mem_filterMap, List.mem_filter, Bool.not_eq_true', List.any_eq_false]
    constructor
    · rintro (⟨c, -, e⟩ | ⟨h, -⟩)
      · exact List.mem_of_find?_eq_some e
      · exact h
    · intro hd
      by_cases h : ∃ c ∈ old, c.same d = true
      · obtain ⟨c, hc, e⟩ := h
        refine .inl ⟨c, hc, find_same hn hd ?_⟩
        rw [Cand.same_iff] at e ⊢
        exact ⟨e.1.symm, e.2.1.symm, e.2.2.symm⟩
      · exact .inr ⟨hd, fun c hc e => h ⟨c, hc, e⟩⟩
  · rw [arrivals, List.nodup_append]
    refine ⟨?_, hn.of_map.filter _, ?_⟩
    · refine List.nodup_iff_pairwise_ne.2 (List.pairwise_filterMap.2 ?_)
      refine (List.pairwise_map.1 ho).imp fun ne d hd e he => ?_
      rintro rfl
      have a := Cand.same_iff.1 (kept _ _ hd)
      have b := Cand.same_iff.1 (kept _ _ he)
      exact ne (by rw [← a.1, ← a.2.2, b.1, b.2.2])
    · intro d hd e he
      rintro rfl
      simp only [List.mem_filterMap, List.mem_filter, Bool.not_eq_true', List.any_eq_false] at hd he
      obtain ⟨c, hc, g⟩ := hd
      have a := Cand.same_iff.1 (kept _ _ g)
      exact he.2 c hc (Cand.same_iff.2 ⟨a.1.symm, a.2.1.symm, a.2.2.symm⟩)
  · exact hn.of_map

/-! ## The candidates now -/

theorem slotEntries_distinct {s : State} (hq : s.notices.Sound) (hr : ∀ n, (s.replica n).Sound) (n : Station) :
    ((s.slotEntries n).map (·.code)).Nodup := by
  unfold State.slotEntries
  split
  · rw [List.nodup_iff_pairwise_ne, List.pairwise_map, List.pairwise_filterMap]
    refine hq.1.imp fun ne x hx y hy e => ne ?_
    simp only [Option.map_eq_some_iff] at hx hy
    obtain ⟨x', hx, rfl⟩ := hx
    obtain ⟨y', hy, rfl⟩ := hy
    exact hq.2.2.1 _ _ x' y' hx hy (NoticeCode.code_inj e)
  · split
    · rw [List.nodup_iff_pairwise_ne, List.pairwise_map, List.pairwise_filterMap, List.pairwise_iff_getElem]
      intro i j hi hj lt x hx y hy e
      have h := hr n ⟨i, by rw [(s.replica n).slots.size] at hi; exact hi⟩
        ⟨j, by rw [(s.replica n).slots.size] at hj; exact hj⟩ x y hx hy e
      simp at h; omega
    · exact .nil

theorem candidatesNow_distinct {s : State} (hq : s.notices.Sound) (hr : ∀ n, (s.replica n).Sound) :
    DistinctCands s.candidatesNow := by
  unfold DistinctCands State.candidatesNow
  rw [List.map_flatMap, List.nodup_flatMap]
  refine ⟨fun n _ => ?_, ?_⟩
  · rw [List.map_map]
    have e : (s.slotEntries n).map ((fun c : Cand => (c.owner, c.entry.code)) ∘ fun e => { owner := n, entry := e }) =
        ((s.slotEntries n).map (·.code)).map fun b => (n, b) := by simp [Function.comp_def]
    rw [e]
    exact (slotEntries_distinct hq hr n).map fun a b h => by simpa using h
  · have d : eight.Pairwise (· ≠ ·) := by decide
    refine d.imp fun ne x hx hy => ?_
    simp only [List.map_map, List.mem_map, Function.comp_apply] at hx hy
    obtain ⟨_, -, rfl⟩ := hx
    obtain ⟨_, -, e⟩ := hy
    exact ne (congrArg Prod.fst e).symm

/-- The candidates are read from parts that the display leaves. -/
theorem candidatesNow_displaySync (s : State) : (displaySync s).candidatesNow = s.candidatesNow := by
  unfold displaySync; split <;> rfl

/-- The display recomputed at a CAB (R103). -/
theorem displaySync_cands {s : State} (h : s.isRole .cab = true) (hq : s.notices.Sound) (hr : ∀ n, (s.replica n).Sound)
    (hc : DistinctCands s.cab.cands) :
    (displaySync s).cab.cands.Perm s.candidatesNow ∧ ListsCands (displaySync s).cab.list (displaySync s).cab.cands := by
  unfold displaySync
  rw [if_pos h]
  exact ⟨arrivals_perm hc (candidatesNow_distinct hq hr), displayList_lists _⟩

end Sys2Proof.Machine
end

