-- ==== Sys2Proof/Laws/Display.lean ====
section
/-! SUPPORT. The end of an event keeps queue, replicas and candidates in order and leaves the display of a live CAB as R101 to
R103 give it: `finish_displaySound`. -/

namespace Sys2Proof.Machine

/-! ## The units leave the queue and the candidates -/

section
variable (s : State)

theorem offerSync_notices : (offerSync s).notices = s.notices := by
  unfold offerSync; repeat' split
  all_goals rfl
theorem vigSync_notices : (vigSync s).notices = s.notices := by
  unfold vigSync vigDemand changeStanding; dsimp only; repeat' split
  all_goals rfl
theorem vigSync_cands : (vigSync s).cab.cands = s.cab.cands := by
  unfold vigSync vigDemand changeStanding; dsimp only; repeat' split
  all_goals rfl
theorem convSync_keeps : (convSync s).notices = s.notices ∧ (convSync s).cab = s.cab := by
  have n : ∀ s, (convNext s).notices = s.notices ∧ (convNext s).cab = s.cab := by
    intro s; unfold convNext; repeat' split
    all_goals exact ⟨rfl, rfl⟩
  have c : ∀ s, (convChain s).notices = s.notices ∧ (convChain s).cab = s.cab := by
    intro s; unfold convChain; split <;> exact ⟨rfl, rfl⟩
  have r : ∀ s, (convRunOff s).notices = s.notices ∧ (convRunOff s).cab = s.cab := by
    intro s; unfold convRunOff; split <;> exact ⟨rfl, rfl⟩
  have w : ∀ s, (convWatch s).notices = s.notices ∧ (convWatch s).cab = s.cab := fun _ => ⟨rfl, rfl⟩
  unfold convSync; split
  · rw [(w _).1, (r _).1, (c _).1, (n _).1, (w _).2, (r _).2, (c _).2, (n _).2]; exact ⟨rfl, rfl⟩
  · exact ⟨rfl, rfl⟩
theorem scrubSync_keeps : (scrubSync s).notices = s.notices ∧ (scrubSync s).cab = s.cab := by
  unfold scrubSync; split
  · unfold autoWash fanProofLoss
    have e : (fanFollows (scrubDemand s)).notices = s.notices ∧ (fanFollows (scrubDemand s)).cab = s.cab := by
      unfold fanFollows scrubDemand; dsimp only; repeat' split
      all_goals exact ⟨rfl, rfl⟩
    split
    all_goals exact e
  · exact ⟨rfl, rfl⟩

theorem unitSync_notices : (unitSync s).notices = s.notices := by
  unfold unitSync
  rw [offerSync_notices, vigSync_notices, (convSync_keeps _).1, (scrubSync_keeps _).1]
theorem unitSync_cands : (unitSync s).cab.cands = s.cab.cands := by
  unfold unitSync
  rw [offerSync_cab, vigSync_cands, (convSync_keeps _).2, (scrubSync_keeps _).2]

end

/-! ## The permit's evaluation keeps the queue in order -/

theorem permitSync_sound {s : State} (h : s.notices.Sound) : (permitSync s).notices.Sound := by
  unfold permitSync; split
  · have hj : (judgeBreach s).notices.Sound := by
      unfold judgeBreach; repeat' split
      all_goals first | exact h | exact clearNotice_sound _ h | exact raiseNotice_sound _ h
    have e : ∀ v : State, (movePermit v).notices = v.notices := by
      intro v; unfold movePermit; repeat' split
      all_goals rfl
    unfold evaluatePermit applyReasons
    show (movePermit _).notices.Sound
    rw [e]
    unfold releaseBreach noteBreachEntered
    generalize judgeBreach s = v at hj
    repeat' split
    all_goals exact hj
  · exact h

/-- Queue, replicas and candidates in order, whatever the station shows. -/
def State.ListsSound (s : State) : Prop := s.notices.Sound ∧ (∀ n, (s.replica n).Sound) ∧ DistinctCands s.cab.cands

theorem State.DisplaySound.lists {s : State} (h : s.DisplaySound) : s.ListsSound := ⟨h.1, h.2.1, h.2.2.1⟩

theorem DistinctCands.perm {a b : List Cand} (h : DistinctCands a) (p : b.Perm a) : DistinctCands b :=
  (p.map _).nodup_iff.2 h

/-- One recompute of everything that follows gives the display its order. -/
theorem sync_displaySound {s : State} (h : s.ListsSound) : (sync s).DisplaySound := by
  obtain ⟨hq, hr, hc⟩ := h
  unfold sync
  have e : (requestSync (permitSync (judgeNotices (unitSync s)))).rest = s.rest := by simp [unitSync]
  have vq : (requestSync (permitSync (judgeNotices (unitSync s)))).notices.Sound := by
    rw [requestSync_notices]
    exact permitSync_sound (judgeNotices_sound (by rw [unitSync_notices]; exact hq))
  have vc : DistinctCands (requestSync (permitSync (judgeNotices (unitSync s)))).cab.cands := by
    rw [requestSync_cab, permitSync_cab, judgeNotices_cab, unitSync_cands]; exact hc
  generalize requestSync (permitSync (judgeNotices (unitSync s))) = v at e vq vc
  have vr : ∀ n, (v.replica n).Sound := fun n => by
    have : v.replica n = s.replica n := by simp only [State.replica, replicas_of_rest e]
    rw [this]; exact hr n
  have dr : ∀ n, ((displaySync v).replica n).Sound := fun n => by
    have : (displaySync v).replica n = v.replica n := by simp only [State.replica, replicas_of_rest (rest_displaySync v)]
    rw [this]; exact vr n
  have role := isRole_of_rest (rest_displaySync v) .cab
  cases hv : v.isRole .cab with
  | true =>
    have d := displaySync_cands hv vq vr vc
    refine ⟨by rw [displaySync_notices]; exact vq, dr, (candidatesNow_distinct vq vr).perm d.1, fun _ _ => ?_⟩
    rw [candidatesNow_displaySync]; exact d
  | false =>
    have i : displaySync v = v := displaySync_other _ hv
    rw [i]
    exact ⟨vq, vr, vc, fun _ h => by rw [hv] at h; cases h⟩

/-- The display is read from the queue, the candidates and list, and the rest. -/
theorem State.DisplaySound.of_same {s t : State} (h : s.DisplaySound) (hr : t.rest = s.rest) (hn : t.notices = s.notices)
    (hc : t.cab = s.cab) : t.DisplaySound := by
  have rep : t.replica = s.replica := by funext n; simp only [State.replica, replicas_of_rest hr]
  have cnt : t.counted = s.counted := by
    funext n; simp only [State.counted, State.entryState, State.entry, claim_of_rest hr]
  have ent : t.slotEntries = s.slotEntries := by
    funext n; simp only [State.slotEntries, station_of_rest hr, hn, rep, cnt]
  refine ⟨by rw [hn]; exact h.1, fun n => by rw [rep]; exact h.2.1 n, by rw [hc]; exact h.2.2.1, fun hl hro => ?_⟩
  have := h.2.2.2 ((live_of_rest hr).symm.trans hl) ((isRole_of_rest hr .cab).symm.trans hro)
  simpa only [State.candidatesNow, ent, hc] using this

/-- The further attempt of R37 keeps the lists in order. -/
theorem retryBreach_lists {s : State} (h : s.ListsSound) : (retryBreach s).ListsSound := by
  unfold retryBreach; split
  · have n := noticesOnly_raiseNotice .profileBreach s
    have q := raiseNotice_sound .profileBreach h.1
    have l : (raiseNotice .profileBreach s).ListsSound := by
      refine ⟨q, fun k => ?_, ?_⟩
      · have e : (raiseNotice .profileBreach s).replica k = s.replica k := by
          unfold State.replica; rw [n]
        rw [e]; exact h.2.1 k
      · have e : (raiseNotice .profileBreach s).cab = s.cab := by rw [n]
        rw [e]; exact h.2.2
    unfold noteBreachEntered; split
    · exact l
    · exact l
  · exact h

/-- The end of an event at a live station leaves queue, replicas, candidates and display in order. -/
theorem finish_displaySound {pre s : State} (hl : s.live = true) (h : s.ListsSound) : (finish pre s).DisplaySound := by
  unfold finish; rw [if_pos hl]; unfold settle
  have d : (retrySync pre (sync s)).DisplaySound := by
    unfold retrySync; split
    · exact sync_displaySound (retryBreach_lists (sync_displaySound h).lists)
    · exact sync_displaySound h
  generalize retrySync pre (sync s) = v at d
  refine d.of_same (by simp) ?_ ?_
  · rw [statusSync_notices, State.noteRestarted_notices, beginFrame_notices, earlySync_notices, fillOrderSlot_notices]
  · rw [statusSync_cab, State.noteRestarted_cab, beginFrame_cab, earlySync_cab, fillOrderSlot_cab]

end Sys2Proof.Machine
end

