-- ==== Sys2Proof/Laws/Orders.lean ====
section
/-! SUPPORT. Acceptance of a frame and the steps of an order: what each leaves, and where an order reaches its owner. -/

namespace Sys2Proof.Machine

/-! ## The wait for a gap (R133, R136) -/

theorem live_of_hears {s : State} (h : s.hears = true) : s.live = true := by
  simp only [State.hears, Bool.and_eq_true] at h; exact h.1

theorem awaitsGap_of_hears {s : State} (h : s.hears = true) : s.line.awaitsGap = false := by
  simp only [State.hears, Bool.and_eq_true, Bool.not_eq_true'] at h; exact h.2

/-- A frame that is heard does what it does. -/
theorem ifHeard_hears {f : State → State} {s : State} (h : s.hears = true) : ifHeard f s = f s := by
  unfold ifHeard; rw [awaitsGap_of_hears h]; rfl

/-- A frame before the awaited gap does nothing. -/
theorem ifHeard_awaits {f : State → State} {s : State} (h : s.line.awaitsGap = true) : ifHeard f s = s := by
  unfold ifHeard; rw [h]; rfl

/-- What the acceptance of a frame may change: line state, HFC and the line as last seen; roster and watch. -/
theorem acceptFrame_eq (n : Station) (s : State) :
    acceptFrame n s = { s with
      line := { s.line with
        state := (acceptFrame n s).line.state, hfc := s.line.hfc - 1, sending := none, bus := .busy, awaitsGap := true }
      claim := { s.claim with roster := (acceptFrame n s).claim.roster, watch := (acceptFrame n s).claim.watch } } := by
  unfold acceptFrame frameEnds lineBusy reloadWatch hearEntry lowerHfc followCounts
  dsimp only; repeat' split
  all_goals rfl

section
variable (n : Station) (s : State)

@[simp] theorem acceptFrame_pending : (acceptFrame n s).pending = s.pending := by rw [acceptFrame_eq]
@[simp] theorem acceptFrame_station : (acceptFrame n s).station = s.station := by rw [acceptFrame_eq]
@[simp] theorem acceptFrame_serial : (acceptFrame n s).serial = s.serial := by rw [acceptFrame_eq]
@[simp] theorem acceptFrame_image : (acceptFrame n s).image = s.image := by rw [acceptFrame_eq]
@[simp] theorem acceptFrame_inputs : (acceptFrame n s).inputs = s.inputs := by rw [acceptFrame_eq]
@[simp] theorem acceptFrame_pub : (acceptFrame n s).pub = s.pub := by rw [acceptFrame_eq]
@[simp] theorem acceptFrame_notices : (acceptFrame n s).notices = s.notices := by rw [acceptFrame_eq]
@[simp] theorem acceptFrame_replicas : (acceptFrame n s).replicas = s.replicas := by rw [acceptFrame_eq]
@[simp] theorem acceptFrame_cabMap : (acceptFrame n s).cabMap = s.cabMap := by rw [acceptFrame_eq]
@[simp] theorem acceptFrame_recovery : (acceptFrame n s).recovery = s.recovery := by rw [acceptFrame_eq]
@[simp] theorem acceptFrame_sensor : (acceptFrame n s).sensor = s.sensor := by rw [acceptFrame_eq]
@[simp] theorem acceptFrame_face : (acceptFrame n s).face = s.face := by rw [acceptFrame_eq]
@[simp] theorem acceptFrame_permit : (acceptFrame n s).permit = s.permit := by rw [acceptFrame_eq]
@[simp] theorem acceptFrame_dust : (acceptFrame n s).dust = s.dust := by rw [acceptFrame_eq]
@[simp] theorem acceptFrame_ring : (acceptFrame n s).ring = s.ring := by rw [acceptFrame_eq]
@[simp] theorem acceptFrame_scrub : (acceptFrame n s).scrub = s.scrub := by rw [acceptFrame_eq]
@[simp] theorem acceptFrame_conv : (acceptFrame n s).conv = s.conv := by rw [acceptFrame_eq]
@[simp] theorem acceptFrame_cab : (acceptFrame n s).cab = s.cab := by rw [acceptFrame_eq]
@[simp] theorem acceptFrame_panel : (acceptFrame n s).panel = s.panel := by rw [acceptFrame_eq]
@[simp] theorem acceptFrame_sending : (acceptFrame n s).line.sending = none := by rw [acceptFrame_eq]
@[simp] theorem acceptFrame_awaitsGap : (acceptFrame n s).line.awaitsGap = true := by rw [acceptFrame_eq]
@[simp] theorem acceptFrame_record : (acceptFrame n s).line.record = s.line.record := by rw [acceptFrame_eq]
@[simp] theorem acceptFrame_sfc : (acceptFrame n s).line.sfc = s.line.sfc := by rw [acceptFrame_eq]
@[simp] theorem acceptFrame_claimSlot : (acceptFrame n s).line.claim = s.line.claim := by rw [acceptFrame_eq]
@[simp] theorem acceptFrame_window : (acceptFrame n s).claim.window = s.claim.window := by rw [acceptFrame_eq]
@[simp] theorem acceptFrame_candidate : (acceptFrame n s).claim.candidate = s.claim.candidate := by rw [acceptFrame_eq]
@[simp] theorem acceptFrame_r : (acceptFrame n s).claim.r = s.claim.r := by rw [acceptFrame_eq]
@[simp] theorem acceptFrame_joining : (acceptFrame n s).claim.joining = s.claim.joining := by rw [acceptFrame_eq]
@[simp] theorem acceptFrame_role : (acceptFrame n s).role = s.role := by rw [acceptFrame_eq]; rfl
@[simp] theorem acceptFrame_isRole (r : Role) : (acceptFrame n s).isRole r = s.isRole r := by rw [acceptFrame_eq]; rfl
@[simp] theorem acceptFrame_boundRecord (m : Station) : (acceptFrame n s).boundRecord m = s.boundRecord m := by
  rw [acceptFrame_eq]; rfl

/-- A state outside RUN and QUIET stays; RUN and QUIET change into each other only. -/
theorem acceptFrame_state : (acceptFrame n s).line.state = s.line.state ∨
    ((s.line.state = .run ∨ s.line.state = .quiet) ∧
      ((acceptFrame n s).line.state = .run ∨ (acceptFrame n s).line.state = .quiet)) := by
  have h : ((acceptFrame n s).line.state) = (lowerHfc s).line.state := by
    unfold acceptFrame frameEnds lineBusy reloadWatch hearEntry
    dsimp only; repeat' split
    all_goals rfl
  rw [h]; unfold lowerHfc followCounts; dsimp only
  split
  · rename_i h; simp only [Bool.and_eq_true, beq_iff_eq] at h; exact .inr ⟨.inl h.1, .inr rfl⟩
  · split
    · rename_i h; simp only [Bool.and_eq_true, beq_iff_eq] at h; exact .inr ⟨.inr h.1, .inl rfl⟩
    · exact .inl rfl

@[simp] theorem acceptFrame_live : (acceptFrame n s).live = s.live := by
  rcases acceptFrame_state n s with h | ⟨h1 | h1, h2 | h2⟩ <;> simp only [State.live, *] <;> rfl

end

/-- The answer queue apart, an answer changes nothing. -/
@[simp] theorem pushAnswer_isRole (n : Station) (k : Byte) (a : AnswerCode) (s : State) (r : Role) :
    (pushAnswer n k a s).isRole r = s.isRole r := rfl

@[simp] theorem pushAnswer_live (n : Station) (k : Byte) (a : AnswerCode) (s : State) :
    (pushAnswer n k a s).live = s.live := rfl

/-- An order that reaches its owner: heard, a free place in the answer queue, a role that takes the kind, enough
arguments. -/
theorem order_reaches {s : State} {n : Station} {k : Byte} {kind : OrderKind} {args : List Byte} {r : Role}
    {owner : State → AnswerCode × State} (hl : s.hears = true) (ha : s.pub.answers.length < 4)
    (hr : s.isRole r = true) (hk : kind.takenBy r = true) (h : kind.argCount ≤ args.length) (h61 : args.length ≤ 61) :
    orderEvent n k kind args owner s =
      .next (finish s (pushAnswer n k (owner (acceptFrame n s)).1 (owner (acceptFrame n s)).2)) := by
  unfold orderEvent
  rw [event_live (live_of_hears hl), ifHeard_hears hl]; simp only [h61, if_true]; unfold takeOrder
  have h4 : ¬ 4 ≤ (acceptFrame n s).pub.answers.length := by rw [acceptFrame_pub]; omega
  have hn : ¬ args.length < kind.argCount := by omega
  have hrole : s.role = some r := by simpa [State.isRole] using hr
  simp only [h4, if_false, acceptFrame_role, hrole, Option.map_some, Option.getD_some, hk, Bool.not_true,
    Bool.false_eq_true, hn]

end Sys2Proof.Machine
end

