-- ==== Sys2Proof/Laws/Units.lean ====
section
/-! SUPPORT. What a tick can do to the inputs and to the dwell timer, that the operations of the lot ring keep it in order, and what
the part reads from a wave. -/

namespace Sys2Proof.Machine

/-! ## The inputs -/

theorem Inputs.get_set (i : Inputs) (k j : Fin 4) (b : Bool) : (i.set k b).get j = if j = k then b else i.get j := by
  fin_cases k <;> fin_cases j <;> rfl

/-- Everything a tick of one input's debounce can do. -/
theorem debouncePin_eq (s : State) (k : Fin 4) :
    ∃ i p, debouncePin s k = { s with inputs := i, pins := p } ∧
      ∀ j b, (s.role.bind fun r => r.inputChange j b).isSome = true → i.get j = s.inputs.get j := by
  have read : ∀ (j : Fin 4) (b c : Bool), (s.role.bind fun r => r.inputChange j b).isSome = true →
      (s.role.bind fun r => r.inputChange j c).isSome = true := by
    intro j b c h
    cases hr : s.role with
    | none => simp [hr] at h
    | some r => cases r <;> fin_cases j <;> simp_all [Role.inputChange]
  simp only [debouncePin]
  split
  · rename_i h
    unfold State.withInput
    split
    · exact ⟨_, _, rfl, fun _ _ _ => rfl⟩
    · refine ⟨_, _, rfl, fun j b hj => ?_⟩
      simp only [Inputs.get_set]
      split
      · rename_i e
        subst e
        have some := read j b (s.pins.get j).active hj
        rw [Bool.and_eq_true, Option.isNone_iff_eq_none] at h
        rw [h.2] at some
        cases some
      · rfl
  · exact ⟨_, _, rfl, fun _ _ _ => rfl⟩

/-- Everything a tick of the debounce can do: the inputs that a block of the role reads keep their values. -/
theorem debounceTick_eq (s : State) :
    ∃ i p, debounceTick s = { s with inputs := i, pins := p } ∧
      ∀ j b, (s.role.bind fun r => r.inputChange j b).isSome = true → i.get j = s.inputs.get j := by
  suffices h : ∀ (l : List (Fin 4)) (s : State), ∃ i p, l.foldl debouncePin s = { s with inputs := i, pins := p } ∧
      ∀ j b, (s.role.bind fun r => r.inputChange j b).isSome = true → i.get j = s.inputs.get j from h fourInputs s
  intro l
  induction l with
  | nil => exact fun s => ⟨s.inputs, s.pins, rfl, fun _ _ _ => rfl⟩
  | cons k l ih =>
    intro s
    obtain ⟨i, p, e, h⟩ := debouncePin_eq s k
    obtain ⟨i', p', e', h'⟩ := ih (debouncePin s k)
    refine ⟨i', p', by rw [List.foldl_cons, e', e], fun j b hj => ?_⟩
    rw [h' j b (by rw [e]; exact hj), e]
    exact h j b hj

/-! ## A tick -/

/-- A tick of the dwell timer: it stands, counts on short of the configured dwell, or comes to it with its value kept. -/
theorem permitTick_dwell {s : State} {c : Cell} (h : s.permit.head = some c) :
    s.permitTick.head = some c ∧ s.permitTick.state = s.permit.state ∧
      if s.dwellRuns = false then s.permitTick.dwell = s.permit.dwell ∧ s.permitTick.reached = s.permit.reached
      else if s.permit.dwell + 1 < s.dwellOf (s.kind c) then
        s.permitTick.dwell = s.permit.dwell + 1 ∧ s.permitTick.reached = false
      else s.permitTick.dwell = s.permit.dwell ∧ s.permitTick.reached = true := by
  unfold State.permitTick PermitUnit.work
  simp only [h]
  cases s.dwellRuns
  · simp
  · by_cases hd : s.permit.dwell + 1 < s.dwellOf (s.kind c) <;> simp [hd]

/-- What a tick does at a live CUTTER to the permit unit and to what it reads. -/
theorem passTick_cutter {s : State} (hl : s.live = true) (hc : s.isRole .cutter = true) :
    (passTick s).permit = s.permitTick ∧ (passTick s).face = s.face ∧ (passTick s).inputs.i1 = s.inputs.i1 := by
  have hr : s.role = some .cutter := by simpa [State.isRole] using hc
  obtain ⟨i, p, e, hi⟩ := debounceTick_eq (partTick s)
  have h1 : i.i1 = s.inputs.i1 := hi 1 true (by rw [show (partTick s).role = _ from hr]; rfl)
  have hx : ∀ x : State, debounceTick (partTick s) = x → x.role = s.role ∧ x.permitTick = s.permitTick ∧ x.face = s.face ∧
      x.inputs.i1 = s.inputs.i1 := by
    rintro _ rfl
    refine ⟨by rw [e]; rfl, ?_, by rw [e]; rfl, by rw [e]; exact h1⟩
    have hd : (debounceTick (partTick s)).dwellRuns = s.dwellRuns := by
      rw [e]; simp only [State.dwellRuns, h1]; rfl
    unfold State.permitTick; rw [hd, e]; rfl
  unfold passTick; rw [if_pos hl]; unfold liveTick
  generalize debounceTick (partTick s) = x at hx
  obtain ⟨a, b, c, d⟩ := hx x rfl
  dsimp only; rw [a, hr]; exact ⟨b, c, d⟩

/-- With no command waiting and nothing due, a step is one tick (log entry 1). -/
theorem step_tick {s : State} (h : s.pending = []) (hd : dueCommand s = none) : step s = .next (passTick s) := by
  simp [step, h, idle, hd]

/-! ## The lot ring -/

/-- Updates of the lots that keep every number and open none keep the ring in order. -/
theorem LotRing.Sound.mapLots {g : LotRing} (h : g.Sound) (f : Lot → Lot) (hn : ∀ l, (f l).number = l.number)
    (ho : ∀ l, (f l).isOpen = true → l.isOpen = true) : { g with lots := g.lots.map f }.Sound := by
  obtain ⟨hl, hi, hx⟩ := h
  refine ⟨by simpa using hl, by simpa using hi, fun i l e => ?_⟩
  simp only [List.getElem?_map, Option.map_eq_some_iff] at e
  obtain ⟨m, em, rfl⟩ := e
  have := hx i m em
  exact ⟨by rw [hn]; exact this.1, fun o => by simpa using this.2 (ho m o)⟩

theorem commitLot_sound {s : State} (h : s.ring.Sound) : (commitLot s).ring.Sound :=
  LotRing.Sound.mapLots h _ (fun _ => rfl) (by simp)

theorem openLotIfNone_sound {s : State} (h : s.ring.Sound) (room : s.openLot = none → s.ring.lots.length < 16) :
    (openLotIfNone s).ring.Sound := by
  unfold openLotIfNone
  split
  · exact h
  · rename_i o
    obtain ⟨hl, hi, hx⟩ := h
    have o : s.openLot = none := by simpa using o
    have r := room o
    refine ⟨by simpa using r, ?_, fun i l e => ?_⟩
    · simp only [List.length_append, List.length_singleton, hi, BitVec.ofNat_add, BitVec.add_assoc]; rfl
    · rcases lt_trichotomy i s.ring.lots.length with c | c | c
      · rw [List.getElem?_append_left c] at e
        refine ⟨(hx i l e).1, fun p => ?_⟩
        have := List.find?_eq_none.1 o l (List.mem_of_getElem? e)
        exact absurd p this
      · subst c
        simp only [List.getElem?_append_right (le_refl _), Nat.sub_self, List.getElem?_cons_zero, Option.some.injEq] at e
        subst e
        exact ⟨hi, fun _ => by simp⟩
      · rw [List.getElem?_eq_none (by simpa using c)] at e
        cases e

theorem creditMass_sound {s : State} (mass : Nat) (h : s.ring.Sound)
    (room : s.openLot = none → s.ring.lots.length < 16) : (creditMass mass s).ring.Sound := by
  have k : ∀ (g : LotRing) (f : Lot → Lot) (m : Word32), g.Sound → (∀ l, (f l).number = l.number) →
      (∀ l, (f l).isOpen = true → l.isOpen = true) → { g with lots := g.lots.map f, cutMass := m }.Sound :=
    fun g f m h a b => h.mapLots f a b
  unfold creditMass
  have q := k _ (fun l => if l.isOpen then { l with count := l.count + 1, expected := l.expected + mass } else l)
    ((openLotIfNone s).ring.cutMass + BitVec.ofNat 32 mass) (openLotIfNone_sound h room)
    (fun l => by split <;> rfl) (fun l => by split <;> simp_all)
  dsimp only
  split
  · exact commitLot_sound q
  · exact q

theorem LotRing.tick_sound {g : LotRing} (h : g.Sound) : g.tick.Sound := by
  unfold LotRing.tick
  split
  · split
    · exact h
    · exact LotRing.Sound.mapLots h _ (fun l => by split <;> rfl) (fun l => by split <;> simp_all)
  · exact h

/-- The lots of a sound ring that stand before `r` are as many as `r` is ahead of the retired count held, where `r` is not
ahead of the committed count. -/
theorem passedLots_length {g : LotRing} (h : g.Sound) {r : Word16} {o : Bool} (some : o = true → g.lots ≠ [])
    (ahead : precedes g.retiredHeld r = true) (behind : precedes (committedCount g.issued o) r = false) :
    (passedLots r g.lots).length = (r - g.retiredHeld).toNat ∧ (r - g.retiredHeld).toNat ≤ g.lots.length := by
  obtain ⟨hl, hi, hx⟩ := h
  have one : (1 : Word16).toNat = 1 := rfl
  have hle : (r - g.retiredHeld).toNat ≤ g.lots.length := by
    have pos : o = true → 0 < g.lots.length := fun e => List.length_pos_of_ne_nil (some e)
    unfold precedes committedCount at *
    rw [hi] at behind
    simp only [Bool.and_eq_true, decide_eq_true_eq, Bool.and_eq_false_iff, decide_eq_false_iff_not] at *
    split at behind <;> simp only [BitVec.toNat_sub, BitVec.toNat_add, BitVec.toNat_ofNat, one] at * <;> simp_all <;> omega
  have order : ∀ (i : Nat) (l : Lot), g.lots[i]? = Option.some l →
      precedes l.number r = decide (i < (r - g.retiredHeld).toNat) := by
    intro i l e
    have lt : i < g.lots.length := (List.getElem?_eq_some_iff.1 e).1
    rw [(hx i l e).1]
    unfold precedes at *
    simp only [Bool.and_eq_true, decide_eq_true_eq] at ahead
    rw [Bool.eq_iff_iff]
    simp only [Bool.and_eq_true, decide_eq_true_eq]
    simp only [BitVec.toNat_sub, BitVec.toNat_add, BitVec.toNat_ofNat] at *
    omega
  refine ⟨?_, hle⟩
  have take : ∀ (l : List Lot) (n : Nat), n ≤ l.length →
      (∀ i x, l[i]? = Option.some x → precedes x.number r = decide (i < n)) → (passedLots r l).length = n := by
    intro l
    induction l with
    | nil => intro n hn _; simp at hn; simp [passedLots, hn]
    | cons x l ih =>
      intro n hn hp
      have h0 := hp 0 x rfl
      cases n with
      | zero => simp [passedLots, h0]
      | succ n =>
        have := ih n (by simpa using hn) fun i y e => by simpa using hp (i + 1) y (by simpa using e)
        simp only [passedLots] at this ⊢
        simp [h0, this]
  exact take g.lots _ hle order

theorem cutterTakesConveyor_sound {s : State} (p : ConveyorPart) (h : s.ring.Sound) : (cutterTakesConveyor p s).ring.Sound := by
  have some : s.openLot.isSome = true → s.ring.lots ≠ [] := fun e n => by simp [State.openLot, n] at e
  unfold cutterTakesConveyor
  dsimp only
  split
  · exact h
  · split
    · exact h
    · rename_i g
      simp only [Bool.or_eq_true, not_or, Bool.not_eq_true] at g
      split
      · rename_i ahead
        obtain ⟨len, le⟩ := passedLots_length h some ahead g.2
        obtain ⟨hl, hi, hx⟩ := h
        refine ⟨by simp; omega, ?_, fun i l e => ?_⟩
        · simp only [List.length_drop, len]
          apply BitVec.eq_of_toNat_eq
          simp only [hi, BitVec.toNat_add, BitVec.toNat_ofNat, BitVec.toNat_sub] at *
          omega
        · simp only [List.getElem?_drop] at e
          obtain ⟨a, b⟩ := hx _ l e
          refine ⟨?_, fun q => by have := b q; simp; omega⟩
          rw [a, len]
          apply BitVec.eq_of_toNat_eq
          simp only [BitVec.toNat_add, BitVec.toNat_ofNat, BitVec.toNat_sub] at *
          omega
      · exact h

/-! ## The clocked links -/

/-- Clocked low then high, bit by bit, a wave reads the level at each rising edge, whatever stood while the clock was low. -/
theorem sampledFrom_cycles (cycles : List (Bool × Bool)) (before : Bool) :
    sampledFrom before (cycles.flatMap fun c => [(false, c.1), (true, c.2)]) = cycles.map (·.2) := by
  induction cycles generalizing before with
  | nil => rfl
  | cons c cycles ih => simp [sampledFrom, ih]

theorem byteOf_bitsFromTop (b : Byte) : BitVec.ofBoolListBE (bitsFromTop b) = b := by
  refine BitVec.eq_of_getLsbD_eq fun i hi => ?_
  have hi : i < 8 := hi
  interval_cases i <;> simp [bitsFromTop]

/-- Bytes sent most significant bit first are gathered as they were. -/
theorem bytesOfBits_bytesFromTop (bytes : List Byte) : bytesOfBits (bytesFromTop bytes) = bytes := by
  induction bytes with
  | nil => rfl
  | cons b bytes ih => exact congrArg₂ List.cons (byteOf_bitsFromTop b) ih

end Sys2Proof.Machine
end

