-- ==== Sys2Proof/Laws/Line.lean ====
section
/-! SUPPORT. The wait for a gap (R133, R136): nothing that a frame brings ends it, so a frame accepted leaves the receiver
awaiting the next gap, whatever the frame carries. -/

namespace Sys2Proof.Machine

/-- An operation leaves the wait as it stands. -/
abbrev KeepsWait (f : State → State) : Prop := ∀ s, (f s).line.awaitsGap = s.line.awaitsGap

theorem keepsWait_of_rest {f : State → State} (h : ∀ s, (f s).rest = s.rest) : KeepsWait f :=
  fun s => awaitsGap_of_rest (h s)

theorem keepsWait_subEvent {f : State → State} (h : KeepsWait f) : KeepsWait (subEvent f) :=
  fun s => (awaitsGap_of_rest (rest_subEvent f s)).trans (h s)

/-! ## Claims -/

theorem keepsWait_enterClaim (cause : Option (Station × ClaimFrame)) : KeepsWait (enterClaim cause) := by
  intro s; unfold enterClaim startWindow queueClaim enterCandidate commitLot; dsimp only; repeat' split
  all_goals rfl

theorem keepsWait_enterCandidate (n : Station) (c : ClaimFrame) : KeepsWait (enterCandidate n c) := by
  intro s; unfold enterCandidate; dsimp only; repeat' split
  all_goals rfl

theorem keepsWait_enterInactive (cause : InactiveCause) : KeepsWait (enterInactive cause) := by
  have h : KeepsWait movePermit := by
    intro s; unfold movePermit commitLot; dsimp only; repeat' split
    all_goals rfl
  intro s; unfold enterInactive; dsimp only; split
  · show (movePermit _).line.awaitsGap = _; rw [h]; rfl
  · rfl

theorem keepsWait_discardRecords (n : Station) : KeepsWait (discardRecords n) := by
  intro s; unfold discardRecords setTagRange setTag discardLots; dsimp only; repeat' split
  all_goals rfl

theorem keepsWait_takeOwnNumber (c : ClaimFrame) : KeepsWait (takeOwnNumber c) := by
  intro s; unfold takeOwnNumber; repeat' split
  · exact keepsWait_enterInactive _ _
  · exact keepsWait_enterClaim _ _
  · exact keepsWait_enterClaim _ _
  all_goals rfl

theorem keepsWait_withdrawnTakes (n : Station) (c : ClaimFrame) : KeepsWait (withdrawnTakes n c) := by
  intro s; unfold withdrawnTakes; dsimp only; split
  · exact keepsWait_enterInactive _ _
  · rfl

theorem keepsWait_takeClaim (n : Station) (c : ClaimFrame) : KeepsWait (takeClaim n c) := by
  intro s; unfold takeClaim; split
  · exact keepsWait_takeOwnNumber c s
  · have h : (if c.joining || s.serialChanged n c then discardRecords n s else s).line.awaitsGap = s.line.awaitsGap := by
      split
      · exact keepsWait_discardRecords n s
      · rfl
    rw [← h]; dsimp only
    generalize (if c.joining || s.serialChanged n c then discardRecords n s else s) = v
    split
    · exact keepsWait_enterClaim _ v
    · exact keepsWait_enterClaim _ v
    · refine Eq.trans ?_ (keepsWait_enterCandidate n c v)
      split <;> rfl
    · exact keepsWait_withdrawnTakes n c v
    · rfl

/-! ## Entries, TRIP and MAP frames -/

theorem keepsWait_raiseNotice (c : NoticeCode) : KeepsWait (raiseNotice c) := keepsWait_of_rest fun s => rest_raiseNotice c s

theorem keepsWait_noteBreachEntered : KeepsWait noteBreachEntered := by
  intro s; unfold noteBreachEntered; repeat' split
  all_goals rfl

theorem keepsWait_retryBreach : KeepsWait retryBreach := by
  intro s; unfold retryBreach; split
  · exact (keepsWait_noteBreachEntered _).trans (keepsWait_raiseNotice _ s)
  · rfl

theorem keepsWait_outcomeNotices (o : LotOutcome) : KeepsWait (outcomeNotices o) := by
  intro s; cases o with
  | overbreak => exact keepsWait_raiseNotice .overbreakSuspected (setHolds .overbreakSuspected true (s.withConv _))
  | short => exact keepsWait_raiseNotice .spoilShort (setHolds .spoilShort true (s.withConv _))
  | ok => rfl
  | fall => rfl

theorem keepsWait_retireHead (r : LotRec) (others : List LotRec) : KeepsWait (retireHead r others) := by
  intro s; unfold retireHead; dsimp only
  rw [awaitsGap_of_rest (rest_judgeNotices _), keepsWait_outcomeNotices]; rfl

theorem keepsWait_openWindows (fuel : Nat) : KeepsWait (openWindows fuel) := by
  induction fuel with
  | zero => exact fun _ => rfl
  | succ fuel ih =>
    intro s; unfold openWindows; repeat' split
    · rfl
    · rfl
    · exact (ih _).trans (keepsWait_retireHead _ _ s)
    · rfl

theorem keepsWait_takeLot (e : LotEntry) : KeepsWait (takeLot e) := by
  intro s; unfold takeLot; split
  · rfl
  · exact keepsWait_openWindows 17 _

theorem keepsWait_takeStatus (n : Station) (r : StatusRecord) : KeepsWait (takeStatus n r) := by
  intro s
  have h : (storeStatus n r s).line.awaitsGap = s.line.awaitsGap := by
    unfold storeStatus; dsimp only; split <;> rfl
  rw [← h]; unfold takeStatus; dsimp only
  generalize storeStatus n r s = v
  split
  · refine (keepsWait_retryBreach _).trans ?_
    unfold cutterTakesConveyor; dsimp only; repeat' split
    all_goals rfl
  · refine (keepsWait_retryBreach _).trans ?_
    unfold cutterTakesCab; split <;> rfl
  · exact keepsWait_retryBreach _
  · unfold conveyorTakesCutter takeAdvance discardLots; dsimp only; repeat' split
    all_goals rfl
  · unfold endHeld; dsimp only; repeat' split
    all_goals rfl
  · rfl

theorem keepsWait_takeNotice (n : Station) (e : NoticeEntry) : KeepsWait (takeNotice n e) := by
  intro s; unfold takeNotice; split <;> rfl

theorem keepsWait_takeAnswer (n : Station) (a : AnswerEntry) : KeepsWait (takeAnswer n a) := by
  intro s; unfold takeAnswer takePanelAnswer takeRequestAnswer restartRequest; repeat' split
  all_goals rfl

theorem keepsWait_takeRow (n : Station) (e : RowEntry) : KeepsWait (takeRow n e) := by
  intro s; unfold takeRow; repeat' split
  all_goals rfl

theorem keepsWait_takeEntry (n : Station) (e : Entry) : KeepsWait fun s => takeEntry n s e := by
  intro s; dsimp only
  cases e with
  | status r => exact keepsWait_takeStatus n r s
  | notice e => exact keepsWait_takeNotice n e s
  | answer a => exact keepsWait_takeAnswer n a s
  | lot l =>
    simp only [takeEntry]; split
    · exact keepsWait_takeLot l s
    · rfl
  | retire r => simp only [takeEntry]; split <;> rfl
  | tag t => rfl
  | row e => exact keepsWait_takeRow n e s
  | fault f => rfl

theorem keepsWait_takeEntries (n : Station) (entries : List Entry) : KeepsWait (takeEntries n entries) := by
  intro s; unfold takeEntries
  induction entries generalizing s with
  | nil => rfl
  | cons e entries ih => rw [List.foldl_cons, ih]; exact keepsWait_subEvent (keepsWait_takeEntry n e) s

theorem keepsWait_takeState (n : Station) (payload : List Byte) : KeepsWait (takeState n payload) := by
  have hc : KeepsWait (claimOnState n) := by
    intro s; unfold claimOnState; split
    · exact keepsWait_enterClaim none s
    · rfl
  intro s; unfold takeState; dsimp only; split
  · exact keepsWait_subEvent hc s
  · rw [keepsWait_takeEntries]; exact keepsWait_subEvent hc s

theorem keepsWait_takeTrip (n : Station) (payload : List Byte) : KeepsWait (takeTrip n payload) := by
  intro s; unfold takeTrip; repeat' split
  · rfl
  · exact keepsWait_takeNotice n _ s
  · rfl

theorem keepsWait_takeMap (n : Station) (payload : List Byte) : KeepsWait (takeMap n payload) := by
  intro s; unfold takeMap takeMapRow restartRequest adoptMap endRecovery markAllRows; dsimp only; repeat' split
  all_goals rfl

/-! ## Orders -/

/-- An order's own rule leaves the wait. -/
abbrev OrderKeepsWait (owner : State → AnswerCode × State) : Prop := ∀ s, (owner s).2.line.awaitsGap = s.line.awaitsGap

theorem keepsWait_setTagRange (i : Fin 2) (r : TagRange) : KeepsWait (setTagRange i r) := by
  intro s; unfold setTagRange setTag; split <;> rfl

theorem keepsWait_setRows (f : Fin 24 → RowCells → RowCells) : KeepsWait (setRows f) := by
  intro s; unfold setRows; generalize rows24 = l
  induction l generalizing s with
  | nil => rfl
  | cons r l ih => rw [List.foldl_cons, ih]; dsimp only; split <;> rfl

theorem keepsWait_changeRange (a b : Cell) (src dst : CellState) : KeepsWait (changeRange a b src dst) := by
  intro s; unfold changeRange; rw [keepsWait_setRows]

theorem orderKeepsWait_faceOrder (breaks : Bool) (n : Station) {rule : Fin 2 → State → AnswerCode × State}
    (h : ∀ i, OrderKeepsWait (rule i)) : OrderKeepsWait (faceOrder breaks n rule) := by
  intro s; unfold faceOrder; repeat' split
  · rfl
  · rfl
  · rfl
  · exact (h _ _).trans (keepsWait_setTagRange _ _ s)
  · exact h _ s

theorem orderKeepsWait_tagFirstRule (args : List Byte) (i : Fin 2) : OrderKeepsWait (tagFirstRule args i) := by
  intro s; unfold tagFirstRule; split <;> (dsimp only; rw [keepsWait_setTagRange])

theorem orderKeepsWait_tagLastRule (args : List Byte) (i : Fin 2) : OrderKeepsWait (tagLastRule args i) := by
  intro s; unfold tagLastRule; repeat' split
  all_goals dsimp only; rw [keepsWait_setTagRange]

theorem orderKeepsWait_releaseRule (i : Fin 2) : OrderKeepsWait (releaseRule i) := by
  intro s; unfold releaseRule; repeat' split
  · dsimp only; rw [keepsWait_setTagRange]
  · dsimp only; rw [keepsWait_setTagRange, keepsWait_changeRange]
  · dsimp only; rw [keepsWait_setTagRange]

theorem orderKeepsWait_withdrawRule (i : Fin 2) : OrderKeepsWait (withdrawRule i) := by
  intro s; unfold withdrawRule; split
  · dsimp only; rw [keepsWait_setTagRange, keepsWait_changeRange]
  · dsimp only; rw [keepsWait_setTagRange]

theorem orderKeepsWait_protectRule (args : List Byte) (i : Fin 2) : OrderKeepsWait (protectRule args i) := by
  intro s; unfold protectRule; dsimp only; repeat' split
  · rfl
  · rfl
  · exact (keepsWait_noteBreachEntered _).trans (keepsWait_raiseNotice _ _)
  · rfl

theorem orderKeepsWait_unprotectRule (args : List Byte) (i : Fin 2) : OrderKeepsWait (unprotectRule args i) := by
  intro s; unfold unprotectRule; repeat' split
  all_goals rfl

theorem orderKeepsWait_advanceRule (i : Fin 2) : OrderKeepsWait (advanceRule i) := by
  intro s; unfold advanceRule; split
  · unfold advanceFace; dsimp only; rw [keepsWait_setTagRange, keepsWait_setTagRange]; rfl
  · rfl

theorem orderKeepsWait_washNowOrder (n : Station) : OrderKeepsWait (washNowOrder n) := by
  intro s; unfold washNowOrder; repeat' split
  all_goals rfl

theorem orderKeepsWait_scrubResetOrder (n : Station) : OrderKeepsWait (scrubResetOrder n) := by
  intro s; unfold scrubResetOrder; repeat' split
  all_goals rfl

theorem orderKeepsWait_conveyOrder (on : Bool) (n : Station) : OrderKeepsWait (conveyOrder on n) := by
  intro s; unfold conveyOrder; split <;> rfl

theorem orderKeepsWait_conveyResetOrder (n : Station) : OrderKeepsWait (conveyResetOrder n) := by
  intro s; unfold conveyResetOrder; repeat' split
  all_goals rfl

theorem orderKeepsWait_mapRequestOrder (n : Station) : OrderKeepsWait (mapRequestOrder n) := by
  intro s; unfold mapRequestOrder placeMapFrame; dsimp only; repeat' split
  all_goals rfl

theorem orderKeepsWait_ackOrder (n : Station) (args : List Byte) : OrderKeepsWait (ackOrder n args) := by
  intro s; unfold ackOrder ackNotice acknowledge; dsimp only; repeat' split
  all_goals rfl

theorem orderKeepsWait_clearFaultOrder (n : Station) : OrderKeepsWait (clearFaultOrder n) := by
  intro s; unfold clearFaultOrder; split <;> rfl

theorem orderKeepsWait_relinkOrder (n : Station) : OrderKeepsWait (relinkOrder n) := by
  intro s; unfold relinkOrder; repeat' split
  · rfl
  · rfl
  · exact keepsWait_enterClaim none _

/-! ## A frame that is heard leaves the receiver awaiting the next gap -/

theorem frameEnds_awaitsGap (s : State) : (frameEnds s).line.awaitsGap = true := rfl

theorem takeFrame_awaitsGap {c : FrameClass} {n : Station} {payload : List Byte} {f : State → State} {s : State}
    (hf : KeepsWait f) (h : s.hears = true) : (takeFrame c n payload f s).line.awaitsGap = true := by
  unfold takeFrame; rw [ifHeard_hears h]; split
  · exact (hf _).trans ((awaitsGap_of_rest (rest_noteEarly _ _)).trans (acceptFrame_awaitsGap n s))
  · rfl

theorem takeOrder_awaitsGap {n : Station} {k : Byte} {kind : OrderKind} {args : List Byte}
    {owner : State → AnswerCode × State} {s : State} (hf : OrderKeepsWait owner) :
    (takeOrder n k kind args owner s).line.awaitsGap = true := by
  unfold takeOrder; dsimp only; repeat' split
  · exact acceptFrame_awaitsGap n s
  · exact acceptFrame_awaitsGap n s
  · exact acceptFrame_awaitsGap n s
  · exact (hf _).trans (acceptFrame_awaitsGap n s)

/-- The next state of an order that is heard. -/
theorem orderEvent_awaitsGap {n : Station} {k : Byte} {kind : OrderKind} {args : List Byte}
    {owner : State → AnswerCode × State} {s : State} (hf : OrderKeepsWait owner) (h : s.hears = true) :
    ∃ t, orderEvent n k kind args owner s = .next t ∧ t.line.awaitsGap = true := by
  refine ⟨_, event_live (live_of_hears h), ?_⟩
  rw [finish_awaitsGap, ifHeard_hears h]; split
  · exact takeOrder_awaitsGap hf
  · rfl

end Sys2Proof.Machine
end

