-- ==== Sys2Proof/Laws/Publish.lean ====
section
/-! SUPPORT. What a STATE frame sent whole clears (R87, R166): the marks of what it carried, and the RETIRE entries. -/

namespace Sys2Proof.Machine

/-- A mark stays where its item has changed since the build. -/
theorem clearMark_eq_filter (build : Nat) (m : Option Nat) : clearMark build m = m.filter (build ≤ ·) := by
  cases m with
  | none => rfl
  | some k => by_cases h : k < build <;> simp [clearMark, Option.filter, h]

/-- A mark that some entries of a list carry, and no other entry touches. -/
theorem mark_foldl (build : Nat) (mark : State → Option Nat) (carries : Entry → Prop)
    (hit : ∀ s e, carries e → mark (entrySent build s e) = clearMark build (mark s))
    (miss : ∀ s e, ¬carries e → mark (entrySent build s e) = mark s) (entries : List Entry) (s : State) :
    ((∃ e ∈ entries, carries e) → mark (entries.foldl (entrySent build) s) = clearMark build (mark s)) ∧
    ((∀ e ∈ entries, ¬carries e) → mark (entries.foldl (entrySent build) s) = mark s) := by
  have twice : ∀ m, clearMark build (clearMark build m) = clearMark build m := by
    intro m; simp [clearMark_eq_filter, Option.filter_filter]
  induction entries generalizing s with
  | nil => simp
  | cons e l ih =>
    obtain ⟨h1, h2⟩ := ih (entrySent build s e)
    simp only [List.foldl_cons, List.mem_cons, exists_eq_or_imp, forall_eq_or_imp]
    by_cases he : carries e
    · rw [hit s e he] at h1 h2
      refine ⟨fun _ => ?_, fun h => absurd he h.1⟩
      by_cases hl : ∃ x ∈ l, carries x
      · rw [h1 hl, twice]
      · exact h2 (by simpa using hl)
    · rw [miss s e he] at h1 h2
      exact ⟨fun h => h1 (h.resolve_left he), fun h => h2 h.2⟩

section
variable (build : Nat) (entries : List Entry) (s : State)

/-- The row marks once the entries of a frame sent whole have been gone through (R166). -/
theorem rowMark_sent (r : Fin 24) :
    ((∃ e, .row e ∈ entries ∧ rowOfByte e.row = some r) →
      (entries.foldl (entrySent build) s).pub.rowMarks.get r = clearMark build (s.pub.rowMarks.get r)) ∧
    ((∀ e, .row e ∈ entries → rowOfByte e.row ≠ some r) →
      (entries.foldl (entrySent build) s).pub.rowMarks.get r = s.pub.rowMarks.get r) := by
  have h := mark_foldl build (fun s => s.pub.rowMarks.get r) (fun e => ∃ x, e = .row x ∧ rowOfByte x.row = some r)
    (by rintro s _ ⟨x, rfl, hx⟩; simp [entrySent, hx])
    (by
      intro s e he
      cases e <;> simp only [entrySent] <;> try (first | rfl | (split <;> rfl))
      rename_i x; split
      · rename_i i hx; simp only [Tbl.get_set]
        rw [if_neg]; rintro rfl; exact he ⟨x, rfl, hx⟩
      · rfl) entries s
  exact ⟨fun ⟨x, m, hx⟩ => h.1 ⟨_, m, x, rfl, hx⟩, fun g => h.2 fun e m ⟨x, q, hx⟩ => g x (q ▸ m) hx⟩

/-- The marks of the tag range records once the entries of a frame sent whole have been gone through (R166). -/
theorem tagMark_sent (second : Bool) :
    let i : Fin 2 := if second then 1 else 0
    ((∃ e, .tag e ∈ entries ∧ e.record = second) →
      (entries.foldl (entrySent build) s).pub.tagMarks.get i = clearMark build (s.pub.tagMarks.get i)) ∧
    ((∀ e, .tag e ∈ entries → e.record ≠ second) →
      (entries.foldl (entrySent build) s).pub.tagMarks.get i = s.pub.tagMarks.get i) := by
  intro i
  have h := mark_foldl build (fun s => s.pub.tagMarks.get i) (fun e => ∃ x, e = .tag x ∧ x.record = second)
    (by rintro s _ ⟨x, rfl, hx⟩; simp [entrySent, hx, i])
    (by
      intro s e he
      cases e <;> simp only [entrySent] <;> try (first | rfl | (split <;> rfl))
      rename_i x; simp only [Tbl.get_set]
      have hx : x.record ≠ second := fun q => he ⟨x, rfl, q⟩
      rw [if_neg]; revert hx; cases x.record <;> cases second <;> simp [i]) entries s
  exact ⟨fun ⟨x, m, hx⟩ => h.1 ⟨_, m, x, rfl, hx⟩, fun g => h.2 fun e m ⟨x, q, hx⟩ => g x (q ▸ m) hx⟩

/-- The marks of the notice slots once the entries of a frame sent whole have been gone through (R166). -/
theorem noticeMark_sent (i : Fin 8) :
    ((∃ e, .notice e ∈ entries ∧ slotOfByte e.slot = some i) →
      (entries.foldl (entrySent build) s).notices.marks.get i = clearMark build (s.notices.marks.get i)) ∧
    ((∀ e, .notice e ∈ entries → slotOfByte e.slot ≠ some i) →
      (entries.foldl (entrySent build) s).notices.marks.get i = s.notices.marks.get i) := by
  have h := mark_foldl build (fun s => s.notices.marks.get i) (fun e => ∃ x, e = .notice x ∧ slotOfByte x.slot = some i)
    (by rintro s _ ⟨x, rfl, hx⟩; simp [entrySent, hx, State.withNotices])
    (by
      intro s e he
      cases e <;> simp only [entrySent] <;> try (first | rfl | (split <;> rfl))
      rename_i x; split
      · rename_i j hx; simp only [State.withNotices, Tbl.get_set]
        rw [if_neg]; rintro rfl; exact he ⟨x, rfl, hx⟩
      · rfl) entries s
  exact ⟨fun ⟨x, m, hx⟩ => h.1 ⟨_, m, x, rfl, hx⟩, fun g => h.2 fun e m ⟨x, q, hx⟩ => g x (q ▸ m) hx⟩

/-- What the entries of a frame sent whole leave: all but the marks and the RETIRE entries that waited (R87, R166). -/
theorem entries_sent :
    let t := entries.foldl (entrySent build) s
    t = { s with
      notices := { s.notices with marks := t.notices.marks }
      pub := { s.pub with rowMarks := t.pub.rowMarks, tagMarks := t.pub.tagMarks }
      conv := { s.conv with retires := s.conv.retires.diff (entries.filterMap fun | .retire e => some e | _ => none) } } := by
  induction entries generalizing s with
  | nil => rfl
  | cons e l ih =>
    simp only [List.foldl_cons]
    have h := ih (entrySent build s e)
    dsimp only at h ⊢
    generalize List.foldl (entrySent build) (entrySent build s e) l = t at h ⊢
    rw [h]
    cases e <;> simp only [entrySent] <;> (try split) <;> simp [State.withConv, State.withNotices, List.diff_cons]

end

end Sys2Proof.Machine
end

