-- ==== Sys2Proof/Tests/Slice0.lean ====
section
/-! SUPPORT. Small tests: the checks of WellFormed, worked values of the manual, and for every statement a state and
operands that meet its hypotheses. -/

namespace Sys2Proof.Tests
open Sys2Proof.Machine

set_option Elab.async false

/-! ## Small states -/

/-- A drive of five stations: 0 CUTTER, 2 SCRUBBER, 3 CONVEYOR, 4 and 6 CAB, with a face of INSIDE cells. -/
def image : Image :=
  let of (r : Role) : StationCfg :=
    { StationCfg.blank with role := some r, duty := r == .cab, bid := 5, autoRejoin := true,
                            channels := (Tbl.fill 16 ChannelCfg.blank).set 0 ⟨0x10, match r with
                              | .cutter => .poseX | .scrubber => .pressure | .conveyor => .massRate | .cab => .unused, 4⟩ }
  { Image.blank with
    stations := ((((Image.blank.stations.set 0 (of .cutter)).set 2 (of .scrubber)).set 3 (of .conveyor)).set 4
      (of .cab)).set 6 (of .cab)
    kinds := .fill 24 (.fill 32 .inside), pitch := 30, massInside := 230, massTrim := 180, dwellInside := 3,
    period := 60, base := 150, washDue := 1500, washTime := 30, runOff := 30, transit := 60, settle := 15,
    lotLimit := 1000, holdLevel := 20000, fallLevel := 200, overLevel := 130, shortLevel := 50, vigilance := 30,
    warningLevel := 96, limitLevel := 60, actionLevel := 40, blocked := 3000, stallLevel := 150, strayLimit := 5000 }

def rosterEntry (r : Role) : RosterEntry :=
  { role := r.code, serial := 7, signature := 0, bid := 5, state := .present, ready := some true, claimedReady := true,
    silence := some 100 }

def roster : Tbl (Option RosterEntry) 8 :=
  (((((Tbl.fill 8 none).set 0 (some (rosterEntry .cutter))).set 2 (some (rosterEntry .scrubber))).set 3
    (some (rosterEntry .conveyor))).set 4 (some (rosterEntry .cab))).set 6 (some (rosterEntry .cab))

def common (r : Role) : StatusCommon :=
  { role := r.code, lineState := 2, ready := true, overflow := false, late := 0, mask := 0, sfc := 0, hfc := 0 }

def replicaOf (r : Role) (p : RolePart) : Replica := { Replica.empty with status := some { common := common r, part := p } }

/-- Station `n` of the drive in RUN, with the STATUS of the other stations that a running drive shows. -/
def drive (n : Station) : State :=
  { State.powerOn 7 (BitVec.ofNat 3 n.val) [] with
    spi := .idle, image := image, status := { code := 3, phase := .pause, timer := some 1 }
    line := { LineUnit.reset with state := .run }
    claim := { ClaimUnit.reset 7 n with roster := roster, r := 5, joining := false, closed := true, watch := some 800 }
    replicas := (((Tbl.fill 8 Replica.empty).set 2 (replicaOf .scrubber (.scrubber
      { fan := 2, wash := 0, spray := true, capacity := 100, dust := 0, pressure := 0 }))).set 3 (replicaOf .conveyor
      (.conveyor { state := 4, resync := false, taken := 0, retired := 0, headMass := 0, stray := 0, rate := 0 }))).set 4
      (replicaOf .cab (.cab { vigilance := 1, duty := true, mapComplete := false, mapAdvance := 0 })) }

def scrubber : State := drive 2
def conveyor : State := drive 3
def cab : State := drive 4

/-- The CUTTER with the permit FREE over a RELEASED cell, and record 0 bound to station 4. -/
def cutter : State :=
  { drive 0 with
    inputs := ⟨true, true, false, false⟩
    face := { FaceMap.reset with
      cells := .fill 24 (.fill 32 .released)
      tags := (Tbl.fill 2 ⟨none, .none⟩).set 0 ⟨some 4, .range ⟨0, 9⟩ ⟨31, 9⟩⟩ }
    permit := { PermitUnit.reset with
      state := .free, fresh := true, poseX := some 0, poseY := some 300, head := some ⟨16, 10⟩
      reasons := { demand := false, line := false, roster := false, pose := false, cell := false, zone := false,
                   dust := false, spoil := false, trip := false, vigil := false, restore := false } }
    dust := { position := some 5, midDone := false, remaining := 900, used := 100, fraction := 0 } }

/-- The next state of a command; the state itself where there is none. -/
def after (c : Instr) (s : State) : State :=
  match exec c s with
  | .next t => t
  | _ => s

/-- A state with line fields replaced. -/
def withLine (s : State) (f : LineUnit → LineUnit) : State := { s with line := f s.line }
def claim : ClaimFrame := { role := 4, serial := 7, signature := 0, bid := 5, joining := false, ready := true }

/-! ## WellFormed: an ill-formed operand for each check -/

theorem test_refuses_long_image : (Instr.imageReadComplete (List.replicate 789 0)).wellFormed = false := by decide +kernel
theorem test_refuses_long_frame :
    (Instr.frameRejected (List.replicate 69 { data := 0, stopOk := true })).wellFormed = false := by decide
theorem test_refuses_short_payloads :
    (Instr.claimTaken 1 (List.replicate 8 0)).wellFormed = false ∧ (Instr.stateTaken 1 (List.replicate 7 0)).wellFormed = false ∧
      (Instr.tripTaken 1 (List.replicate 5 0)).wellFormed = false ∧ (Instr.mapTaken 1 (List.replicate 10 0)).wellFormed = false := by
  decide
theorem test_refuses_long_payload : (Instr.stateTaken 1 (List.replicate 65 0)).wellFormed = false := by decide
theorem test_refuses_long_arguments :
    (Instr.tagFirst 4 1 (List.replicate 62 0)).wellFormed = false ∧ (Instr.tagLast 4 1 (List.replicate 62 0)).wellFormed = false ∧
      (Instr.protect 4 1 (List.replicate 62 0)).wellFormed = false ∧
      (Instr.unprotect 4 1 (List.replicate 62 0)).wellFormed = false ∧ (Instr.ack 4 1 (List.replicate 62 0)).wellFormed = false := by
  decide
theorem test_refuses_known_kind : (Instr.orderUnknownKind 4 1 16).wellFormed = false ∧
    (Instr.orderUnknownKind 4 1 17).wellFormed = true ∧ (Instr.orderUnknownKind 4 1 0).wellFormed = true := by decide
theorem test_refuses_mixed_status :
    statusFits { common := common .cab, part := .scrubber ⟨0, 0, false, 0, 0, 0⟩ } = false ∧
      entryFits (.status { common := common .cab, part := .cab ⟨0, false, false, 0⟩ }) = true := by decide

/-! ## Worked values of the manual -/

theorem test_check_of_the_nine_characters : crc16 [0x31, 0x32, 0x33, 0x34, 0x35, 0x36, 0x37, 0x38, 0x39] = 0x29B1 := by
  decide
theorem test_sensor_check : sensorCheck 0x10 0x01 0x23 = 0xCD := by decide
theorem test_head_cells_at_pitch_30 :
    headCellOf 30 (BitVec.ofInt 16 (-481)) 0 = none ∧ headCellOf 30 (BitVec.ofInt 16 (-480)) 0 = some ⟨0, 0⟩ ∧
      headCellOf 30 479 719 = some ⟨31, 23⟩ ∧ headCellOf 30 480 0 = none ∧ headCellOf 30 0 720 = none := by decide
theorem test_wrapping_order : precedes 65535 0 = true ∧ precedes 0 65535 = false ∧ precedes 5 5 = false := by decide
theorem test_release_answers_done_and_releases :
    let t := after (.release 4 9) { cutter with face := { cutter.face with cells := .fill 24 (.fill 32 .solid) } }
    t.cell ⟨0, 9⟩ = .released ∧ t.cell ⟨31, 9⟩ = .released ∧ t.cell ⟨0, 10⟩ = .solid ∧ t.cell ⟨31, 8⟩ = .solid ∧
      t.pub.answers.map (·.code) = [0] ∧ (t.face.tags.get 0).range = .none := by
  decide +kernel
theorem test_pose_off_the_grid_is_a_breach :
    let t := after (.sensorCharacter (sensorCheck 0x10 0x01 0xE0) false true)
      { cutter with sensor := { cutter.sensor with polled := some 0, assembly := .check 0x01 0xE0 } }
    t.permit.head = none ∧ t.outputs = (false, false, true, false) := by
  decide +kernel

theorem test_poll_character_with_even_parity :
    sensorCharacter true 0x10 = [false, false, false, false, false, true, false, false, false, true, true] ∧
      sensorCharacter false 0x10 = [false, false, false, false, false, true, false, false, false, true] ∧
      ({ cutter with sensor := { cutter.sensor with polled := some 0 } } : State).pollCharacter =
        some (sensorCharacter false 0x10) ∧ cutter.pollCharacter = none := by decide +kernel
theorem test_line_character_and_read_command :
    lineCharacter 0xA0 = [false, true, false, true, false, false, false, false, false, true] ∧
      (State.reset.readWave, ({ State.reset with spi := .reading } : State).readWave.length) = ([clockIdle], 64) ∧
      readBits = 6336 ∧ State.reset.sckLevels = [false] ∧ State.reset.pckLevels = [false] ∧
      ({ page := .face, lines := [] } : PanelFrame).wave.getLast? = some (true, false, none) := by
  decide +kernel
/-- At the end of its 20 ms the change at I0 of a CUTTER is due, and at I3, which no block reads, it is made. -/
theorem test_debounce_of_read_and_unread_inputs :
    let s := debounceTick { cutter with inputs := ⟨false, false, false, false⟩, pins := Tbl.ofIdx 4 fun k =>
      if k = 0 ∨ k = 3 then ⟨false, some 1⟩ else ⟨true, none⟩ }
    s.dueInput = some (.cutRequestChange true) ∧ s.inputs = ⟨false, false, false, true⟩ := by
  decide +kernel
/-- A pose into another RELEASED cell, then the completion of the dwell it has reset: no credit; the next one is the new
cell's (R41). -/
theorem test_pose_before_dwell_complete :
    let s := after (.sensorCharacter (sensorCheck 0x10 0x00 0x20) false true)
      { cutter with sensor := { cutter.sensor with polled := some 0, assembly := .check 0x00 0x20 } }
    let t := after .dwellComplete s
    s.permit.head = some ⟨17, 10⟩ ∧ t.face.cells = s.face.cells ∧ (after .dwellComplete t).cell ⟨17, 10⟩ = .cut := by
  decide +kernel
/-- An event that stops the dwell timer at the moment at which it comes to the dwell is taken first: the value stays short of
the dwell, and the cell is not credited at once when the timer runs again (R41). -/
theorem test_stop_before_dwell_complete :
    let s := passTick { cutter with permit := { cutter.permit with dwell := sec 3 - 1 } }
    let off := after (.cutRequestChange false) s
    let on := after (.cutRequestChange true) off
    let still := after (.headRunningChange false) s
    (s.dueCutter, s.permit.dwell) = (some .dwellComplete, sec 3 - 1) ∧
      (off.dwellRuns, off.permit.dwell, (after .dwellComplete off).face.cells == s.face.cells) = (false, sec 3 - 1, true) ∧
      (on.dwellRuns, on.dwellReached, (passTick on).dwellReached) = (true, false, true) ∧
      (still.dwellRuns, still.permit.dwell, still.permit.reached) = (false, sec 3 - 1, false) ∧
      (after .dwellComplete s).cell ⟨16, 10⟩ = .cut := by
  decide +kernel
/-- The character at which the gap limit is passed, taken first, lets the frame go on; the next passing of the limit discards it
(R184). -/
theorem test_character_before_gap_limit :
    let t := after (.sensorCharacter 7 true true)
      { cutter with sensor := { cutter.sensor with polled := some 0, assembly := .high } }
    let u := after .gapLimitExpiry t
    t.sensor.assembly = .low 7 ∧ u.sensor = t.sensor ∧ (after .gapLimitExpiry u).sensor.assembly = .hunt ∧
      (after .gapLimitExpiry (passTick t)).sensor.quietWait = true := by decide +kernel
/-- A frame cut off by a gap does not take back the frame begun at the end of that gap (R132). -/
theorem test_cut_off_frame_leaves_the_begin :
    let s := after .lineGap (withLine cab fun u => { u with claim := some claim })
    s.line.sending = some (.claim claim) ∧
      (after (.frameRejected [{ data := 0x20, stopOk := true }]) s).line.sending = some (.claim claim) := by decide +kernel
/-- After a frame accepted or rejected, and after a send error, nothing heard counts until the next gap (R133, R136); a frame
cut off by a gap is rejected at that gap. -/
theorem test_nothing_counts_before_the_next_gap :
    let bad : Instr := .frameRejected [{ data := 0x20, stopOk := false }]
    let cut : Instr := .frameRejected [{ data := 0x20, stopOk := true }]
    let run (cs : List Instr) := cs.foldl (fun s c => after c s) (withLine cab fun u => { u with hfc := 9, sfc := 9 })
    (run [bad, bad, cut]).line.hfc = 10 ∧ (run [bad, .lineGap, bad]).line.hfc = 11 ∧ (run [cut, cut]).line.hfc = 11 ∧
      (run [.orderOtherTarget 0 9, .orderOtherTarget 0 9, bad]).line.hfc = 8 ∧
      (run [bad, .tripTaken 3 (NoticeEntry.bytes ⟨7, 11, 0, 0, 9, 0⟩)]).replicas = (run []).replicas ∧
      (run [bad, .claimTaken 2 claim.bytes]).line.state = .run ∧
      (run [bad, .lineGap, .claimTaken 2 claim.bytes]).line.state = .claiming ∧
      ((run [bad, .clearFault 6 1]).pub.answers, (run [bad, .lineGap, .clearFault 6 1]).pub.answers.length) = ([], 1) ∧
      (let s := after (.sendError 9) (withLine cab fun u => { u with sending := some (.claim claim) })
       (after bad s).line.hfc = 0 ∧ (after bad (after .lineGap s)).line.hfc = 1) := by decide +kernel
/-- PDI and MISO are sampled at the rising edges, whatever stands before; a MISO left floating reads ones (R200, R201). -/
theorem test_sampled_at_rising_edges :
    let late (b : Byte) := (bitsFromTop b).flatMap fun x => [(false, !x), (true, x), (true, !x)]
    keyReportRead ((keyReportBytes [1]).flatMap late) = .keyReport (keyReportBytes [1]) ∧
      keyReportRead (late 0xA6 ++ [(false, true), (true, true), (false, true)]) = .keyReport [0xA6] ∧
      imageRead (List.replicate 48 [(false, none), (true, none)]).flatten = .imageReadComplete [0xFF, 0xFF] ∧
      imageRead (clockedBytes [3, 0, 0, 0, 75, 86]) = .imageReadComplete [75, 86] := by decide +kernel
/-- A MAP frame taken while the request waits has started the 3R: its sending does not start them again (R174). -/
theorem test_map_frame_before_the_request_is_sent :
    let o : OrderFrame := ⟨4, 1, .mapRequest, []⟩
    let s := { withLine cutter (fun u => { u with sending := some (.order o), order := some o }) with
      recovery := { RecoveryUnit.reset with state := .restoring, request := some ⟨4, 1, some 9⟩ } }
    (after .orderSentWhole s).recovery.request = some ⟨4, 1, some 9⟩ := by decide +kernel
/-- A report that brings the panel up clears "PANEL LOST" before its first key acts (R97, R127). -/
theorem test_panel_up_before_the_keys :
    let lost : NoticeQueue := { cab.notices with
      waiting := cab.notices.waiting.set NoticeCode.panelLost.index true
      holds := cab.notices.holds.set NoticeCode.panelLost.index true }
    let s := { cab with notices := lost, panel := { cab.panel with keyWait := some 1, clocking := true } }
    (takeKeyReport (keyReportBytes []) s).notices.waiting.get NoticeCode.panelLost.index = false ∧
      (panelUp s).notices.waiting.get NoticeCode.panelLost.index = true := by decide +kernel
/-- A pair that restarts the running period, then that period's expiry: no warning (R112). -/
theorem test_pair_before_period_expiry :
    let s := { drive 4 with cab := { (drive 4).cab with standing := true, vig := .running, pair := some 1 } }
    (after .vigilancePeriodExpiry (after .keyVigilB s)).cab.vig = .running ∧
      (after .vigilancePeriodExpiry (after .vigilancePeriodExpiry (after .keyVigilB s))).cab.vig = .warned := by
  decide +kernel
/-- A frame or an answer taken first leaves the watch, the entry, the claim and the value; the next expiry acts (R150, R151,
R156, R187). -/
theorem test_times_started_afresh :
    let twice (c : Instr) (s : State) := after c (after c s)
    let frame := after (.orderOtherTarget 0 9) { cab with claim := { cab.claim with watch := some 0 } }
    let claiming := after (.claimTaken 2 claim.bytes) { withLine cab (fun u => { u with state := .claiming }) with
      claim := { cab.claim with watch := none, window := some 0, candidate := some (.fill 8 none) } }
    let answer := after (.sensorCharacter (sensorCheck 0x10 0x07 0xD0) false true) { cutter with sensor := { cutter.sensor with
      polled := some 0, assembly := .check 0x07 0xD0
      channels := cutter.sensor.channels.set 0 { Channel.reset with value := some 5, age := 640 } } }
    (after .lineSilenceWatchExpiry frame).line.state = .run ∧
      (twice .lineSilenceWatchExpiry frame).line.state = .claiming ∧
      (after .lineSilenceWatchExpiry (passTick frame)).line.state = .claiming ∧
      (after (.silenceTimerExpiry 0) frame).entryState 0 = some .present ∧
      (twice (.silenceTimerExpiry 0) frame).entryState 0 = some .silent ∧
      (after (.silenceTimerExpiry 2) frame).entryState 2 = some .silent ∧
      (after .claimWindowExpiry claiming).line.state = .claiming ∧ (twice .claimWindowExpiry claiming).line.state = .run ∧
      ((after (.valueStale 0) answer).sensor.channels.get 0).stale = false ∧
      ((twice (.valueStale 0) answer).sensor.channels.get 0).stale = true := by decide +kernel
/-- The quiet time counts in START (R46), and stays while RESET is held and after a failed START (R194). -/
theorem test_quiet_time_in_start :
    let s := passTick { State.reset with spi := .reading }
    let failed := after (.imageReadComplete []) s
    s.scrub.quietLeft = some (sec 10 - 1) ∧ (passTick (after .resetAssert s)).scrub.quietLeft = some (sec 10) ∧
      failed.line.cause = some .config ∧ failed.scrub = Scrubber.reset ∧ (passTick failed).scrub = Scrubber.reset := by
  decide +kernel
/-- An own ACK empties slot 5 and, with "ANSWER MISSING" gone, slot 2: slot 2 is filled first (R96). -/
theorem test_slots_emptied_at_one_event :
    let n (c : NoticeCode) (st : NoticeState) : Notice := { code := c, raise := 9, state := st, detail := 0 }
    let hold (t : Tbl Bool 28) := (t.set NoticeCode.lineQuiet.index true).set NoticeCode.panelLost.index true
    let q : NoticeQueue := { cab.notices with
      slots := ((Tbl.fill 8 (some (n .profileBreach .active))).set 5 (some (n .lineLate .cleared))).set 2
        (some (n .answerMissing .active))
      waiting := hold cab.notices.waiting, holds := (hold cab.notices.holds).set NoticeCode.answerMissing.index true }
    let s := { withLine cab (fun u => { u with state := .quiet, sfc := 200 }) with
      notices := q
      panel := { cab.panel with page := .notices, answerMissing := true, snapshot := [⟨4, 25, 5, 1, 9, 2⟩] } }
    nextWaiting q = some .panelLost ∧
      ((after .keyAck s).notices.slots.get 2).map (·.code) = some .panelLost ∧
      ((after .keyAck s).notices.slots.get 5).map (·.code) = some .lineQuiet := by decide +kernel
/-- Rows from before a restart leave the map incomplete after a LOST until every one is replaced (R173). -/
theorem test_old_rows_do_not_complete_the_map :
    let rows : Tbl (Option RowEntry) 24 := .fill 24 (some { row := 0, advance := 0, cells := .fill 32 .cut })
    let s := { drive 4 with cabMap := { (drive 4).cabMap with rows := rows, held := true } }
    let lost : CutterPart := ⟨0, 0, 0, 0, false, false, false, 0, 0, 0, 2, 0, 0, 0, 0⟩
    s.mapComplete = some 0 ∧ (endHeld 0 lost s).mapComplete = none ∧ (endHeld 0 lost s).cabMap.held = false := by
  decide +kernel

/-! ## The hypotheses of the statements: a state and operands that meet them, clause by clause -/


def trip : NoticeEntry := { slot := 7, code := 11, cls := 0, state := 0, raise := 9, detail := 0 }
def stateFrame : StateFrame := { entries := [.answer ⟨0, 0, 0⟩], build := 1 }
def mapRow (k : Byte) : RowEntry := { row := k, advance := 3, cells := .fill 32 .solid }
def wholeMap : Tbl (Option RowEntry) 24 := Tbl.ofIdx 24 fun k => some (mapRow (BitVec.ofNat 8 k))

/-- A sound image: the drive of five stations, check appended. -/
def imageBody : List Byte :=
  [75, 86, 3, 20, 18, 103, 1, 2, 3, 0, 4, 0, 4, 0, 2, 2, 2, 2, 3, 2, 3, 2, 5, 4, 5, 10, 10, 10, 8, 10, 1, 96] ++
    List.replicate 8 1 ++ (List.replicate 128 [0, 0, 0, 1]).flatten ++ List.replicate 192 0x55 ++
    [32, 30, 0, 230, 0, 180, 4, 6, 60, 40, 0, 30, 0, 60, 5, 220, 11, 184, 30, 60, 0, 150, 0, 60, 15, 3, 232, 0, 0, 78,
     32, 0, 50, 0, 130, 0, 200, 0, 0, 19, 136, 30]
def imageWhole : List Byte := imageBody ++ be16 (crc16 imageBody)

theorem witness_StepTakesFront : step { State.reset with pending := [.keyUp] } = exec .keyUp { State.reset with pending := [] } :=
  rfl
theorem witness_IdleTakesDueOrTick : State.reset.pending = [] := rfl
theorem witness_PermitSoundKept :
    cutter.PermitSound ∧ ∃ t, step { cutter with pending := [.cutRequestChange true] } = .next t :=
  ⟨fun _ _ => by decide +kernel, _, rfl⟩
theorem witness_PermitOnNeedsNoReason :
    let s := { cutter with pending := [.cutRequestChange true] }
    State.reset.line.state = .start ∧ s.PermitSound ∧ step s = .next (after (.cutRequestChange true) cutter) ∧
      (after (.cutRequestChange true) cutter).isRole .cutter = true ∧
      (after (.cutRequestChange true) cutter).outputs.1 = true :=
  ⟨rfl, fun _ _ => by decide +kernel, rfl, by decide +kernel, by decide +kernel⟩
/-- Nothing stands in a slot of a CAB of the drive. -/
theorem cab_displaySound : cab.DisplaySound := by
  have q : ∀ i, cab.notices.slots.get i = none := by decide
  have r : ∀ n i, (cab.replica n).slots.get i = none := by decide
  have none : cab.candidatesNow = [] := by decide +kernel
  refine ⟨⟨.nil, by decide, fun i j x y h => ?_, fun i x h => ?_⟩, fun n i j x y h => ?_, .nil, fun _ _ => ⟨?_, ?_⟩⟩
  · rw [q] at h; cases h
  · rw [q] at h; cases h
  · rw [r] at h; cases h
  · rw [none]; exact .refl _
  · exact ⟨[], .refl _, .nil, fun _ => rfl, rfl⟩
theorem witness_DisplaySoundKept :
    cab.DisplaySound ∧ cab.live = true ∧ cab.isRole .cab = true ∧
      step { cab with pending := [.tripTaken 3 trip.bytes] } = .next (after (.tripTaken 3 trip.bytes) cab) ∧
      (after (.tripTaken 3 trip.bytes) cab).cab.list.head? = some { owner := 3, entry := trip } :=
  ⟨cab_displaySound, by decide, by decide, rfl, by decide +kernel⟩
theorem witness_StatusSoundKept : cab.StatusSound ∧ ∃ t, step { cab with pending := [.keyUp] } = .next t :=
  ⟨rfl, _, rfl⟩
theorem witness_LotRingSoundKept :
    let l : Lot := { number := 65535, advance := 0, count := 1, expected := 230, span := 0, isOpen := true }
    let s := { cutter with ring := { cutter.ring with lots := [l], issued := 0, retiredHeld := 65535 } }
    s.ring.lots.length ≤ 16 ∧ s.ring.issued = s.ring.retiredHeld + BitVec.ofNat 16 s.ring.lots.length ∧
      l.number = s.ring.retiredHeld + BitVec.ofNat 16 0 ∧ (after .dwellComplete s).ring.lots.length = 1 ∧
      ∃ t, step { s with pending := [.dwellComplete] } = .next t :=
  ⟨by decide, by decide, by decide, by decide +kernel, _, rfl⟩
theorem witness_AllowanceRisesAtPeriodStart :
    step { cutter with pending := [.periodStart] } = .next (after .periodStart cutter) ∧
      cutter.dust.remaining < (after .periodStart cutter).dust.remaining :=
  ⟨rfl, by decide +kernel⟩
theorem witness_StatePayloadReadsBack :
    entryFits (.status { common := common .cab, part := .cab ⟨3, true, true, 65535⟩ }) = true ∧
      entryFits (.status { common := { common .cab with role := 255 }, part := .none }) = true ∧
      entryFits (.row (mapRow 255)) = true := by decide
theorem witness_FramePayloadsReadBack :
    (∀ b ∈ [(0 : Byte), 0xA5, 0xFF], b ≠ 0xA6) ∧ [(1 : Byte), 13, 0, 255].length ≤ 4 ∧
      readKeyReport ([0, 0xA5, 0xFF] ++ keyReportBytes [1, 13, 0, 255]) = some [1, 13, 0, 255] := by decide
theorem witness_OwnFramePassesEveryCheck :
    payloadFits (OutFrame.claim claim).cls (OutFrame.claim claim).payload = true ∧
      payloadFits (OutFrame.trip trip).cls (OutFrame.trip trip).payload = true := by decide
theorem witness_CheckIsTheStatedSum :
    imageSound imageWhole = true ∧ (readKeyReport (keyReportBytes [1])).isSome = true ∧
      checkFrame (((OutFrame.claim claim).bytes 4).map fun b => { data := b, stopOk := true }) = none := by decide +kernel
theorem witness_SensorCheckIsTheStatedValue :
    let s := { cutter with sensor := { cutter.sensor with polled := some 0, assembly := .check 0x01 0x23 } }
    s.live = true ∧ characterValid s.cfg.parity 0xCD false true = true ∧ (s.cfg.channels.get 0).address = 0x10 ∧
      (0xCD : Byte) = sensorCheck 0x10 0x01 0x23 ∧ (0xCC : Byte) ≠ sensorCheck 0x10 0x01 0x23 := by decide +kernel
theorem witness_ImageReadRunsAndFails :
    State.reset.line.state = .start ∧ State.reset.resetHeld = false ∧ (∃ n, State.reset.spi = .waiting n) ∧
      readImage 0 [] = none ∧ readImage 3 imageWhole = none ∧
      ([((none : Option Bool), (none : Option Bool))].map fun c => misoReads c.2) = (bytesFromTop [0x80]).take 1 ∧
      ((bytesFromTop ([3, 0, 0, 0] ++ [75])).map fun b => ((none : Option Bool), some b)).map (fun c => misoReads c.2) =
        bytesFromTop ([3, 0, 0, 0] ++ [75]) :=
  ⟨rfl, rfl, ⟨_, rfl⟩, by decide +kernel, by decide +kernel, by decide, by decide⟩
theorem witness_ImageAcceptedEntersClaim :
    ({ State.powerOn 0 0 [] with spi := .reading } : State).line.state = .start ∧ (readImage 0 imageWhole).isSome = true := by
  decide +kernel
theorem witness_GapsAndContention :
    let w (k : Nat) := withLine cab fun u => { u with state := .withdrawn, idleGaps := some k }
    let q := withLine cab fun u => { u with state := .quiet, bus := .gap12, claim := some claim }
    let c (n : Nat) := withLine cab fun u => { u with state := .claiming, hfc := n, bus := .gap12, claim := some claim }
    (c 127).waitingFrame.isSome = true ∧ (c 127).line.hfc < 128 ∧ 128 ≤ (c 128).line.hfc ∧ (c 128).line.bus = .gap12 ∧
    (w 62).live = true ∧ (w 62).line.sending = none ∧ (w 63).cfg.autoRejoin = true ∧ q.live = true ∧
      q.line.bus = .gap12 ∧ q.waitingFrame.isSome = true ∧
      (withLine cab fun u => { u with claim := some claim }).waitingFrame.isSome = true := by decide +kernel
theorem witness_LineFaultsCount :
    let s (n : Nat) := withLine cab fun u =>
      { u with sfc := n, sending := some (.claim claim), order := some ⟨0, 1, .release, []⟩, stateSlot := some stateFrame }
    (s 247).live = true ∧ (s 247).line.sending = some (.claim claim) ∧ (s 247).line.sfc < 248 ∧ 248 ≤ (s 248).line.sfc ∧
      (OutFrame.map (mapRow 0)).cls ≠ .claim ∧ (s 0).line.stateSlot.isSome = true ∧ (s 0).line.order.isSome = true ∧
      (s 0).isRole .cutter = false ∧ (s 0).line.awaitsGap = false ∧
      (withLine (s 0) fun u => { u with awaitsGap := true }).live = true ∧ checkFrame [] = some (.length, none, 0) ∧
      checkFrame [{ data := 0x20, stopOk := true }, { data := 9, stopOk := true }] = some (.length, some .claim, 2) := by
  decide +kernel
theorem witness_SentWholeReports :
    let o : OrderFrame := ⟨4, 1, .mapRequest, []⟩
    let s (f : OutFrame) := { withLine cab (fun u =>
      { u with sending := some f, trip := [trip], claim := some claim, order := some o, map := some (mapRow 0), state := .claiming })
      with cabMap := { cab.cabMap with send := some { rows := .fill 24 (mapRow 0), next := 24 } } }
    let c := { withLine cutter (fun u => { u with sending := some (.order o), order := some o }) with
      recovery := { RecoveryUnit.reset with state := .restoring, request := some ⟨4, 1, none⟩ } }
    (s (.trip trip)).live = true ∧ (s (.trip trip)).line.trip = trip :: [] ∧ (s (.claim claim)).line.claim = some claim ∧
      (s (.order o)).line.order = some o ∧ (s (.order o)).isRole .cab = true ∧
      (s (.map (mapRow 0))).line.map = some (mapRow 0) ∧ (s (.map (mapRow 0))).cabMap.send.isSome = true ∧
      (s (.state stateFrame)).line.sending = some (.state stateFrame) ∧ 0 < (s (.state stateFrame)).claim.r ∧
      c.live = true ∧ c.isRole .cutter = true ∧ c.isPresent .cab 4 = true := by decide +kernel
/-- Of two rows, two notice slots and a tag range record carried, those marked before the build lose their marks, those marked
since keep them; what the frame does not carry stays marked, and the RETIRE entry it carries leaves. -/
theorem test_state_sent_whole_clears_what_it_carried :
    let e (slot : Byte) : NoticeEntry := { trip with slot := slot }
    let a : RetireEntry := { number := 1, outcome := 0, mass := 5 }
    let b : RetireEntry := { number := 2, outcome := 0, mass := 5 }
    let g : StateFrame := { build := 3, entries := [.notice (e 0), .notice (e 1), .retire a,
      .tag { bound := 4, record := true, state := 0, firstCol := 0, firstRow := 0, lastCol := 0, lastRow := 0 },
      .row (mapRow 5), .row (mapRow 6)] }
    let s := { withLine conveyor (fun u => { u with sending := some (.state g), stateSlot := some g }) with
      pub := { conveyor.pub with
        builds := 3, dropped := true, tagMarks := .fill 2 (some 2)
        rowMarks := ((Tbl.fill 24 none).set 5 (some 2)).set 6 (some 3) |>.set 7 (some 1) }
      notices := { conveyor.notices with marks := ((Tbl.fill 8 none).set 0 (some 1)).set 1 (some 3) |>.set 2 (some 0) }
      conv := { conveyor.conv with retires := [a, b] } }
    let t := after .stateSentWhole s
    (t.pub.rowMarks.get 5, t.pub.rowMarks.get 6, t.pub.rowMarks.get 7) = (none, some 3, some 1) ∧
      (t.pub.tagMarks.get 0, t.pub.tagMarks.get 1) = (some 2, none) ∧
      (t.notices.marks.get 0, t.notices.marks.get 1, t.notices.marks.get 2) = (none, some 3, some 0) ∧
      t.conv.retires = [b] ∧ t.pub.dropped = false := by decide +kernel
theorem witness_ClaimTakenStartsClaim :
    cab.line.state = .run ∧ cab.line.awaitsGap = false ∧ (2 : Station) ≠ cab.station ∧ claim.joining = false ∧ cab.serialChanged 2 claim = false := by
  decide +kernel
/-- The CUTTER in a line state, with a candidate of its own. -/
def claimingAt (st : LineState) : State :=
  { withLine cutter (fun u => { u with state := st }) with
    claim := { cutter.claim with candidate := some ((Tbl.fill 8 none).set 6 (some (candOf { claim with serial := 3 }))) } }
theorem witness_ClaimTakenByCase :
    let s := claimingAt .claiming
    let w := claimingAt .withdrawn
    s.hears = true ∧ w.hears = true ∧ cab.hears = true ∧ claimValue 1 6 < claimValue s.roleByte s.serial ∧
      claimValue s.roleByte s.serial ≤ claimValue 1 8 ∧ (4 : Station) ≠ s.station ∧ s.claim.candidate.isSome = true ∧
      w.serialChanged 4 claim = false ∧ s.serialChanged 4 { claim with serial := 8 } = true ∧
      cab.serialChanged 2 { claim with serial := 8 } = true ∧ cab.line.state = .run ∧
      s.boundRecord 4 = some 0 ∧ s.roleOf 4 = some .cab ∧ s.roleOf 3 = some .conveyor ∧ conveyor.roleOf 0 = some .cutter ∧
      (((withdrawnEntry 4 claim (acceptFrame 4 w)).claim.roster.mapIdx fun k (e : Option RosterEntry) => e.map fun e =>
        reassess (withdrawnEntry 4 claim (acceptFrame 4 w)) 4 (Fin.ofNat 8 k) e).get 0).map (·.state) = some .present := by
  decide +kernel
theorem witness_ClaimWindowClosesClaim :
    let cand := (Tbl.fill 8 none).set 4 (some (candOf claim))
    let s (c : Option ClaimFrame) (cand : Tbl (Option CandEntry) 8) : State :=
      { withLine cab (fun u => { u with state := .claiming, claim := c }) with
        claim := { cab.claim with window := some 0, candidate := some cand } }
    let three := ((cand.set 0 (some (candOf claim))).set 2 (some (candOf claim)))
    let every : Image := { image with stations := .fill 8 { StationCfg.blank with role := some .cab } }
    (s none cand).line.awaitsGap = false ∧ ((s none cand).claim.window, (s none cand).restarted) = (some 0, []) ∧ (0 : Ticks) < ms 100 ∧
    (s none cand).line.state = .claiming ∧ (s (some claim) cand).line.claim ≠ none ∧
      ((closedRoster (s none cand) cand).get 4).map (·.state) = some .present ∧
      ((closedRoster { s none three with image := every } three).get 4).map (·.state) = some .excluded := by decide +kernel
/-- The CUTTER in a claim that CAB 6 answers and CAB 4 does not, with recovery enabled and record 0 bound to CAB 4. -/
def cutterCloses (closed : Bool) : State :=
  { withLine cutter (fun u => { u with state := .claiming }) with
    image := { image with stations := image.stations.set 0 { image.stations.get 0 with mapRecovery := true } }
    replicas := cutter.replicas.set 6 (replicaOf .cab (.cab { vigilance := 0, duty := true, mapComplete := true, mapAdvance := 3 }))
    claim := { cutter.claim with
      closed := closed, window := some 0
      candidate := some (((Tbl.fill 8 none).set 0 (some (candOf (ownClaim cutter)))).set 6 (some (candOf claim))) } }
/-- Both clauses of a CUTTER's close are met, and what it does there (R8, R62, R174). -/
theorem witness_cutterCloses :
    let s := cutterCloses false
    let t := after .claimWindowExpiry s
    (s.line.state, s.line.claim, s.isRole .cutter, s.claim.closed, s.cfg.mapRecovery, s.recovery.request) =
        (.claiming, none, true, false, true, none) ∧ s.restarted = [] ∧
      (s.claim.candidate.map fun c => ((closedRoster s c).get 0).map (·.state)) = some (some .present) ∧
      t.face.tags.get 0 = ⟨some 6, .none⟩ ∧ t.face.tags.get 1 = ⟨none, .none⟩ ∧ t.dust.position = some 0 ∧
      t.recovery.request = some ⟨6, 1, none⟩ ∧ t.line.order = some ⟨6, 1, .mapRequest, []⟩ ∧
      (cutterCloses true).claim.closed = true ∧ (after .claimWindowExpiry (cutterCloses true)).dust = cutter.dust := by
  decide +kernel
theorem witness_SilenceAndWatchExpire :
    cab.hears = true ∧ cab.live = true ∧ cab.entry 0 = some (rosterEntry .cutter) ∧ (rosterEntry .cutter).state = .present ∧
      (rosterEntry .cutter).silence = some 100 ∧ 100 < tenMs (3 * cab.claim.r) ∧ cab.line.state = .run ∧
      ({ cab with claim := { cab.claim with watch := some 799 } } : State).line.awaitsGap = false ∧ 799 < tenMs (4 * cab.claim.r) ∧
      cab.claim.watch.isSome = true ∧ cab.restarted = [] := by decide +kernel
/-- A CUTTER that restores its map from station 4. -/
def restoring : State :=
  { cutter with recovery := { RecoveryUnit.reset with
      state := .restoring, source := some 4, request := some { source := 4, number := 1, timer := some 0 } } }
theorem witness_StatusEntryTaken :
    let p : PendingOrder := ⟨9, 0, .tagFirst, [], some { elapsed := 0, limit := 60 }⟩
    cab.hears = true ∧ cutter.hears = true ∧ (0 : Station) ≠ cab.station ∧ cab.entry 0 = some (rosterEntry .cutter) ∧
      statusFits { common := common .scrubber, part := .scrubber ⟨0, 0, false, 0, 0, 0⟩ } = true ∧
      conveyor.hears = true ∧ (acceptFrame 0 conveyor).presentOf .cutter = some 0 ∧
      (acceptFrame 4 conveyor).presentOf .cutter ≠ some 4 ∧ conveyor.conv.records.length < 16 ∧
      (acceptFrame 3 cutter).presentOf .conveyor = some 3 ∧ cutter.openLot = none ∧
      precedes cutter.ring.issued 1 = true ∧ precedes (committedCount cutter.ring.issued false) 0 = false ∧
      (acceptFrame 0 cab).presentOf .cutter = some 0 ∧
      ({ cab with panel := { cab.panel with orders := [p] } } : State).panel.orders.find?
        (fun q => q.number == 9 && q.target == 0 && q.sent.isSome) = some p := by decide +kernel
/-- A STATUS and a NOTICE from a number without a roster entry: the claim starts and the replica is taken; from the own number
the claim starts and none is; the RETIRE entries of a CAB (R149, R168). -/
theorem witness_stateEntriesTaken :
    let status : Entry := .status { common := { common .scrubber with mask := 128 }, part := .scrubber ⟨0, 0, false, 0, 0, 0⟩ }
    let payload := status.bytes ++ (Entry.notice trip).bytes
    let retires := (Entry.retire ⟨1, 0, 5⟩).bytes ++ (Entry.retire ⟨2, 0, 6⟩).bytes
    let t := after (.stateTaken 5 payload) cab
    payloadFits .state payload = true ∧ payloadFits .state retires = true ∧ readEntries payload = [status, .notice trip] ∧
      (cab.hears, cab.line.state, cab.entry 5) = (true, .run, none) ∧ (5 : Station) ≠ cab.station ∧
      (cab.entry 3).isSome = true ∧ (withLine cab fun u => { u with state := .withdrawn }).hears = true ∧
      (t.line.state, (t.replica 5).slots.get 7, t.claim.window) = (.claiming, some trip, some (ms 100)) ∧
      (after (.stateTaken 4 payload) cab).replicas = cab.replicas ∧ (after (.stateTaken 4 payload) cab).line.state = .claiming ∧
      (after (.stateTaken 3 retires) cab).cabMap.retires = [(3, ⟨2, 0, 6⟩), (3, ⟨1, 0, 5⟩)] := by decide +kernel
theorem witness_TripAndMapTaken :
    cab.hears = true ∧ restoring.hears = true ∧ (3 : Station) ≠ cab.station ∧ trip.slot = BitVec.ofNat 8 (7 : Fin 8).val ∧
      (cab.isRole .cab, cab.cab.firstOut) = (true, none) ∧
      (after (.tripTaken 3 trip.bytes) cab).cab.firstOut = some { owner := 3, code := 11, raise := 9 } ∧
      restoring.isRole .cutter = true ∧ (mapRow 23).row = BitVec.ofNat 8 (23 : Fin 24).val ∧
      sameAdvance (restoring.recovery.buffer.set 23 (some (mapRow 23))) = none ∧
      sameAdvance (wholeMap.set 23 (some (mapRow 23))) = some 3 := by decide +kernel
theorem witness_RecoveryTimesExpire :
    restoring.live = true ∧ restoring.recovery.state = .restoring ∧
      (restoring.recovery.request.bind (·.timer)).isSome = true := by decide +kernel
theorem witness_PublicationPlacesState :
    let s := { cab with pub := { cab.pub with timer := some 0, early := true } }
    s.live = true ∧ s.pub.timer.isSome = true ∧ s.line.stateSlot = none := by decide
/-- The premises of an order at station `s` from a CAB that its roster shows PRESENT. -/
def orderPremises (s : State) : Bool :=
  s.hears && s.role.isSome && s.pub.answers.length < 4 && (acceptFrame 4 s).isPresent .cab 4
theorem witness_TagOrdersNameARange :
    let first := { cutter with face := { cutter.face with tags := cutter.face.tags.set 0 ⟨some 4, .first ⟨0, 9⟩⟩ } }
    orderPremises first = true ∧ first.boundRecord 4 = some 0 ∧ first.recovery.state ≠ .restoring ∧
      argCell [31, 23] = some ⟨31, 23⟩ ∧ argCell [32, 23] = none ∧ argCell [31, 24] = none ∧
      lastCellFits ⟨0, 9⟩ ⟨0, 9⟩ = true ∧ lastCellFits ⟨0, 9⟩ ⟨31, 10⟩ = true ∧ lastCellFits ⟨0, 9⟩ ⟨30, 10⟩ = false ∧
      lastCellFits ⟨0, 9⟩ ⟨31, 8⟩ = false := by decide +kernel
theorem witness_ReleaseAndWithdrawWorkOnTheRange :
    orderPremises cutter = true ∧ cutter.isRole .cutter = true ∧ cutter.boundRecord 4 = some 0 ∧
      cutter.recovery.state ≠ .restoring ∧ (cutter.face.tags.get 0).range = .range ⟨0, 9⟩ ⟨31, 9⟩ ∧
      (9 : Fin 24) ∈ rangeRows ⟨0, 9⟩ ⟨31, 9⟩ ∧
      ({ cutter with face := { cutter.face with temp := 0b100 } } : State).zoneProtected (zoneOf 9) = true ∧
      cutter.zoneProtected (zoneOf 9) = false := by decide +kernel
theorem witness_ProtectAndUnprotectZones :
    argZone [5] = some 5 ∧ argZone [6] = none ∧
      ({ cutter with image := { image with permZones := 0b100000 } } : State).image.permZones.getLsbD 5 = true ∧
      cutter.zoneProtected 5 = false := by decide +kernel
theorem witness_ProtectOverTheHeadStopsThePermit :
    cutter.permitOn = true ∧ cutter.permit.head = some ⟨16, 10⟩ ∧ argZone [2] = some 2 ∧ zoneOf 10 = 2 ∧
      cutter.zoneProtected 2 = false := by decide +kernel
theorem witness_AdvanceStartsANewFace :
    let done := { cutter with
      face := { cutter.face with cells := .fill 24 (.fill 32 .cut) }
      permit := { cutter.permit with state := .held }
      inputs := { cutter.inputs with i0 := false } }
    orderPremises done = true ∧ done.boundRecord 4 = some 0 ∧ done.permit.state = .held ∧ done.faceComplete = true ∧
      cutter.permit.state ≠ .held := by decide +kernel
/-- A refused ADVANCE leaves the ring; with the permit off at that moment, the open lot is committed (R16, R80). -/
theorem test_refused_advance_leaves_the_ring :
    let l : Lot := { number := 0, advance := 0, count := 1, expected := 230, span := 0, isOpen := true }
    let s := { cutter with ring := { cutter.ring with lots := [l], issued := 1 } }
    let off := { s with dust := { s.dust with remaining := 0 } }
    (after (.advance 4 1) s).ring = s.ring ∧ (after (.advance 4 1) s).permitOn = true ∧
      (after (.advance 4 1) off).permitOn = false ∧ (after (.advance 4 1) off).ring.lots = [{ l with isOpen := false }] := by
  decide +kernel
theorem witness_ScrubberOrders :
    orderPremises scrubber = true ∧ scrubber.isRole .scrubber = true ∧ scrubber.scrub.fan.runs = false ∧
      (FanState.running).runs = true := by decide +kernel
theorem witness_ConveyorOrders :
    orderPremises conveyor = true ∧ conveyor.isRole .conveyor = true ∧
      ({ conveyor with conv := { conveyor.conv with state := .fault } } : State).inputs.i2 = false := by decide +kernel
theorem witness_MapRequestStartsASend :
    let whole := { cab with cabMap := { cab.cabMap with rows := wholeMap, held := true } }
    cab.hears = true ∧ cab.isRole .cab = true ∧ (acceptFrame 0 cab).isPresent .cutter 0 = true ∧
      (acceptFrame 0 cab).mapComplete = none ∧ (acceptFrame 0 whole).mapComplete = some 3 := by decide +kernel
/-- The CUTTER in STOPPED with the breach notice in slot 7 in a state. -/
def stoppedWith (st : NoticeState) : State :=
  { cutter with
    permit := { cutter.permit with state := .stopped, breachEntered := true }
    notices := { cutter.notices with
      slots := cutter.notices.slots.set 7 (some { code := .profileBreach, raise := 9, state := st, detail := 0 }), order := [7] } }
theorem witness_ackReleasesTheBreach :
    let s := stoppedWith .cleared
    orderPremises s = true ∧ s.isRole .cutter = true ∧ argByte [7, 9] 0 = BitVec.ofNat 8 (7 : Fin 8).val ∧
      argByte [7, 9] 1 = 9 ∧ s.permit.state = .stopped ∧
      (∀ j, (s.notices.slots.get j).map (·.code) = some .profileBreach → j = 7) ∧
      s.notices.waiting.get NoticeCode.profileBreach.index = false := by decide +kernel
theorem witness_AckMatchesSlotAndRaise :
    let n (st : NoticeState) : Notice := { code := .vigilanceLapsed, raise := 9, state := st, detail := 0 }
    let s (st : NoticeState) := { cab with notices := { cab.notices with slots := cab.notices.slots.set 7 (some (n st)) } }
    orderPremises cab = true ∧ (s .active).notices.slots.get 7 = some (n .active) ∧ (n .active).state ≠ .cleared ∧
      (s .cleared).notices.slots.get 7 = some (n .cleared) ∧
      (∀ i : Fin 8, (8 : Byte) = BitVec.ofNat 8 i.val → (cab.notices.slots.get i).map (·.raise) ≠ some 9) := by decide +kernel
theorem witness_LineOrders :
    orderPremises cab = true ∧ orderPremises (withLine cab fun u => { u with state := .withdrawn }) = true := by
  decide +kernel
theorem witness_OrdersDroppedOrRefused :
    4 ≤ ({ cab with pub := { cab.pub with answers := List.replicate 4 ⟨0, 0, 0⟩ } } : State).pub.answers.length ∧
      ({ cab with pub := { cab.pub with answers := List.replicate 4 ⟨0, 0, 0⟩ } } : State).hears = true ∧ cab.hears = true ∧
      cutter.hears = true ∧ (.protect 4 1 [0], 1) ∈ [(Instr.protect 4 1 [0], 1)] ∧ 1 ≤ [(0 : Byte)].length ∧
      cab.isRole .cutter = false ∧ cab.isRole .scrubber = false ∧ cab.isRole .conveyor = false ∧ cutter.isRole .cutter = true ∧
      cutter.isRole .cab = false ∧ (acceptFrame 5 cutter).isPresent .cab 5 = false ∧ cutter.boundRecord 6 = none ∧
      (acceptFrame 4 cab).isPresent .cutter 4 = false ∧ orderPremises restoring = true ∧
      (restoring.boundRecord 4).isSome = true ∧ restoring.recovery.state = .restoring := by decide +kernel
theorem witness_RaiseRenewsEntersOrWaits :
    let full (c : NoticeCode) : NoticeQueue := { cab.notices with
      slots := .fill 8 (some { code := c, raise := 1, state := .active, detail := 0 }), order := eight }
    cab.notices.slotOf .vigilance = none ∧ freeSlot cab.notices = some 0 ∧ (full .vigilance).slotOf .vigilance = some 0 ∧
      (full .answerMissing).slotOf .vigilance = none ∧ freeSlot (full .answerMissing) = none ∧
      oldestNote (full .answerMissing) = some 0 ∧ oldestNote (full .vigilance) = none := by decide +kernel
/-- The SCRUBBER with fan and wash states given. -/
def fanAt (f : FanState) (w : WashState) : State := { scrubber with scrub := { scrubber.scrub with fan := f, wash := w } }
/-- A state whose conditions are held as they stand. -/
def judgedAt (s : State) : State :=
  { s with notices := { s.notices with holds := Tbl.ofIdx 28 fun k => (NoticeCode.all[k]?.map s.condition).getD false } }
theorem witness_noticesJudged :
    (judgedAt cab).live = true ∧ (judgedAt cab).NoticesJudged ∧
      step { judgedAt cab with pending := [.keyUp] } = .next (after .keyUp (judgedAt cab)) := by
  refine ⟨by decide, fun _ c hc => ?_, rfl⟩
  rw [← condition_iff]; revert hc; cases c <;> decide +kernel
/-- One condition gone false, or true, among conditions that stand; a waiting code of each class; and a notice in each case of
the clearing. -/
theorem witness_oneConditionChanges :
    let n (st : NoticeState) : Notice := { code := .fanFault, raise := 9, state := st, detail := 0 }
    let was := judgedAt (fanAt .fault .clear)
    let s := { was with
      scrub := { was.scrub with fan := .stopped }
      notices := { was.notices with
        slots := was.notices.slots.set 0 (some (n .active))
        waiting := (was.notices.waiting.set NoticeCode.lineLate.index true).set NoticeCode.dustAction.index true } }
    let r := { judgedAt scrubber with scrub := { scrubber.scrub with fan := .fault } }
    (∀ k ∈ NoticeCode.all, k ≠ .fanFault → s.notices.holds.get k.index = s.condition k ∧ r.notices.holds.get k.index = r.condition k) ∧
      (s.isRole .cutter, s.notices.holds.get NoticeCode.fanFault.index, s.condition .fanFault) = (false, true, false) ∧
      (r.notices.holds.get NoticeCode.fanFault.index, r.condition .fanFault, s.condition .stationSilent) = (false, true, false) ∧
      (freeSlot s.notices, nextWaiting s.notices, s.notices.slotOf .fanFault) = (some 1, some .lineLate, some 0) ∧
      NoticeCode.fanFault.cls ≠ .note ∧ (n .acked).state = .acked ∧ (n .cleared).state ≠ .active ∧
      s.notices.slotOf .lineLate = none := by decide +kernel
/-- SCRUB_RESET ends the condition of "FAN FAULT": ACTIVE becomes CLEARED in its slot, ACKED leaves (R50, R97). -/
theorem test_condition_gone_false :
    let s (st : NoticeState) : State :=
      let f := judgedAt (fanAt .fault .clear)
      { f with notices := { f.notices with
        slots := f.notices.slots.set 3 (some { code := .fanFault, raise := 9, state := st, detail := 0 }), order := [3] } }
    (after (.scrubReset 4 1) (s .active)).notices.slots.get 3 = some { code := .fanFault, raise := 9, state := .cleared, detail := 0 } ∧
      (after (.scrubReset 4 1) (s .acked)).notices.slots.get 3 = none ∧ (after (.scrubReset 4 1) (s .acked)).notices.order = [] := by
  decide +kernel
theorem witness_CutterInputsAndPoseExpiry : cutter.live = true ∧ cutter.isRole .cutter = true ∧ cutter.permit.fresh = true := by
  decide +kernel
theorem witness_debounce :
    let due := { scrubber with pins := scrubber.pins.set 1 ⟨false, some 0⟩ }
    (scrubber.live, scrubber.inputs.get 0, (0 < ms 20 : Bool), State.reset.live) = (true, false, true, false) ∧
      (scrubber.role.bind fun r => r.inputChange 0 true) = some (.fanProvenChange true) ∧
      (scrubber.role.bind fun r => r.inputChange 3 true) = none ∧ due.dueAlways = none ∧
      due.inputDue 1 = some (.sprayPressureChange true) ∧ due.inputDue 0 = none ∧
      dueCommand due = some (.sprayPressureChange true) := by decide +kernel
/-- A level steady for 20 ms makes the change due and a shorter one does not (R189). -/
theorem test_debounce_takes_20_ms :
    let low := scrubber.withPinLevel 0 false
    (passTick^[79] low).inputDue 0 = none ∧ (passTick^[80] low).inputDue 0 = some (.fanProvenChange true) ∧
      (passTick^[9] ((passTick^[79] low).withPinLevel 0 true)).inputDue 0 = none ∧
      (passTick^[80] (scrubber.withPinLevel 3 false)).inputs.i3 = true := by decide +kernel
theorem witness_PoseGivesTheHeadCell :
    let at5 (s : State) := { s with sensor := { s.sensor with polled := some 0, assembly := .check 0 5 } }
    let s := at5 cutter
    s.live = true ∧ (s.cfg.channels.get 0).meaning = .poseX ∧ s.channelOf .poseX = some 0 ∧
      characterValid s.cfg.parity (sensorCheck 0x10 0 5) true true = true ∧ headCellOf 30 5 300 = some ⟨16, 10⟩ ∧
      s.permitOn = true ∧ s.cell ⟨16, 10⟩ ≠ .outside ∧
      ({ s with face := { s.face with temp := 0b100 } } : State).zoneProtected (zoneOf 10) = true ∧
      (at5 (stoppedWith .acked)).permit.state = .stopped ∧ (at5 (stoppedWith .acked)).legalCell ⟨16, 10⟩ = true := by
  decide +kernel
theorem witness_DwellCompletesWithACredit :
    let at' (d : Ticks) := { cutter with permit := { cutter.permit with dwell := d } }
    let still := { cutter with inputs := ⟨true, false, false, false⟩ }
    (cutter.pending = [] ∧ dueCommand (at' (sec 3 - 2)) = none ∧ dueCommand (at' (sec 3 - 1)) = none ∧
      dueCommand still = none ∧ still.dwellRuns = false ∧ cutter.dwellOf (cutter.kind ⟨16, 10⟩) = sec 3) ∧
    cutter.permit.head = some ⟨16, 10⟩ ∧ cutter.dwellRuns = true ∧ cutter.openLot = none ∧ cutter.permit.superseded = false ∧
      ({ cutter with permit := { cutter.permit with superseded := true } } : State).live = true := by
  decide +kernel
theorem witness_DustTimesActOnTheAllowance :
    cutter.dust.position = some 5 ∧ cutter.dust.midDone = false ∧ cutter.permitOn = true ∧ 0 < cutter.dust.remaining := by decide
/-- Each case of a tick of the allowance, and the last unit's end (R65). -/
theorem witness_dustTick :
    let at' (left part : Nat) := { cutter with dust := { cutter.dust with remaining := left, fraction := part } }
    let off := { cutter with permit := { cutter.permit with state := .held } }
    cutter.pending = [] ∧ dueCommand (at' 900 0) = none ∧ dueCommand (at' 900 399) = none ∧ dueCommand (at' 1 399) = none ∧
      dueCommand off = none ∧ (off.permitOn, off.live, off.isRole .cutter) = (false, true, true) ∧
      ((passTick (at' 900 399)).dust.remaining, (passTick (at' 900 399)).dust.used) = (899, 101) ∧
      (passTick off).dust.remaining = 900 ∧ (passTick (at' 1 399)).dueCutter = some .allowanceExhausted ∧
      (0 : Ticks) < tenth ∧ (0 + 1200) / tenth < cutter.dust.remaining := by decide +kernel
/-- The CUTTER's STATUS with demand, and a station that holds it. -/
def cutterPart (d : Bool) : CutterPart := ⟨0, 0, 0, 0, d, false, false, 0, 0, 0, 0, 0, 0, 0, 0⟩
def cutterStatus (d : Bool) : Instr := .stateTaken 0 (Entry.status ⟨common .cutter, .cutter (cutterPart d)⟩).bytes
def shows (d : Bool) (s : State) : State :=
  { s with replicas := s.replicas.set 0 (replicaOf .cutter (.cutter (cutterPart d))) }
theorem witness_FanFollowsProofAndTimes :
    (fanAt .starting .clear).live = true ∧ (fanAt .starting .clear).isRole .scrubber = true ∧ (fanAt .runOn .due).scrub.fan.runs = true ∧
      (fanAt .runOn .due).scrub.proofLoss = none ∧ (fanAt .runOn .due).demandShown = false ∧
      (fanAt .runOn .due).scrub.demand = false ∧ (0 : Station) ≠ scrubber.station ∧ scrubber.line.awaitsGap = false ∧
      (acceptFrame 0 scrubber).presentOf .cutter = some 0 ∧ (acceptFrame 0 scrubber).demandShown = false ∧
      (shows true scrubber).demandShown = true ∧ (acceptFrame 0 (shows true scrubber)).demandShown = true := by
  decide +kernel
/-- A washing SCRUBBER with both values held allows a quarter of the base allowance (R59). -/
theorem test_capacity_of_a_wash :
    let c (v : Word16) : Channel := { Channel.reset with value := some v, state := .good }
    let s := { fanAt .running .washing with
      image := { image with base := 40, stations := image.stations.set 2 { image.stations.get 2 with
        channels := ((image.stations.get 2).channels.set 0 ⟨0x10, .pressure, 4⟩).set 1 ⟨0x11, .dust, 4⟩ } }
      sensor := { scrubber.sensor with channels := (scrubber.sensor.channels.set 0 (c 900)).set 1 (c 10) } }
    s.isRole .scrubber = true ∧ s.capacity = 10 ∧ { s with scrub := { s.scrub with wash := .clear } }.capacity = 40 ∧
      (fanAt .stopped .clear).capacity = 0 := by decide +kernel
/-- The STATUS of the CUTTER moves the fan, the conveyor and the vigilance check (R46, R69, R109). -/
theorem test_demand_change :
    let fan (f : FanState) (d : Bool) := (after (cutterStatus d) { shows (!d) (fanAt f .clear) with
      scrub := { (fanAt f .clear).scrub with demand := !d } }).scrub
    let conv (st : ConvState) (d : Bool) := (after (cutterStatus d) { shows (!d) conveyor with
      conv := { conveyor.conv with state := st, runDemand := !d } }).conv
    let vig (v : VigState) (d : Bool) := (after (cutterStatus d) { shows (!d) cab with
      cab := { cab.cab with standing := true, vig := v, demand := !d } }).cab
    ((fan .stopped true).fan, (fan .stopped true).startWindow) = (.starting, some (sec 20)) ∧
      ((fan .running false).fan, (fan .running false).runOn) = (.runOn, some (sec 120)) ∧
      (fan .runOn true).fan = .running ∧ (fan .fault true).fan = .fault ∧ (fan .stopped true).quietLeft = some (sec 10) ∧
      (conv .stopped true).state = .warning ∧ (conv .running false).state = .runOff ∧
      (conv .runOff true).state = .chainStarting ∧ (vig .idle true).period = some (sec 30) ∧
      (vig .running true).vig = .running ∧ (vig .warned false).vig = .idle ∧ (vig .lapsed false).vig = .lapsed := by
  decide +kernel
/-- A station whose channel 0 of a meaning awaits the check of the value 2000. -/
def answering (m : Meaning) (s : State) : State :=
  { s with
    image := { s.image with
      stations := s.image.stations.set s.station { s.cfg with channels := s.cfg.channels.set 0 ⟨0x10, m, 4⟩ } }
    sensor := { s.sensor with polled := some 0, assembly := .check 0x07 0xD0 } }
def answered (m : Meaning) (s : State) : State :=
  after (.sensorCharacter (sensorCheck 0x10 0x07 0xD0) false true) (answering m s)
theorem test_good_answer_by_meaning :
    ((answered .dust scrubber).scrub.dust, (answered .dust scrubber).scrub.dustLimit) = (some 2000, true) ∧
      ((answered .pressure scrubber).scrub.pressure, (answered .pressure scrubber).scrub.wash) = (some 2000, .due) ∧
      (answered .massRate conveyor).rateHeld = 2000 ∧ (answered .chainLoad conveyor).conv.load = some 2000 ∧
      (answered .massRate scrubber).scrub = (after .quietWaitEnd scrubber).scrub := by decide +kernel
theorem witness_WashFollowsItsTimes :
    (answering .dust scrubber).live = true ∧ (answering .dust scrubber).channelOf .dust = some 0 ∧
      (answering .pressure scrubber).channelOf .pressure = some 0 ∧ (answering .dust scrubber).channelOf .pressure ≠ some 0 ∧
      characterValid (answering .dust scrubber).cfg.parity (sensorCheck 0x10 0x07 0xD0) false true = true ∧
    scrubber.pending = [] ∧ dueCommand scrubber = none ∧ scrubber.resetHeld = false ∧ dueCommand State.reset = none ∧
      State.reset.live = false ∧ State.reset.line.cause = none ∧
      dueCommand (withLine State.reset fun u => { u with state := .inactive, cause := some .config }) = none ∧
      dueCommand { State.reset with resetHeld := true } = none ∧
    (fanAt .running .due).scrub.wash = .due ∧ (fanAt .running .due).demandShown = false ∧
      (fanAt .running .washing).scrub.wash = .washing ∧ (fanAt .running .settling).scrub.wash = .settling := by decide +kernel
/-- The CONVEYOR in a state of its sequence. -/
def convAt (st : ConvState) : State := { conveyor with conv := { conveyor.conv with state := st, standing := true } }
theorem witness_ConveyorStartsAndStopsInSequence :
    (answering .massRate conveyor).channelOf .massRate = some 0 ∧ (answering .chainLoad conveyor).channelOf .chainLoad = some 0 ∧
      (answering .massRate conveyor).channelOf .chainLoad ≠ some 0 ∧
    (convAt .warning).live = true ∧ (convAt .warning).isRole .conveyor = true ∧ (convAt .warning).inputs.i0 = false ∧
      conveyor.line.awaitsGap = false ∧ (convAt .beltStarting).inputs.i1 = false ∧ (convAt .chainStarting).wantsRun = true ∧
      ({ convAt .running with inputs := ⟨true, true, false, false⟩ } : State).inputs.i0 = true ∧
      (acceptFrame 0 conveyor).presentOf .cutter = some 0 ∧ (acceptFrame 0 conveyor).wantsRun = conveyor.conv.runDemand ∧
      (acceptFrame 0 (shows true conveyor)).wantsRun = true := by decide +kernel
theorem witness_ConveyorFaults :
    let s := { convAt .running with conv := { (convAt .running).conv with
      beltLoss := some 0, chainLoss := some 0, stall := some 0 } }
    s.conv.state ≠ .fault ∧ s.conv.beltLoss.isSome = true ∧ s.conv.chainLoss.isSome = true ∧ s.conv.stall.isSome = true ∧
      s.inputs.i2 = false := by decide
theorem witness_BeltTimeAndLots :
    let r : LotRec := { lot := { number := 0, advance := 0, count := 4, expected := 920, span := 0 }, arrival := 0, measured := 10 }
    let s (now : Nat) (isOpen : Bool) := { convAt .running with conv := { (convAt .running).conv with
      records := [r], windowOpen := isOpen, beltTime := now } }
    (s 0 true).conv.state.beltRuns = true ∧ (s 0 true).conv.records = r :: [] ∧ (s 600 false).lotOpening r ≤ 600 ∧
      (s 600 false).lotOpening r < (s 600 false).lotClose r ∧ (s 750 true).lotClose r ≤ 750 := by decide +kernel
/-- A CAB on duty. -/
def duty (v : VigState) (p : Timer) : State := { cab with cab := { cab.cab with standing := true, vig := v, pair := p } }
theorem witness_VigilanceTimesAndPair :
    (duty .running none).live = true ∧ (duty .running none).isVigilanceCab = (duty .running none).cab.standing ∧
      (duty .running none).demandShown = (duty .running none).cab.demand ∧ (duty .lapsed (some 1)).cab.pair.isSome = true ∧
      (duty .lapsed none).cab.pair = none ∧ (duty .running none).cab.superseded = false ∧
      (duty .idle none).line.awaitsGap = false ∧
      (acceptFrame 0 (duty .idle none)).presentOf .cutter = some 0 ∧ (acceptFrame 0 (duty .idle none)).demandShown = false ∧
      (acceptFrame 0 (duty .idle none)).isVigilanceCab = true := by decide +kernel
/-- CAB 6 becomes the vigilance CAB when CAB 4 goes SILENT, and stops being it when CAB 4 is heard again (R108). -/
theorem witness_standingChanges :
    let s := shows true (drive 6)
    let t := after (.silenceTimerExpiry 4) s
    let u := after (.orderOtherTarget 4 0) { t with cab := { t.cab with pair := some 1 } }
    (s.live, s.isRole .cab, s.cab.standing, t.live, t.isVigilanceCab, t.demandShown) = (true, true, false, true, true, true) ∧
      (t.cab.standing, t.cab.vig, t.cab.period) = (true, .running, some (sec 30)) ∧
      (u.live, u.isVigilanceCab, u.cab.standing, u.cab.vig, u.cab.period, u.cab.pair) = (true, false, false, .idle, none, none) := by
  decide +kernel
/-- A report that carries VIGIL_A, then VIGIL_B, and one that carries SELECT on a page with an offer. -/
theorem test_key_report_takes_its_keys :
    let s := { cab with panel := { cab.panel with page := .dust, keyWait := some 1, clocking := true } }
    let t := after (.keyReport (keyReportBytes [6])) s
    (Key.ofCode 12, Key.ofCode 13, Key.ofCode 6) = (some .vigilA, some .vigilB, some .select) ∧
      (t.panel.offer.map (·.kinds), t.panel.up) = (some [.washNow, .scrubReset], true) ∧
      (after (.keyReport (keyReportBytes [12, 13])) s).cab = (after .keyVigilB (after .keyVigilA { s with
        panel := { s.panel with up := true } })).cab := by
  decide +kernel
/-- ACK on a line of the CAB's own queue: the notice is ACKED there, the answer shown, no order entered. -/
theorem test_own_ack_reaches_the_queue :
    let x : Notice := { code := .answerMissing, raise := 9, state := .active, detail := 0 }
    let l : SnapLine := { owner := 4, code := 27, slot := 0, cls := 3, raise := 9, state := 0 }
    let s := { cab with
      notices := { cab.notices with slots := cab.notices.slots.set 0 (some x), order := [0], overflow := true }
      panel := { cab.panel with page := .notices, snapshot := [l] } }
    let t := after .keyAck s
    ((t.notices.slots.get 0).map (·.state), t.notices.overflow) = (some .acked, false) ∧
      t.panel.status = .answer .ack 4 (AnswerCode.code .done) ∧ t.panel.orders = [] := by
  decide +kernel
/-- A CAB on a page with an offer. -/
def onPage (p : Page) (o : Option Offer) : State := { cab with panel := { cab.panel with page := p, offer := o } }
theorem witness_KeysMoveAbout :
    (onPage .notices none).panel.page = .notices ∧
    (onPage .line none).isRole .cab = true ∧ (onPage .line none).panel.offer = none ∧ (onPage .face none).live = true ∧
      (onPage .dust (some { kinds := [.washNow, .scrubReset], chosen := 1 })).panel.offer.isSome = true := by decide +kernel
theorem witness_OffersOpenMoveAndCompose :
    let s := onPage .spoil (some { kinds := [.conveyOn, .conveyOff, .conveyReset], chosen := 2 })
    let silent := { onPage .line (some { kinds := [.clearFault, .relink], chosen := 1 }) with
      claim := { cab.claim with roster := cab.claim.roster.set 2 (some { rosterEntry .scrubber with state := .silent }) }
      panel := { (onPage .line (some { kinds := [.clearFault, .relink], chosen := 1 })).panel with lineSelection := 2 } }
    s.kindTarget .conveyReset = some 3 ∧ (3 : Station) ≠ s.station ∧ s.entryState 3 = some .present ∧
      s.panel.orders.length < 4 ∧ silent.entryState silent.panel.lineSelection = some .silent ∧
      silent.kindTarget .relink = some 2 ∧ (2 : Station) ≠ silent.station := by decide +kernel
theorem witness_FaceKeysComposeOrders :
    (onPage .face none).presentOf .cutter = some 0 ∧
      ({ onPage .face none with claim := ClaimUnit.reset 7 4 } : State).presentOf .cutter = none := by decide +kernel
theorem witness_AckKeyComposesOrClears :
    let l : SnapLine := { owner := 3, code := 12, slot := 0, cls := 0, raise := 1, state := 0 }
    let f : FirstOut := { owner := 3, code := 12, raise := 1 }
    let s := { onPage .firstOut none with
      panel := { (onPage .notices none).panel with snapshot := [l] }
      cab := { cab.cab with firstOut := some f, cands := [{ owner := 3, entry := { trip with code := 12 } }] } }
    ({ l with owner := 4 } : SnapLine).owner = cab.station ∧ s.panel.snapshot[s.panel.selection]? = some l ∧ l.owner ≠ s.station ∧ s.entryState l.owner = some .present ∧
      (s.firstOutCand f).map (·.entry.state) = some NoticeState.active.code ∧
      ((onPage .firstOut none).firstOutCand f).map (·.entry.state) ≠ some NoticeState.active.code := by decide +kernel
theorem witness_PanelLinkUpAndDown :
    let o : PendingOrder := ⟨1, 0, .release, [], some { elapsed := 60, limit := 60 }⟩
    let s := { cab with panel := { cab.panel with
      frameTimer := some 0, keyWait := some 0, clocking := true, missing := 2, up := true, orders := [o] } }
    ((bytesFromTop [0xA6]).map fun b => (false, b)).map (·.2) = bytesFromTop [0xA6] ∧
    (s.live, s.isRole .cab, s.panel.missing, s.panel.up, cab.panel.missing, cab.panel.up) = (true, true, 2, true, 0, false) ∧
    (Instr.keyVigilA, Key.vigilA) ∈ [(Instr.keyVigilA, Key.vigilA)] ∧ readKeyReport (keyReportBytes [12, 6]) = some [12, 6] ∧
    cab.panel.keyWait = none ∧ cab.panel.orders = [] ∧
    s.panel.frameTimer.isSome = true ∧ s.panel.keyWait.isSome = true ∧ s.panel.clocking = true ∧ readKeyReport (keyReportBytes []) = some [] ∧
      readKeyReport [] = none ∧ s.panel.orders.find? (fun q => q.number == o.number && q.sent.isSome) = some o := by
  decide +kernel
theorem witness_SensorPollsAndFailures :
    let at0 (a : Assembly) := { cutter with sensor := { cutter.sensor with polled := some 0, assembly := a } }
    characterValid cutter.cfg.parity 0xA5 false true = true ∧ characterValid cutter.cfg.parity 0xA5 false false = false ∧
      cutter.sensor.polled = none ∧ cutter.sensor.assembly = .hunt ∧ (at0 .channel).sensor.polled = some 0 ∧
      characterValid cutter.cfg.parity 0x10 false true = true ∧ (cutter.cfg.channels.get 0).address = 0x10 ∧
      (at0 .high).sensor.assembly = .high ∧ (at0 (.low 3)).sensor.assembly = .low 3 ∧
      (at0 (.check 0x01 0x23)).sensor.assembly = .check 0x01 0x23 ∧ (0xA5 : Byte) ≠ sensorCheck 0x10 0x01 0x23 ∧
    let c : Channel := { Channel.reset with value := some 5, due := true, next := some 0 }
    let s (a : Assembly) (p : Option (Fin 16)) := { cutter with sensor := { cutter.sensor with
      channels := cutter.sensor.channels.set 0 c, assembly := a, polled := p } }
    (s .hunt none).polledEntry 0 = true ∧ ((s .hunt none).sensor.channels.get 0).next.isSome = true ∧
      (s .hunt none).mayPoll = true ∧ (s .hunt none).nextPoll = some 0 ∧ (s .high (some 0)).sensor.assembly ≠ .hunt ∧
      (s .hunt none).sensor.broken = false ∧ ((s .hunt none).sensor.channels.get 0).stale = false ∧
      ({ c with age := 640 } : Channel).age = cutter.staleAge 0 ∧ cutter.restarted = [] := by decide +kernel

end Sys2Proof.Tests
end

section
/-! What power-on and the orders on the face map do: tag range records, rows, and the rules that reach them. -/

namespace Sys2Proof

/-! ## Tables -/

theorem Tbl.ext_get {α : Type} {n : Nat} {t u : Tbl α n} (h : ∀ i, t.get i = u.get i) : t = u :=
  Tbl.ext' (List.ext_getElem (t.size.trans u.size.symm) fun i hi _ => h ⟨i, t.size ▸ hi⟩)

@[simp] theorem Tbl.set_get_self {α : Type} {n : Nat} (t : Tbl α n) (i : Fin n) : t.set i (t.get i) = t :=
  Tbl.ext_get fun j => by
    rw [Tbl.get_set]; split
    · rename_i e; rw [e]
    · rfl

theorem mem_rows24 (r : Fin 24) : r ∈ rows24 := by revert r; decide

end Sys2Proof

namespace Sys2Proof.Machine

/-! ## Power-on (R191) -/

/-- Every pin keeps its level and stops its debounce time. -/
theorem restart_pins (straps : BitVec 3) (s : State) (k : Fin 4) :
    (restart straps s).pins.get k = { high := (s.pins.get k).high, left := none } := by simp [restart]

/-- The number of three straps is 4 S2 + 2 S1 + S0. -/
theorem straps_toNat : ∀ straps : BitVec 3,
    straps.toNat = 4 * (straps.getLsbD 2).toNat + 2 * (straps.getLsbD 1).toNat + (straps.getLsbD 0).toNat := by decide

/-- While RESET is held no read begins. -/
theorem startRead_held {s : State} (h : s.resetHeld = true) : startRead s = s := by
  simp [startRead, State.starting, h]

/-- Settles O16: each clause is read from the power-on state, and nothing starts while RESET is held. -/
theorem powerOnBeginsStart : Obligations.PowerOnBeginsStart := by
  intro straps s
  refine ⟨⟨restart straps s, rfl, rfl, rfl, straps_toNat straps, rfl, rfl, rfl, rfl, rfl, rfl, rfl, rfl, rfl, rfl, rfl,
    rfl, rfl, rfl, rfl, rfl, rfl, rfl, rfl, rfl, rfl, restart_pins straps s, rfl⟩, ?_⟩
  refine ⟨{ restart s.straps s with resetHeld := true }, rfl, rfl, rfl, rfl, rfl, fun c hc => ?_, restart_pins s.straps s, rfl⟩
  exact (Host.Outcome.next.inj (hc.symm.trans (congrArg Host.Outcome.next (startRead_held rfl))))

/-! ## Tag range records -/

/-- A tag range record replaced writes the records and the marks of the two, nothing else. -/
theorem setTag_eq (i : Fin 2) (t : TagRecord) (s : State) : setTag i t s = { s with
    face := { s.face with tags := s.face.tags.set i t }
    pub := { s.pub with tagMarks := (setTag i t s).pub.tagMarks } } := by
  unfold setTag; split
  · rename_i h; rw [← h, Tbl.set_get_self]
  · rfl

section
variable (i : Fin 2) (r : TagRange) (s : State)

theorem setTagRange_eq : setTagRange i r s = { s with
    face := { s.face with tags := s.face.tags.set i { s.face.tags.get i with range := r } }
    pub := { s.pub with tagMarks := (setTagRange i r s).pub.tagMarks } } := setTag_eq ..

@[simp] theorem setTagRange_face : (setTagRange i r s).face =
    { s.face with tags := s.face.tags.set i { s.face.tags.get i with range := r } } := by rw [setTagRange_eq]
@[simp] theorem setTagRange_answers : (setTagRange i r s).pub.answers = s.pub.answers := by rw [setTagRange_eq]
@[simp] theorem setTagRange_rowMarks : (setTagRange i r s).pub.rowMarks = s.pub.rowMarks := by rw [setTagRange_eq]
@[simp] theorem setTagRange_permit : (setTagRange i r s).permit = s.permit := by rw [setTagRange_eq]
@[simp] theorem setTagRange_inputs : (setTagRange i r s).inputs = s.inputs := by rw [setTagRange_eq]
@[simp] theorem setTagRange_image : (setTagRange i r s).image = s.image := by rw [setTagRange_eq]
@[simp] theorem setTagRange_recovery : (setTagRange i r s).recovery = s.recovery := by rw [setTagRange_eq]
@[simp] theorem setTagRange_line : (setTagRange i r s).line = s.line := by rw [setTagRange_eq]
@[simp] theorem setTagRange_ring : (setTagRange i r s).ring = s.ring := by rw [setTagRange_eq]
@[simp] theorem setTagRange_live : (setTagRange i r s).live = s.live := by rw [setTagRange_eq]; rfl
@[simp] theorem setTagRange_isRole (q : Role) : (setTagRange i r s).isRole q = s.isRole q := by rw [setTagRange_eq]; rfl

end

/-! An answer writes the answer queue alone. -/

section
variable (n : Station) (k : Byte) (a : AnswerCode) (s : State)

@[simp] theorem pushAnswer_answers : (pushAnswer n k a s).pub.answers =
    s.pub.answers ++ [{ requester := BitVec.ofNat 8 n.val, number := k, code := a.code }] := rfl
@[simp] theorem pushAnswer_rowMarks : (pushAnswer n k a s).pub.rowMarks = s.pub.rowMarks := rfl
@[simp] theorem pushAnswer_face : (pushAnswer n k a s).face = s.face := rfl
@[simp] theorem pushAnswer_permit : (pushAnswer n k a s).permit = s.permit := rfl
@[simp] theorem pushAnswer_recovery : (pushAnswer n k a s).recovery = s.recovery := rfl
@[simp] theorem pushAnswer_ring : (pushAnswer n k a s).ring = s.ring := rfl

end

/-! ## A face map order that reaches its rule (R9) -/

/-- The premises of a face map order: heard at a CUTTER that is not RESTORING and has room for an answer, from a PRESENT CAB
bound to record `i`. -/
structure State.TakesFaceOrder (s : State) (n : Station) (i : Fin 2) : Prop where
  hears : s.hears = true
  cutter : s.isRole .cutter = true
  room : s.pub.answers.length < 4
  present : (acceptFrame n s).isPresent .cab n = true
  bound : s.boundRecord n = some i
  notRestoring : s.recovery.state ≠ .restoring

/-- The sender's record as the order's rule finds it: the sequence break drops its range. -/
def breakRange (breaks : Bool) (i : Fin 2) (s : State) : State := if breaks then setTagRange i .none s else s

@[simp] theorem breakRange_false (i : Fin 2) (s : State) : breakRange false i s = s := rfl
@[simp] theorem breakRange_true (i : Fin 2) (s : State) : breakRange true i s = setTagRange i .none s := rfl

theorem faceOrder_rule {s : State} {n : Station} {i : Fin 2} (h : s.TakesFaceOrder n i) (breaks : Bool)
    (rule : Fin 2 → State → AnswerCode × State) :
    faceOrder breaks n rule (acceptFrame n s) = rule i (breakRange breaks i (acceptFrame n s)) := by
  simp [faceOrder, h.bound, State.fromCab, h.present, h.notRestoring, breakRange]

/-- The whole next state of a face map order: the end of the event after the rule and its answer. -/
theorem faceOrder_reaches {s : State} {n : Station} {i : Fin 2} (h : s.TakesFaceOrder n i) {kind : OrderKind}
    (hk : kind.takenBy .cutter = true) {args : List Byte} (ha : kind.argCount ≤ args.length) (h61 : args.length ≤ 61)
    (k : Byte) (breaks : Bool) (rule : Fin 2 → State → AnswerCode × State) {code : AnswerCode} {u : State}
    (hu : rule i (breakRange breaks i (acceptFrame n s)) = (code, u)) :
    orderEvent n k kind args (faceOrder breaks n rule) s = .next (finish s (pushAnswer n k code u)) := by
  rw [order_reaches h.hears h.room h.cutter hk ha h61, faceOrder_rule h, hu]

end Sys2Proof.Machine
end

section
namespace Sys2Proof.Machine

/-! ## Tag orders (R10, R11) -/

section
variable {args : List Byte} {i : Fin 2} {s : State}

theorem tagFirstRule_onGrid {c : Cell} (h : argCell args = some c) :
    tagFirstRule args i s = (.done, setTagRange i (.first c) s) := by simp [tagFirstRule, h]

theorem tagFirstRule_offGrid (h : argCell args = none) : tagFirstRule args i s = (.range, setTagRange i .none s) := by
  simp [tagFirstRule, h]

theorem tagLastRule_fits {a c : Cell} (hr : (s.face.tags.get i).range = .first a) (hc : argCell args = some c)
    (hf : lastCellFits a c = true) : tagLastRule args i s = (.done, setTagRange i (.range a c) s) := by
  simp [tagLastRule, hr, hc, hf]

theorem tagLastRule_misfit {a c : Cell} (hr : (s.face.tags.get i).range = .first a) (hc : argCell args = some c)
    (hf : lastCellFits a c = false) : tagLastRule args i s = (.range, setTagRange i .none s) := by
  simp [tagLastRule, hr, hc, hf]

theorem tagLastRule_offGrid {a : Cell} (hr : (s.face.tags.get i).range = .first a) (hc : argCell args = none) :
    tagLastRule args i s = (.range, setTagRange i .none s) := by simp [tagLastRule, hr, hc]

theorem tagLastRule_sequence (hr : ∀ a, (s.face.tags.get i).range ≠ .first a) :
    tagLastRule args i s = (.sequence, setTagRange i .none s) := by
  unfold tagLastRule; split
  · rename_i e _; exact absurd e (hr _)
  · rename_i e _; exact absurd e (hr _)
  · rfl

end

/-- A tag order whose rule answers with a code and writes the sender's range. -/
theorem tagOrder_next {s : State} {n : Station} {i : Fin 2} (o : s.TakesFaceOrder n i) {kind : OrderKind}
    (hk : kind.takenBy .cutter = true) {args : List Byte} (ha : kind.argCount ≤ args.length) (h61 : args.length ≤ 61)
    (k : Byte) {rule : Fin 2 → State → AnswerCode × State} {code : AnswerCode} {r : TagRange}
    (hu : rule i (acceptFrame n s) = (code, setTagRange i r (acceptFrame n s))) :
    ∃ t, orderEvent n k kind args (faceOrder false n rule) s = .next t ∧ t.face.cells = s.face.cells ∧
      t.face.temp = s.face.temp ∧ t.rest = (pushAnswer n k code (setTagRange i r (acceptFrame n s))).rest :=
  ⟨_, faceOrder_reaches o hk ha h61 k false rule hu, by simp , by simp , finish_rest _ _⟩

/-- Settles O32: the rest of the next state is that of the rule's branch, and a tag record's change leaves the cells. -/
theorem tagOrdersNameARange : Obligations.TagOrdersNameARange := by
  intro s n k args i h hears cutter room present bound notRestoring hargs h61
  have o : s.TakesFaceOrder n i := ⟨hears, cutter, room, present, bound, notRestoring⟩
  constructor
  · cases hc : argCell args with
    | none => exact tagOrder_next o (kind := .tagFirst) rfl hargs h61 k (tagFirstRule_offGrid hc)
    | some c => exact tagOrder_next o (kind := .tagFirst) rfl hargs h61 k (tagFirstRule_onGrid hc)
  · have face : h.face = s.face := acceptFrame_face n s
    cases hr : (s.face.tags.get i).range with
    | none => exact tagOrder_next o (kind := .tagLast) rfl hargs h61 k (tagLastRule_sequence (by simp [hr]))
    | range a b => exact tagOrder_next o (kind := .tagLast) rfl hargs h61 k (tagLastRule_sequence (by simp [hr]))
    | first a =>
      rw [← face] at hr
      cases hc : argCell args with
      | none => exact tagOrder_next o (kind := .tagLast) rfl hargs h61 k (tagLastRule_offGrid hr hc)
      | some c =>
        cases hf : lastCellFits a c with
        | true => simpa only [hf, if_true] using! tagOrder_next o (kind := .tagLast) rfl hargs h61 k (tagLastRule_fits hr hc hf)
        | false => simpa only [hf, Bool.false_eq_true, if_false] using!
            tagOrder_next o (kind := .tagLast) rfl hargs h61 k (tagLastRule_misfit hr hc hf)

/-! ## Rows of the map changed (R12, R13, R19) -/

/-- One row of the map as `setRows` changes it. -/
def setRow (f : Fin 24 → RowCells → RowCells) (s : State) (r : Fin 24) : State :=
  if f r (s.face.cells.get r) = s.face.cells.get r then s
  else markRow r { s with face := { s.face with cells := s.face.cells.set r (f r (s.face.cells.get r)) } }

theorem setRows_eq_foldl (f : Fin 24 → RowCells → RowCells) (s : State) : setRows f s = rows24.foldl (setRow f) s := rfl

section
variable (f : Fin 24 → RowCells → RowCells)

theorem setRow_cells (s : State) (r q : Fin 24) : (setRow f s r).face.cells.get q =
    if q = r then f r (s.face.cells.get r) else s.face.cells.get q := by
  unfold setRow; split
  · rename_i h; split
    · rename_i e; rw [e, h]
    · rfl
  · exact Tbl.get_set ..

theorem setRow_eq (s : State) (r : Fin 24) : setRow f s r = { s with
    face := { s.face with cells := (setRow f s r).face.cells }
    pub := { s.pub with rowMarks := (setRow f s r).pub.rowMarks } } := by
  unfold setRow; split <;> rfl

/-- A mark set stays, and a row that changes is marked. -/
theorem setRow_marks (s : State) (r q : Fin 24) (h : (s.pub.rowMarks.get q).isSome = true ∨
    (setRow f s r).face.cells.get q ≠ s.face.cells.get q) : ((setRow f s r).pub.rowMarks.get q).isSome = true := by
  by_cases e : f r (s.face.cells.get r) = s.face.cells.get r
  · have same : setRow f s r = s := by simp [setRow, e]
    rw [same] at h ⊢; exact h.resolve_right fun ne => ne rfl
  · have marked : (setRow f s r).pub.rowMarks = s.pub.rowMarks.set r (some s.pub.builds) := by simp [setRow, e, markRow]
    rw [setRow_cells] at h
    rw [marked, Tbl.get_set]
    split at h
    · rename_i eq; simp [eq]
    · rename_i ne; simpa [ne] using h

theorem setRows_eq (s : State) : setRows f s = { s with
    face := { s.face with cells := (setRows f s).face.cells }
    pub := { s.pub with rowMarks := (setRows f s).pub.rowMarks } } := by
  rw [setRows_eq_foldl]
  generalize rows24 = l
  induction l generalizing s with
  | nil => rfl
  | cons r l ih => rw [List.foldl_cons, ih, setRow_eq f s r]

theorem setRowList_cells (l : List (Fin 24)) (hl : l.Nodup) (s : State) (q : Fin 24) :
    (l.foldl (setRow f) s).face.cells.get q = if q ∈ l then f q (s.face.cells.get q) else s.face.cells.get q := by
  induction l generalizing s with
  | nil => simp
  | cons r l ih =>
    obtain ⟨hr, hl⟩ := List.nodup_cons.1 hl
    rw [List.foldl_cons, ih hl, setRow_cells]
    by_cases e : q = r
    · subst e; simp [hr]
    · simp [e]

/-- Every row of the map is given by the function. -/
theorem setRows_cells (s : State) (q : Fin 24) : (setRows f s).face.cells.get q = f q (s.face.cells.get q) := by
  rw [setRows_eq_foldl, setRowList_cells f _ (by decide), if_pos (mem_rows24 q)]

/-- A row whose cells change is marked (R19). -/
theorem setRows_marks (s : State) (q : Fin 24) (h : (s.pub.rowMarks.get q).isSome = true ∨
    (setRows f s).face.cells.get q ≠ s.face.cells.get q) : ((setRows f s).pub.rowMarks.get q).isSome = true := by
  rw [setRows_eq_foldl] at h ⊢
  generalize rows24 = l at h ⊢
  induction l generalizing s with
  | nil => exact h.resolve_right fun ne => ne rfl
  | cons r l ih =>
    refine ih _ ?_
    by_cases e : (setRow f s r).face.cells.get q = s.face.cells.get q
    · rcases h with h | h
      · exact .inl (setRow_marks f s r q (.inl h))
      · exact .inr (by rw [e]; exact h)
    · exact .inl (setRow_marks f s r q (.inr e))

end

/-! ## RELEASE and WITHDRAW -/

section
variable (a b : Cell) (src dst : CellState) (s : State)

theorem changeRange_eq : changeRange a b src dst s = { s with
    face := { s.face with cells := (changeRange a b src dst s).face.cells }
    pub := { s.pub with rowMarks := (changeRange a b src dst s).pub.rowMarks } } := by unfold changeRange; exact setRows_eq _ s

@[simp] theorem changeRange_tags : (changeRange a b src dst s).face.tags = s.face.tags := by rw [changeRange_eq]
@[simp] theorem changeRange_temp : (changeRange a b src dst s).face.temp = s.face.temp := by rw [changeRange_eq]
@[simp] theorem changeRange_advance : (changeRange a b src dst s).face.advance = s.face.advance := by rw [changeRange_eq]
@[simp] theorem changeRange_answers : (changeRange a b src dst s).pub.answers = s.pub.answers := by rw [changeRange_eq]
@[simp] theorem changeRange_permit : (changeRange a b src dst s).permit = s.permit := by rw [changeRange_eq]
@[simp] theorem changeRange_line : (changeRange a b src dst s).line = s.line := by rw [changeRange_eq]
@[simp] theorem changeRange_image : (changeRange a b src dst s).image = s.image := by rw [changeRange_eq]
@[simp] theorem changeRange_station : (changeRange a b src dst s).station = s.station := by rw [changeRange_eq]
@[simp] theorem changeRange_live : (changeRange a b src dst s).live = s.live := by simp [State.live]
@[simp] theorem changeRange_isRole (r : Role) : (changeRange a b src dst s).isRole r = s.isRole r := by
  simp [State.isRole, State.role, State.cfg]

/-- A row that changes is marked. -/
theorem changeRange_marks (q : Fin 24) (h : (changeRange a b src dst s).face.cells.get q ≠ s.face.cells.get q) :
    ((changeRange a b src dst s).pub.rowMarks.get q).isSome = true := by
  unfold changeRange at h ⊢; exact setRows_marks _ s q (.inr h)

/-- The cells of the range in one state change to the other; every other cell keeps its state. -/
theorem changeRange_cell (c : Cell) : (changeRange a b src dst s).cell c =
    if inRange a b c = true ∧ s.cell c = src then dst else s.cell c := by
  have hk : (⟨Fin.ofNat 32 c.col.val, c.row⟩ : Cell) = c := by
    cases c with | mk col row => simp [Fin.ofNat, Nat.mod_eq_of_lt col.isLt]
  unfold State.cell changeRange
  rw [setRows_cells, Tbl.get_mapIdx, hk]
  simp [and_comm]

end

end Sys2Proof.Machine
end

section
namespace Sys2Proof.Machine

@[simp] theorem acceptFrame_cell (n : Station) (s : State) (c : Cell) : (acceptFrame n s).cell c = s.cell c := by
  simp [State.cell]

@[simp] theorem acceptFrame_zoneProtected (n : Station) (s : State) (z : Nat) :
    (acceptFrame n s).zoneProtected z = s.zoneProtected z := by simp [State.zoneProtected]

/-- `v` is `s` but for the cells of the map and the rows' marks. -/
def CellsOnly (s v : State) : Prop :=
  v = { s with face := { s.face with cells := v.face.cells }, pub := { s.pub with rowMarks := v.pub.rowMarks } }

theorem CellsOnly.refl (s : State) : CellsOnly s s := rfl

theorem cellsOnly_changeRange (a b : Cell) (src dst : CellState) (s : State) :
    CellsOnly s (changeRange a b src dst s) := changeRange_eq a b src dst s

/-- What stands after an order that has worked on the cells: its answer, the sender's range dropped, the permit
evaluated on the new cells. -/
structure RangeWorked (s t v : State) (n : Station) (k : Byte) (i : Fin 2) (code : AnswerCode) : Prop where
  answers : t.pub.answers =
    s.pub.answers ++ [{ requester := BitVec.ofNat 8 n.val, number := k, code := AnswerCode.code code }]
  tags : t.face.tags = s.face.tags.set i { s.face.tags.get i with range := .none }
  temp : t.face.temp = s.face.temp
  advance : t.face.advance = s.face.advance
  dwell : t.permit.dwell = s.permit.dwell
  stands : t.PermitStands
  cells : t.face.cells = v.face.cells
  rowMarks : t.pub.rowMarks = v.pub.rowMarks

theorem rangeOrder_next {s v : State} {n : Station} {i : Fin 2} (o : s.TakesFaceOrder n i) {kind : OrderKind}
    (hk : kind.takenBy .cutter = true) (ha : kind.argCount = 0) (k : Byte) {rule : Fin 2 → State → AnswerCode × State}
    {code : AnswerCode} (hv : CellsOnly (acceptFrame n s) v) (hu : rule i (acceptFrame n s) = (code, setTagRange i .none v)) :
    ∃ t, orderEvent n k kind [] (faceOrder false n rule) s = .next t ∧ RangeWorked s t v n k i code := by
  have live : v.live = true := by rw [hv]; exact (acceptFrame_live n s).trans (live_of_hears o.hears)
  have cutter : v.isRole .cutter = true := by rw [hv]; exact (acceptFrame_isRole n s .cutter).trans o.cutter
  have answers : v.pub.answers = s.pub.answers := by rw [hv]; simp
  have tags : v.face.tags = s.face.tags := by rw [hv]; simp
  have temp : v.face.temp = s.face.temp := by rw [hv]; simp
  have advance : v.face.advance = s.face.advance := by rw [hv]; simp
  have permit : v.permit = s.permit := by rw [hv]; simp
  refine ⟨_, faceOrder_reaches o hk (by simp [ha]) (by simp) k false rule hu, ?_⟩
  exact {
    answers := by simp [answers]
    tags := by simp [tags]
    temp := by simp [temp]
    advance := by simp [advance]
    dwell := by simp [permit]
    stands := finish_permitStands (by simp [live]) (by simp [cutter])
    cells := by simp 
    rowMarks := by simp  }

/-! ## RELEASE (R12) -/

section
variable {i : Fin 2} {s : State}

theorem releaseRule_sequence (h : ∀ a b, (s.face.tags.get i).range ≠ .range a b) :
    releaseRule i s = (.sequence, setTagRange i .none s) := by
  unfold releaseRule; split
  · rename_i e; exact absurd e (h _ _)
  · rfl

theorem releaseRule_protected {a b : Cell} (h : (s.face.tags.get i).range = .range a b)
    (hp : ∃ r ∈ rangeRows a b, s.zoneProtected (zoneOf r) = true) :
    releaseRule i s = (.zoneProtected, setTagRange i .none s) := by
  simp only [releaseRule, h, List.any_eq_true.2 hp, if_true]

theorem releaseRule_done {a b : Cell} (h : (s.face.tags.get i).range = .range a b)
    (hp : ¬ ∃ r ∈ rangeRows a b, s.zoneProtected (zoneOf r) = true) :
    releaseRule i s = (.done, setTagRange i .none (changeRange a b .solid .released s)) := by
  simp only [releaseRule, h, List.any_eq_true, hp, if_false]

theorem withdrawRule_sequence (h : ∀ a b, (s.face.tags.get i).range ≠ .range a b) :
    withdrawRule i s = (.sequence, setTagRange i .none s) := by
  unfold withdrawRule; split
  · rename_i e; exact absurd e (h _ _)
  · rfl

theorem withdrawRule_done {a b : Cell} (h : (s.face.tags.get i).range = .range a b) :
    withdrawRule i s = (.done, setTagRange i .none (changeRange a b .released .solid s)) := by
  simp only [withdrawRule, h]

end

/-- The cells after an order that has changed a range of the frame's acceptance. -/
theorem RangeWorked.cell {s t : State} {n : Station} {k : Byte} {i : Fin 2} {code : AnswerCode} {a b : Cell}
    {src dst : CellState} (w : RangeWorked s t (changeRange a b src dst (acceptFrame n s)) n k i code) (c : Cell) :
    t.cell c = if inRange a b c = true ∧ s.cell c = src then dst else s.cell c := by
  have e : t.cell c = (changeRange a b src dst (acceptFrame n s)).cell c := by rw [State.cell, w.cells]; rfl
  rw [e, changeRange_cell, acceptFrame_cell]

/-- Settles O33, by the three branches of the rule: no range, a protected row, and the SOLID cells released. -/
theorem releaseWorksOnTheRange : Obligations.ReleaseWorksOnTheRange := by
  intro s n k i hears cutter room present bound notRestoring
  have o : s.TakesFaceOrder n i := ⟨hears, cutter, room, present, bound, notRestoring⟩
  have face : (acceptFrame n s).face = s.face := acceptFrame_face n s
  have sequence (hr : ∀ a b, (s.face.tags.get i).range ≠ .range a b) :=
    rangeOrder_next o (kind := .release) rfl rfl k (.refl _) (releaseRule_sequence (by rwa [face]))
  cases hr : (s.face.tags.get i).range with
  | none =>
    obtain ⟨t, he, w⟩ := sequence (by simp [hr])
    exact ⟨t, .sequence, he, w.answers, w.tags, w.temp, w.advance, w.stands.1, rfl, by simp [w.cells]⟩
  | first a =>
    obtain ⟨t, he, w⟩ := sequence (by simp [hr])
    exact ⟨t, .sequence, he, w.answers, w.tags, w.temp, w.advance, w.stands.1, rfl, by simp [w.cells]⟩
  | range a b =>
    have hr' : ((acceptFrame n s).face.tags.get i).range = .range a b := by rw [face, hr]
    by_cases hp : ∃ r ∈ rangeRows a b, s.zoneProtected (zoneOf r) = true
    · obtain ⟨t, he, w⟩ := rangeOrder_next o (kind := .release) rfl rfl k (.refl _)
        (releaseRule_protected hr' (by simpa using hp))
      refine ⟨t, .zoneProtected, he, w.answers, w.tags, w.temp, w.advance, w.stands.1, ?_⟩
      simp only [hp, if_true]
      exact ⟨trivial, by simp [w.cells]⟩
    · obtain ⟨t, he, w⟩ := rangeOrder_next o (kind := .release) rfl rfl k (cellsOnly_changeRange ..)
        (releaseRule_done hr' (by simpa using hp))
      refine ⟨t, .done, he, w.answers, w.tags, w.temp, w.advance, w.stands.1, ?_⟩
      simp only [hp, if_false]
      refine ⟨trivial, w.cell, fun r hne => ?_⟩
      rw [w.rowMarks]
      exact changeRange_marks _ _ _ _ _ r (by rw [w.cells] at hne; rwa [face])

/-- A reason that stands keeps the permit off, and with it the dwell timer. -/
theorem State.PermitStands.cell_holds {t : State} (h : t.PermitStands) {c : Cell} (hc : t.permit.head = some c)
    (hs : t.cell c = .solid) : t.permit.reasons.cell = true ∧ t.permitOn = false ∧ t.dwellRuns = false := by
  obtain ⟨reasons, on⟩ := h
  have cell : t.permit.reasons.cell = true := by
    rw [reasons]; simp [State.reasonsNow, State.reasonCell, hc, hs]
  have off : t.permitOn = false := by
    by_contra hon
    have := (on (by simpa using hon)).1
    simp [Reasons.none, cell] at this
  exact ⟨cell, off, by simp [State.dwellRuns, off]⟩

/-- Settles O34, by the two branches of the rule; the evaluation that follows holds the permit on CELL. -/
theorem withdrawWorksOnTheRange : Obligations.WithdrawWorksOnTheRange := by
  intro s n k i hears cutter room present bound notRestoring
  have o : s.TakesFaceOrder n i := ⟨hears, cutter, room, present, bound, notRestoring⟩
  have face : (acceptFrame n s).face = s.face := acceptFrame_face n s
  have sequence (hr : ∀ a b, (s.face.tags.get i).range ≠ .range a b) :=
    rangeOrder_next o (kind := .withdraw) rfl rfl k (.refl _) (withdrawRule_sequence (by rwa [face]))
  cases hr : (s.face.tags.get i).range with
  | none =>
    obtain ⟨t, he, w⟩ := sequence (by simp [hr])
    exact ⟨t, .sequence, he, w.answers, w.tags, w.temp, w.advance, w.dwell, fun _ => w.stands.cell_holds, rfl,
      by simp [w.cells]⟩
  | first a =>
    obtain ⟨t, he, w⟩ := sequence (by simp [hr])
    exact ⟨t, .sequence, he, w.answers, w.tags, w.temp, w.advance, w.dwell, fun _ => w.stands.cell_holds, rfl,
      by simp [w.cells]⟩
  | range a b =>
    obtain ⟨t, he, w⟩ := rangeOrder_next o (kind := .withdraw) rfl rfl k (cellsOnly_changeRange ..)
      (withdrawRule_done (by rw [face, hr]))
    exact ⟨t, .done, he, w.answers, w.tags, w.temp, w.advance, w.dwell, fun _ => w.stands.cell_holds, rfl, w.cell⟩

end Sys2Proof.Machine
end

section
namespace Sys2Proof.Machine

/-! ## PROTECT and UNPROTECT (R5, R6) -/

/-- A breach latched at a CUTTER writes the permit's state, its lots and the notices: what follows every event. -/
theorem rest_latchBreach {s : State} (h : s.isRole .cutter = true) : (latchBreach s).rest = s.rest := by
  have stopped := rest_permit h { s.permit with state := .stopped, breachEntered := false } rfl
  have commit := rest_commitLot ((isRole_of_rest stopped .cutter).trans h)
  have raised := (rest_raiseNotice .profileBreach _).trans (commit.trans stopped)
  exact (rest_noteBreachEntered ((isRole_of_rest raised .cutter).trans h)).trans raised

/-- What stands after an order on a zone: its answer, the sender's range dropped, no cell changed. -/
structure ZoneWorked (s t : State) (n : Station) (k : Byte) (i : Fin 2) (code : AnswerCode) : Prop where
  answers : t.pub.answers =
    s.pub.answers ++ [{ requester := BitVec.ofNat 8 n.val, number := k, code := AnswerCode.code code }]
  tags : t.face.tags = s.face.tags.set i { s.face.tags.get i with range := .none }
  cells : t.face.cells = s.face.cells

theorem zoneOrder_next {s u : State} {n : Station} {i : Fin 2} (o : s.TakesFaceOrder n i) {kind : OrderKind}
    (hk : kind.takenBy .cutter = true) {args : List Byte} (ha : kind.argCount ≤ args.length) (h61 : args.length ≤ 61)
    (k : Byte) {rule : Fin 2 → State → AnswerCode × State} {code : AnswerCode} {temp : BitVec 6}
    (hu : rule i (setTagRange i .none (acceptFrame n s)) = (code, u))
    (hr : u.rest = State.rest { setTagRange i .none (acceptFrame n s) with
      face := { (setTagRange i .none (acceptFrame n s)).face with temp := temp } }) :
    ∃ t, orderEvent n k kind args (faceOrder true n rule) s = .next t ∧ ZoneWorked s t n k i code ∧ t.face.temp = temp := by
  have face := face_of_rest hr
  have answers := answers_of_rest hr
  refine ⟨_, faceOrder_reaches o hk ha h61 k true rule hu, ⟨?_, ?_, ?_⟩, ?_⟩
  · simp [answers]
  · simp [face]
  · simp [face]
  · simp [face]

/-- The zone flags written as they stand change nothing. -/
theorem rest_sameTemp (s : State) : s.rest = State.rest { s with face := { s.face with temp := s.face.temp } } := rfl

section
variable {args : List Byte} {i : Fin 2} {s : State}

theorem protectRule_noZone (h : argZone args = none) : protectRule args i s = (.range, s) := by simp [protectRule, h]

theorem protectRule_protected {z : Fin 6} (h : argZone args = some z) (hp : s.zoneProtected z.val = true) :
    protectRule args i s = (.done, s) := by simp [protectRule, h, hp]

/-- The zone's temporary flag set; a breach that this latches leaves the rest. -/
theorem protectRule_sets {z : Fin 6} (h : argZone args = some z) (hp : s.zoneProtected z.val = false)
    (hc : s.isRole .cutter = true) : ∃ u, protectRule args i s = (.done, u) ∧
      u.rest = State.rest { s with face := { s.face with temp := s.face.temp ||| BitVec.twoPow 6 z.val } } := by
  simp only [protectRule, h, hp]
  refine ⟨_, rfl, ?_⟩
  split
  · exact rest_latchBreach hc
  · rfl

theorem unprotectRule_noZone (h : argZone args = none) : unprotectRule args i s = (.range, s) := by
  simp [unprotectRule, h]

theorem unprotectRule_permanent {z : Fin 6} (h : argZone args = some z) (hp : s.image.permZones.getLsbD z.val = true) :
    unprotectRule args i s = (.zoneProtected, s) := by simp [unprotectRule, h, hp]

theorem unprotectRule_clears {z : Fin 6} (h : argZone args = some z) (hp : s.image.permZones.getLsbD z.val = false) :
    ∃ u, unprotectRule args i s = (.done, u) ∧
      u.rest = State.rest { s with face := { s.face with temp := s.face.temp &&& ~~~ BitVec.twoPow 6 z.val } } := by
  simp only [unprotectRule, h, hp]
  exact ⟨_, rfl, rfl⟩

end

/-- Settles O35, by the branches of the two rules: no such zone, a zone already protected or permanent, and the flag
written. -/
theorem protectAndUnprotectZones : Obligations.ProtectAndUnprotectZones := by
  intro s n k args i hears cutter room present bound notRestoring hargs h61
  have o : s.TakesFaceOrder n i := ⟨hears, cutter, room, present, bound, notRestoring⟩
  have hc : (setTagRange i .none (acceptFrame n s)).isRole .cutter = true := by simp [cutter]
  have prot (z : Nat) : (setTagRange i .none (acceptFrame n s)).zoneProtected z = s.zoneProtected z := by
    simp [State.zoneProtected]
  have temp : (setTagRange i .none (acceptFrame n s)).face.temp = s.face.temp := by simp
  have perm (z : Fin 6) : (setTagRange i .none (acceptFrame n s)).image.permZones.getLsbD z.val =
      s.image.permZones.getLsbD z.val := by simp
  constructor
  · cases hz : argZone args with
    | none =>
      obtain ⟨t, he, ⟨answers, tags, cells⟩, ht⟩ :=
        zoneOrder_next o (kind := .protect) rfl hargs h61 k (protectRule_noZone hz) (rest_sameTemp _)
      exact ⟨t, .range, he, answers, tags, cells, rfl, ht.trans temp⟩
    | some z =>
      cases hp : s.zoneProtected z.val with
      | true =>
        obtain ⟨t, he, ⟨answers, tags, cells⟩, ht⟩ :=
          zoneOrder_next o (kind := .protect) rfl hargs h61 k (protectRule_protected hz ((prot _).trans hp)) (rest_sameTemp _)
        exact ⟨t, .done, he, answers, tags, cells, rfl, by simpa [hp] using ht.trans temp⟩
      | false =>
        obtain ⟨u, hu, hr⟩ := protectRule_sets (i := i) hz ((prot _).trans hp) hc
        obtain ⟨t, he, ⟨answers, tags, cells⟩, ht⟩ := zoneOrder_next o (kind := .protect) rfl hargs h61 k hu hr
        exact ⟨t, .done, he, answers, tags, cells, rfl, by simpa [hp] using ht⟩
  · cases hz : argZone args with
    | none =>
      obtain ⟨t, he, ⟨answers, tags, cells⟩, ht⟩ :=
        zoneOrder_next o (kind := .unprotect) rfl hargs h61 k (unprotectRule_noZone hz) (rest_sameTemp _)
      exact ⟨t, .range, he, answers, tags, cells, rfl, ht.trans temp⟩
    | some z =>
      cases hp : s.image.permZones.getLsbD z.val with
      | true =>
        obtain ⟨t, he, ⟨answers, tags, cells⟩, ht⟩ := zoneOrder_next o (kind := .unprotect) rfl hargs h61 k
          (unprotectRule_permanent hz ((perm z).trans hp)) (rest_sameTemp _)
        exact ⟨t, .zoneProtected, he, answers, tags, cells, by simpa [hp] using ht.trans temp⟩
      | false =>
        obtain ⟨u, hu, hr⟩ := unprotectRule_clears (i := i) hz ((perm z).trans hp)
        obtain ⟨t, he, ⟨answers, tags, cells⟩, ht⟩ := zoneOrder_next o (kind := .unprotect) rfl hargs h61 k hu hr
        exact ⟨t, .done, he, answers, tags, cells, by simp only [hp, Bool.false_eq_true, if_false]; exact ⟨trivial, by simpa using ht⟩⟩

end Sys2Proof.Machine
end

section
namespace Sys2Proof.Machine

/-! ## The lot ring at the end of an event (R80) -/

/-- The sequencers, the vigilance check and the panel's offer are no units of a CUTTER. -/
theorem unitSync_cutter {s : State} (h : s.isRole .cutter = true) : unitSync s = s := by
  have offer : offerSync s = s := by
    have cab : s.isRole .cab = false := isRole_eq h
    unfold offerSync; split
    · rw [cab]; rfl
    · rfl
  unfold unitSync
  rw [scrubSync_other s (isRole_eq h), convSync_other s (isRole_eq h), vigSync_other s (isRole_eq h), offer]

/-- Between `s` and `t` the ring stays, or the permit goes off and the open lot is committed. -/
def RingFollows (s t : State) : Prop :=
  t.ring = s.ring ∨ s.permitOn = true ∧ t.permit.state = .held ∧ t.ring = (commitLot s).ring

/-- It reads ring and permit alone. -/
theorem RingFollows.of_same {s t v w : State} (h : RingFollows s t) (hp : v.permitOn = s.permitOn) (hr : v.ring = s.ring)
    (hq : w.permit = t.permit) (hw : w.ring = t.ring) : RingFollows v w := by
  unfold RingFollows commitLot at *; rw [hp, hr, hq, hw]; exact h

theorem movePermit_ring (s : State) : RingFollows s (movePermit s) := by
  unfold movePermit; split
  · exact .inl rfl
  · split <;> exact .inl rfl
  all_goals
    rename_i on
    split
    · exact .inl rfl
    · exact .inr ⟨by simp [State.permitOn, on, PermitState.on], rfl, rfl⟩

theorem noticesOnly_judgeBreach (s : State) : NoticesOnly s (judgeBreach s) := by
  unfold judgeBreach; repeat' split
  · exact .refl s
  · exact noticesOnly_clearNotice _ s
  · exact noticesOnly_raiseNotice _ s
  · exact .refl s

/-- The breach's own steps before the transitions leave ring, and whether the permit is on. -/
theorem breachSteps_ring (s : State) : (releaseBreach (noteBreachEntered (judgeBreach s))).ring = s.ring ∧
    (releaseBreach (noteBreachEntered (judgeBreach s))).permitOn = s.permitOn := by
  have judged : (judgeBreach s).ring = s.ring ∧ (judgeBreach s).permitOn = s.permitOn := by
    rw [noticesOnly_judgeBreach s]; exact ⟨rfl, rfl⟩
  have entered (v : State) : (noteBreachEntered v).ring = v.ring ∧ (noteBreachEntered v).permitOn = v.permitOn := by
    unfold noteBreachEntered; split <;> exact ⟨rfl, rfl⟩
  have released (v : State) : (releaseBreach v).ring = v.ring ∧ (releaseBreach v).permitOn = v.permitOn := by
    unfold releaseBreach; split
    · rename_i h
      simp only [Bool.and_eq_true, beq_iff_eq] at h
      obtain ⟨⟨stopped, -⟩, -⟩ := h
      exact ⟨rfl, by simp [State.permitOn, stopped, PermitState.on]⟩
    · exact ⟨rfl, rfl⟩
  exact ⟨(released _).1.trans ((entered _).1.trans judged.1), (released _).2.trans ((entered _).2.trans judged.2)⟩

theorem permitSync_ring {s : State} (h : s.isRole .cutter = true) : RingFollows s (permitSync s) := by
  obtain ⟨ring, on⟩ := breachSteps_ring s
  unfold permitSync; rw [if_pos h]; unfold evaluatePermit applyReasons
  generalize releaseBreach (noteBreachEntered (judgeBreach s)) = v at ring on
  obtain moved := movePermit_ring { v with permit := { v.permit with reasons := v.reasonsNow } }
  generalize movePermit _ = w at moved
  rcases moved with same | ⟨was, held, commit⟩
  · exact .inl (same.trans ring)
  · exact .inr ⟨on ▸ was, held, by rw [show (dwellSync w).ring = w.ring from rfl, commit]; simp only [commitLot, ring]⟩

theorem judgeNotices_ring (s : State) : (judgeNotices s).ring = s.ring := by rw [noticesOnly_judgeNotices s]
theorem requestSync_ring (s : State) : (requestSync s).ring = s.ring := by
  unfold requestSync dropRequest placeRequest; dsimp only; repeat' split
  all_goals rfl
theorem displaySync_ring (s : State) : (displaySync s).ring = s.ring := by unfold displaySync; split <;> rfl
theorem fillOrderSlot_ring (s : State) : (fillOrderSlot s).ring = s.ring := by
  unfold fillOrderSlot; repeat' split
  all_goals rfl
theorem earlySync_ring (pre s : State) : (earlySync pre s).ring = s.ring := by
  unfold earlySync requestEarly; dsimp only; repeat' split
  all_goals rfl
theorem beginFrame_ring (s : State) : (beginFrame s).ring = s.ring := by
  unfold beginFrame; repeat' split
  all_goals rfl
theorem statusSync_ring (s : State) : (statusSync s).ring = s.ring := by unfold statusSync; split <;> rfl

theorem sync_ring {s : State} (h : s.isRole .cutter = true) : RingFollows s (sync s) := by
  unfold sync; rw [unitSync_cutter h]
  have role := (isRole_of_rest (rest_judgeNotices s) .cutter).trans h
  refine (permitSync_ring role).of_same (by rw [State.permitOn, State.permitOn, judgeNotices_permit])
    (judgeNotices_ring s).symm ?_ ?_
  · rw [displaySync_permit, requestSync_permit]
  · rw [displaySync_ring, requestSync_ring]

/-- A further attempt to raise a breach's notice leaves ring and permit state. -/
theorem retryBreach_ring (s : State) : (retryBreach s).ring = s.ring ∧ (retryBreach s).permit.state = s.permit.state := by
  have n := noticesOnly_raiseNotice .profileBreach s
  have ring : (raiseNotice .profileBreach s).ring = s.ring := by rw [n]
  have state : (raiseNotice .profileBreach s).permit.state = s.permit.state := by rw [n]
  unfold retryBreach noteBreachEntered; split
  · split <;> exact ⟨ring, state⟩
  · exact ⟨rfl, rfl⟩

theorem retrySync_ring {pre s : State} (h : s.isRole .cutter = true) : RingFollows s (retrySync pre (sync s)) := by
  have first := sync_ring h
  unfold retrySync; split
  · rename_i waits
    have stopped : (sync s).permit.state = .stopped := by
      simp only [Bool.and_eq_true, State.breachWaits, beq_iff_eq] at waits; exact waits.1.2.1
    have role : (retryBreach (sync s)).isRole .cutter = true :=
      (isRole_of_rest (by simp : (retryBreach (sync s)).rest = s.rest) .cutter).trans h
    obtain ⟨ring, state⟩ := retryBreach_ring (sync s)
    have same := first.resolve_right fun ⟨_, held, _⟩ => by rw [stopped] at held; cases held
    refine .inl ?_
    rcases sync_ring role with again | ⟨on, -, -⟩
    · exact again.trans (ring.trans same)
    · rw [State.permitOn, state, stopped] at on; cases on
  · exact first

/-- The end of an event at a live CUTTER leaves the ring, or takes the permit off and commits the open lot. -/
theorem finish_ring {pre s : State} (hl : s.live = true) (h : s.isRole .cutter = true) : RingFollows s (finish pre s) := by
  unfold finish; rw [if_pos hl]; unfold settle
  refine (retrySync_ring (pre := pre) h).of_same rfl rfl ?_ ?_
  · rw [statusSync_permit, State.noteRestarted_permit, beginFrame_permit, earlySync_permit, fillOrderSlot_permit]
  · rw [statusSync_ring, State.noteRestarted_ring, beginFrame_ring, earlySync_ring, fillOrderSlot_ring]

theorem commitLot_openLot (s : State) : (commitLot s).openLot = none := by
  simp [State.openLot, commitLot]

/-- No lot opens at the end of an event. -/
theorem finish_openLot {pre s : State} (hl : s.live = true) (h : s.isRole .cutter = true) (ho : s.openLot = none) :
    (finish pre s).openLot = none := by
  rcases finish_ring (pre := pre) hl h with ring | ⟨-, -, ring⟩
  · rw [State.openLot, ring]; exact ho
  · rw [State.openLot, ring]; exact commitLot_openLot s

/-! ## ADVANCE (R16, R17) -/

theorem advanceRule_refuses {s : State} (i : Fin 2)
    (h : s.permit.state ≠ .held ∨ s.inputs.i0 = true ∨ s.faceComplete = false) : advanceRule i s = (.state, s) := by
  unfold advanceRule
  rcases h with h | h | h <;> simp [h]

theorem advanceRule_advances {s : State} (i : Fin 2) (hp : s.permit.state = .held) (hi : s.inputs.i0 = false)
    (hf : s.faceComplete = true) : advanceRule i s = (.done, advanceFace s) := by
  simp [advanceRule, hp, hi, hf]

/-! What an executed ADVANCE writes. -/

section
variable (s : State)

@[simp] theorem markAllRows_face : (markAllRows s).face = s.face := rfl

theorem advanceFace_face : (advanceFace s).face = { s.face with
    advance := s.face.advance + 1, cells := freshCells s.image
    tags := (s.face.tags.set 0 { s.face.tags.get 0 with range := .none }).set 1 { s.face.tags.get 1 with range := .none } } := by
  simp [advanceFace, markAllRows, commitLot, Tbl.get_set]
theorem advanceFace_dwell : (advanceFace s).permit.dwell = 0 := by simp [advanceFace, markAllRows, commitLot]
theorem advanceFace_restored : (advanceFace s).recovery.restored = false := by simp [advanceFace, markAllRows, commitLot]
theorem advanceFace_rowMarks : (advanceFace s).pub.rowMarks = .fill 24 (some s.pub.builds) := by
  simp [advanceFace, markAllRows, commitLot]
theorem advanceFace_answers : (advanceFace s).pub.answers = s.pub.answers := by simp [advanceFace, markAllRows, commitLot]
theorem advanceFace_ring : (advanceFace s).ring = (commitLot s).ring := by simp [advanceFace, markAllRows, commitLot]
theorem advanceFace_live : (advanceFace s).live = s.live := by simp [advanceFace]; rfl
theorem advanceFace_isRole (r : Role) : (advanceFace s).isRole r = s.isRole r := by simp [advanceFace]; rfl

end

theorem restored_of_rest {s t : State} (h : t.rest = s.rest) : t.recovery.restored = s.recovery.restored :=
  show t.recovery.rest.restored = s.recovery.rest.restored by rw [recovery_of_rest h]

/-- The records of the two CABs after an ADVANCE from the CAB of record `i`: no range in either. -/
theorem advance_tags (t : Tbl TagRecord 2) (i j : Fin 2) :
    (((t.set i { t.get i with range := .none }).set 0 { (t.set i { t.get i with range := .none }).get 0 with range := .none }).set 1
      { (t.set i { t.get i with range := .none }).get 1 with range := .none }).get j = { t.get j with range := .none } := by
  fin_cases i <;> fin_cases j <;> simp [Tbl.get_set]

/-- Settles O37: an executed ADVANCE by what it writes, a refused one by the ring that follows the permit. -/
theorem advanceStartsANewFace : Obligations.AdvanceStartsANewFace := by
  intro s n k i hears cutter room present bound notRestoring
  have o : s.TakesFaceOrder n i := ⟨hears, cutter, room, present, bound, notRestoring⟩
  obtain ⟨b, hb⟩ : ∃ b, breakRange true i (acceptFrame n s) = b := ⟨_, rfl⟩
  have live : b.live = true := by simp [← hb, live_of_hears hears]
  have role : b.isRole .cutter = true := by simp [← hb, cutter]
  have permit : b.permit = s.permit := by simp [← hb]
  have inputs : b.inputs = s.inputs := by simp [← hb]
  have ring : b.ring = s.ring := by simp [← hb]
  have complete : b.faceComplete = s.faceComplete := by simp [← hb, State.faceComplete]
  have face : b.face = { s.face with tags := s.face.tags.set i { s.face.tags.get i with range := .none } } := by
    simp [← hb]
  have answers : b.pub.answers = s.pub.answers := by simp [← hb]
  have image : b.image = s.image := by simp [← hb]
  have next {code : AnswerCode} {u : State} (rule : advanceRule i b = (code, u)) :=
    faceOrder_reaches o (kind := .advance) rfl (Nat.zero_le _) (Nat.zero_le _) (args := []) k true advanceRule (hb ▸ rule)
  constructor
  · intro hp hi hf
    have rule := advanceRule_advances i (by rw [permit, hp]) (by rw [inputs, hi]) (by rw [complete, hf])
    have openLot : (pushAnswer n k .done (advanceFace b)).openLot = none := by
      rw [State.openLot, pushAnswer_ring, advanceFace_ring]; exact commitLot_openLot b
    have restored := restored_of_rest (finish_rest s (pushAnswer n k .done (advanceFace b)))
    refine ⟨_, next rule, ?_, ?_, ?_, ?_, fun j => ?_, ?_, ?_, ?_, fun r => ?_⟩
    · simp [advanceFace_answers, answers]
    · simp [advanceFace_face, face]
    · simp [advanceFace_face, image]
    · simp [advanceFace_face, face]
    · simp only [finish_face, pushAnswer_face, advanceFace_face, face, advance_tags]
    · simp [advanceFace_dwell]
    · exact restored.trans (advanceFace_restored b)
    · exact finish_openLot (by rw [pushAnswer_live, advanceFace_live, live])
        (by rw [pushAnswer_isRole, advanceFace_isRole, role]) openLot
    · simp [advanceFace_rowMarks]
  · intro refused
    have rule := advanceRule_refuses (s := b) i (by rwa [permit, inputs, complete])
    have restored := restored_of_rest (finish_rest s (pushAnswer n k .state b))
    refine ⟨_, next rule, by simp [answers], by simp [face], by simp [permit], by simp [← hb],
      restored.trans (by simp [← hb]), ?_⟩
    rcases finish_ring (pre := s) (s := pushAnswer n k .state b) live role with same | ⟨on, held, commit⟩
    · exact .inl (same.trans ring)
    · refine .inr ⟨?_, by rw [State.permitOn, held]; rfl, commit.trans ?_⟩
      · rwa [State.permitOn, pushAnswer_permit, permit] at on
      · simp [commitLot, ring]

end Sys2Proof.Machine
end

section
/-! The orders that change nothing but the answer queue: dropped, out of role, short of arguments, RESTORING. -/

namespace Sys2Proof.Machine

section
variable {s : State} {n : Station} {k : Byte} {kind : OrderKind} {args : List Byte} {owner : State → AnswerCode × State}

/-- An ORDER frame that is heard is taken. -/
theorem orderEvent_hears (hh : s.hears = true) (h61 : args.length ≤ 61) :
    orderEvent n k kind args owner s = .next (finish s (takeOrder n k kind args owner s)) := by
  unfold orderEvent
  rw [event_live (live_of_hears hh), ifHeard_hears hh, if_pos h61]

/-- At a full answer queue the order is dropped (R170, R171). -/
theorem takeOrder_full (h : 4 ≤ s.pub.answers.length) : takeOrder n k kind args owner s =
    { acceptFrame n s with pub := { (acceptFrame n s).pub with dropped := true } } := by
  simp [takeOrder, h]

/-- A kind that the station's role does not take is answered ROLE, whatever its arguments (R170). -/
theorem takeOrder_otherRole (ha : s.pub.answers.length < 4) (hr : (s.role.map kind.takenBy).getD false = false) :
    takeOrder n k kind args owner s = pushAnswer n k .role (acceptFrame n s) := by
  have room : ¬ 4 ≤ (acceptFrame n s).pub.answers.length := by simpa using ha
  simp only [takeOrder, room, if_false, acceptFrame_role, hr, Bool.not_false, if_true]

/-- A kind of the station's role with too few arguments is answered RANGE (R170). -/
theorem takeOrder_short (ha : s.pub.answers.length < 4) (hr : (s.role.map kind.takenBy).getD false = true)
    (h : args.length < kind.argCount) : takeOrder n k kind args owner s = pushAnswer n k .range (acceptFrame n s) := by
  have room : ¬ 4 ≤ (acceptFrame n s).pub.answers.length := by simpa using ha
  simp only [takeOrder, room, if_false, acceptFrame_role, hr, Bool.not_true, Bool.false_eq_true, h, if_true]

/-- Else the owner's rule answers. -/
theorem takeOrder_owner (ha : s.pub.answers.length < 4) (hr : (s.role.map kind.takenBy).getD false = true)
    (h : kind.argCount ≤ args.length) {a : AnswerCode} (ho : owner (acceptFrame n s) = (a, acceptFrame n s)) :
    takeOrder n k kind args owner s = pushAnswer n k a (acceptFrame n s) := by
  have room : ¬ 4 ≤ (acceptFrame n s).pub.answers.length := by simpa using ha
  simp only [takeOrder, room, if_false, acceptFrame_role, hr, Bool.not_true, Bool.false_eq_true, Nat.not_lt.2 h, ho]

end

/-! ## Which station takes a kind -/

theorem takes_of_owner {kind : OrderKind} {r : Role} (h : ∀ q, kind.takenBy q = (q == r)) (s : State) :
    (s.role.map kind.takenBy).getD false = s.isRole r := by
  unfold State.isRole
  cases s.role with
  | none => rfl
  | some q => simp [h]

theorem takes_of_any {kind : OrderKind} (h : ∀ q, kind.takenBy q = true) (s : State) :
    (s.role.map kind.takenBy).getD false = s.role.isSome := by
  cases s.role with
  | none => rfl
  | some q => simp [h]

/-! ## The refusals of the owners' rules -/

section
variable {s : State} {n : Station}

theorem faceOrder_role {breaks : Bool} {rule : Fin 2 → State → AnswerCode × State}
    (h : (acceptFrame n s).isPresent .cab n = false ∨ s.boundRecord n = none) :
    faceOrder breaks n rule (acceptFrame n s) = (.role, acceptFrame n s) := by
  unfold faceOrder
  rw [acceptFrame_boundRecord]
  cases hb : s.boundRecord n with
  | none => rfl
  | some i => simp [State.fromCab, h.resolve_right (by simp [hb])]

theorem faceOrder_restoring {breaks : Bool} {rule : Fin 2 → State → AnswerCode × State}
    (hp : (acceptFrame n s).isPresent .cab n = true) (hb : (s.boundRecord n).isSome = true)
    (hr : s.recovery.state = .restoring) : faceOrder breaks n rule (acceptFrame n s) = (.state, acceptFrame n s) := by
  obtain ⟨i, hi⟩ := Option.isSome_iff_exists.1 hb
  simp [faceOrder, hi, State.fromCab, hp, hr]

end

/-! ## The commands of the orders -/

/-- A command is the ORDER frame of a kind with these arguments and owner. -/
def IsOrder (c : Instr) (n : Station) (k : Byte) (kind : OrderKind) (args : List Byte)
    (owner : State → AnswerCode × State) : Prop := ∀ s, exec c s = orderEvent n k kind args owner s

namespace IsOrder
variable {c : Instr} {n : Station} {k : Byte} {kind : OrderKind} {args : List Byte} {owner : State → AnswerCode × State}
  {s : State}

theorem dropped (hc : IsOrder c n k kind args owner) (hh : s.hears = true) (h61 : args.length ≤ 61)
    (hfull : 4 ≤ s.pub.answers.length) :
    exec c s = .next (finish s { acceptFrame n s with pub := { (acceptFrame n s).pub with dropped := true } }) := by
  rw [hc, orderEvent_hears hh h61, takeOrder_full hfull]

theorem short (hc : IsOrder c n k kind args owner) (hh : s.hears = true) (h61 : args.length ≤ 61)
    (ha : s.pub.answers.length < 4) (hr : (s.role.map kind.takenBy).getD false = true) (h : args.length < kind.argCount) :
    exec c s = .next (finish s (pushAnswer n k .range (acceptFrame n s))) := by
  rw [hc, orderEvent_hears hh h61, takeOrder_short ha hr h]

theorem otherRole (hc : IsOrder c n k kind args owner) (hh : s.hears = true) (h61 : args.length ≤ 61)
    (ha : s.pub.answers.length < 4) (hr : (s.role.map kind.takenBy).getD false = false) :
    exec c s = .next (finish s (pushAnswer n k .role (acceptFrame n s))) := by
  rw [hc, orderEvent_hears hh h61, takeOrder_otherRole ha hr]

theorem answered (hc : IsOrder c n k kind args owner) (hh : s.hears = true) (h61 : args.length ≤ 61)
    (ha : s.pub.answers.length < 4) (hr : (s.role.map kind.takenBy).getD false = true)
    (h : kind.argCount ≤ args.length) {a : AnswerCode} (ho : owner (acceptFrame n s) = (a, acceptFrame n s)) :
    exec c s = .next (finish s (pushAnswer n k a (acceptFrame n s))) := by
  rw [hc, orderEvent_hears hh h61, takeOrder_owner ha hr h ho]

/-- An order of one role's unit is answered ROLE at a station of another role, and there where its rule says so. -/
theorem role {r : Role} (hc : IsOrder c n k kind args owner) (hk : ∀ q, kind.takenBy q = (q == r)) (hh : s.hears = true)
    (h61 : args.length ≤ 61) (ha : s.pub.answers.length < 4)
    (h : s.isRole r = false ∨
      kind.argCount ≤ args.length ∧ owner (acceptFrame n s) = (.role, acceptFrame n s)) :
    exec c s = .next (finish s (pushAnswer n k .role (acceptFrame n s))) := by
  cases hr : s.isRole r with
  | false => exact hc.otherRole hh h61 ha ((takes_of_owner hk s).trans hr)
  | true =>
    obtain ⟨enough, ho⟩ := h.resolve_left (by simp [hr])
    exact hc.answered hh h61 ha ((takes_of_owner hk s).trans hr) enough ho

/-- An order of every role's units is answered ROLE where its rule says so; a station without a role says so too. -/
theorem anyRole (hc : IsOrder c n k kind args owner) (hk : ∀ q, kind.takenBy q = true) (hh : s.hears = true)
    (h61 : args.length ≤ 61) (ha : s.pub.answers.length < 4) (h : kind.argCount ≤ args.length)
    (ho : owner (acceptFrame n s) = (.role, acceptFrame n s)) :
    exec c s = .next (finish s (pushAnswer n k .role (acceptFrame n s))) := by
  cases hr : s.role.isSome with
  | false => exact hc.otherRole hh h61 ha ((takes_of_any hk s).trans hr)
  | true => exact hc.answered hh h61 ha ((takes_of_any hk s).trans hr) h ho

end IsOrder

/-- An order of a kind that belongs to no role is dropped at a full answer queue. -/
theorem orderUnknownKind_dropped {s : State} {n : Station} {k kind : Byte} (hh : s.hears = true)
    (hfull : 4 ≤ s.pub.answers.length) : exec (.orderUnknownKind n k kind) s =
      .next (finish s { acceptFrame n s with pub := { (acceptFrame n s).pub with dropped := true } }) := by
  have full : 4 ≤ (acceptFrame n s).pub.answers.length := by simpa using hfull
  show event (ifHeard (takeUnknown n k)) s = _
  rw [event_live (live_of_hears hh), ifHeard_hears hh]
  simp only [takeUnknown, full, if_true]

/-! ## The clauses of OrdersDroppedOrRefused -/

section
variable {s : State} {n : Station} {k : Byte} {args : List Byte} (hh : s.hears = true)
include hh

theorem orders_dropped {kind : Byte} (hfull : 4 ≤ s.pub.answers.length) (h61 : args.length ≤ 61) :
    ∀ c ∈ [Instr.tagFirst n k args, .tagLast n k args, .release n k, .withdraw n k, .protect n k args, .unprotect n k args,
      .advance n k, .washNow n k, .scrubReset n k, .conveyOn n k, .conveyOff n k, .conveyReset n k, .mapRequest n k,
      .ack n k args, .clearFault n k, .relink n k, .orderUnknownKind n k kind],
    exec c s = .next (finish s { acceptFrame n s with pub := { (acceptFrame n s).pub with dropped := true } }) := by
  have drop {c : Instr} {kind : OrderKind} {args : List Byte} {owner : State → AnswerCode × State} (h61 : args.length ≤ 61)
      (hc : IsOrder c n k kind args owner) := hc.dropped hh h61 hfull
  have none61 : ([] : List Byte).length ≤ 61 := Nat.zero_le _
  simp only [List.forall_mem_cons, List.not_mem_nil, false_imp_iff, implies_true, and_true]
  exact ⟨drop h61 fun _ => rfl, drop h61 fun _ => rfl, drop none61 fun _ => rfl, drop none61 fun _ => rfl,
    drop h61 fun _ => rfl, drop h61 fun _ => rfl, drop none61 fun _ => rfl, drop none61 fun _ => rfl,
    drop none61 fun _ => rfl, drop none61 fun _ => rfl, drop none61 fun _ => rfl, drop none61 fun _ => rfl,
    drop none61 fun _ => rfl, drop h61 fun _ => rfl, drop none61 fun _ => rfl, drop none61 fun _ => rfl,
    orderUnknownKind_dropped hh hfull⟩

variable (ha : s.pub.answers.length < 4)
include ha

theorem faceOrders_short {b : Byte} (hr : s.isRole .cutter = true) :
    ∀ c ∈ [Instr.tagFirst n k [], .tagFirst n k [b], .tagLast n k [], .tagLast n k [b], .protect n k [], .unprotect n k []],
      exec c s = .next (finish s (pushAnswer n k .range (acceptFrame n s))) := by
  have short {c : Instr} {kind : OrderKind} {args : List Byte} {owner : State → AnswerCode × State}
      (hk : ∀ q, kind.takenBy q = (q == .cutter)) (h : args.length < kind.argCount) (h61 : args.length ≤ 61)
      (hc : IsOrder c n k kind args owner) := hc.short hh h61 ha ((takes_of_owner hk s).trans hr) h
  simp only [List.forall_mem_cons, List.not_mem_nil, false_imp_iff, implies_true, and_true]
  exact ⟨short (fun _ => rfl) (by decide) (by decide) fun _ => rfl,
    short (fun _ => rfl) (by simp [OrderKind.argCount]) (by simp) fun _ => rfl,
    short (fun _ => rfl) (by decide) (by decide) fun _ => rfl,
    short (fun _ => rfl) (by simp [OrderKind.argCount]) (by simp) fun _ => rfl,
    short (fun _ => rfl) (by decide) (by decide) fun _ => rfl,
    short (fun _ => rfl) (by decide) (by decide) fun _ => rfl⟩

theorem acks_short {b : Byte} (hr : s.role.isSome = true) :
    ∀ c ∈ [Instr.ack n k [], .ack n k [b]], exec c s = .next (finish s (pushAnswer n k .range (acceptFrame n s))) := by
  have short {args : List Byte} (h : args.length < 2) := IsOrder.short (c := .ack n k args) (kind := .ack)
    (fun _ => rfl) hh (by omega) ha ((takes_of_any (fun _ => rfl) s).trans hr) h
  simp only [List.forall_mem_cons, List.not_mem_nil, false_imp_iff, implies_true, and_true]
  exact ⟨short (by decide), short (by simp)⟩

/-- A face map order's refusals before its own rule: ROLE, and STATE while RESTORING (R9). -/
theorem faceOrder_refused {c : Instr} {needed m : Nat} {kind : OrderKind} {breaks : Bool} {rule : Fin 2 → State → AnswerCode × State}
    (hk : ∀ q, kind.takenBy q = (q == .cutter)) (h61 : args.length ≤ 61) (hn : needed ≤ m → kind.argCount ≤ args.length)
    (hc : IsOrder c n k kind args (faceOrder breaks n rule)) :
    (s.isRole .cutter = false ∨ (needed ≤ m ∧
        ((acceptFrame n s).isPresent .cab n = false ∨ s.boundRecord n = none)) →
      exec c s = .next (finish s (pushAnswer n k .role (acceptFrame n s)))) ∧
    (needed ≤ m → s.isRole .cutter = true → (acceptFrame n s).isPresent .cab n = true →
      (s.boundRecord n).isSome = true → s.recovery.state = .restoring →
      exec c s = .next (finish s (pushAnswer n k .state (acceptFrame n s)))) :=
  ⟨fun h => hc.role hk hh h61 ha (h.imp_right fun ⟨enough, refused⟩ => ⟨hn enough, faceOrder_role refused⟩),
    fun enough cutter present bound restoring => hc.answered hh h61 ha ((takes_of_owner hk s).trans cutter) (hn enough)
      (faceOrder_restoring present bound restoring)⟩

end

/-- Settles O43: the answer queue, role and argument steps of every order, and the owners' refusals. -/
theorem ordersDroppedOrRefused : Obligations.OrdersDroppedOrRefused := by
  refine ⟨fun s n k kind args hh hfull h61 => orders_dropped hh hfull h61,
    fun s n k b hh ha => ⟨faceOrders_short hh ha, acks_short hh ha⟩, ?_⟩
  intro s n k args hh ha h61
  have none61 : ([] : List Byte).length ≤ 61 := Nat.zero_le _
  have zero61 {m : Nat} {kind : OrderKind} (h : kind.argCount = 0) (_ : 0 ≤ m) : kind.argCount ≤ ([] : List Byte).length := by
    simp [h]
  have role {c : Instr} {kind : OrderKind} {r q : Role} {owner : State → AnswerCode × State}
      (hk : ∀ q, kind.takenBy q = (q == r)) (h0 : kind.argCount = 0)
      (ho : (acceptFrame n s).isPresent q n = false → owner (acceptFrame n s) = (.role, acceptFrame n s))
      (hc : IsOrder c n k kind [] owner) (h : s.isRole r = false ∨ (acceptFrame n s).isPresent q n = false) :=
    hc.role hk hh none61 ha (h.imp_right fun absent => ⟨zero61 h0 (Nat.zero_le 0), ho absent⟩)
  refine ⟨?_, ?_, ?_, ?_, ?_⟩
  · intro c needed hc
    simp only [List.mem_cons, Prod.mk.injEq, List.not_mem_nil, or_false] at hc
    rcases hc with ⟨rfl, rfl⟩ | ⟨rfl, rfl⟩ | ⟨rfl, rfl⟩ | ⟨rfl, rfl⟩ | ⟨rfl, rfl⟩ | ⟨rfl, rfl⟩ | ⟨rfl, rfl⟩
    · exact faceOrder_refused hh ha (kind := .tagFirst) (fun _ => rfl) h61 id fun _ => rfl
    · exact faceOrder_refused hh ha (kind := .tagLast) (fun _ => rfl) h61 id fun _ => rfl
    · exact faceOrder_refused hh ha (kind := .release) (fun _ => rfl) none61 (zero61 rfl) fun _ => rfl
    · exact faceOrder_refused hh ha (kind := .withdraw) (fun _ => rfl) none61 (zero61 rfl) fun _ => rfl
    · exact faceOrder_refused hh ha (kind := .protect) (fun _ => rfl) h61 id fun _ => rfl
    · exact faceOrder_refused hh ha (kind := .unprotect) (fun _ => rfl) h61 id fun _ => rfl
    · exact faceOrder_refused hh ha (kind := .advance) (fun _ => rfl) none61 (zero61 rfl) fun _ => rfl
  · simp only [List.forall_mem_cons, List.not_mem_nil, false_imp_iff, implies_true, and_true]
    exact ⟨role (kind := .washNow) (fun _ => rfl) rfl (fun h => by simp [washNowOrder, State.fromCab, h]) fun _ => rfl,
      role (kind := .scrubReset) (fun _ => rfl) rfl (fun h => by simp [scrubResetOrder, State.fromCab, h]) fun _ => rfl⟩
  · simp only [List.forall_mem_cons, List.not_mem_nil, false_imp_iff, implies_true, and_true]
    exact ⟨role (kind := .conveyOn) (fun _ => rfl) rfl (fun h => by simp [conveyOrder, State.fromCab, h]) fun _ => rfl,
      role (kind := .conveyOff) (fun _ => rfl) rfl (fun h => by simp [conveyOrder, State.fromCab, h]) fun _ => rfl,
      role (kind := .conveyReset) (fun _ => rfl) rfl (fun h => by simp [conveyResetOrder, State.fromCab, h]) fun _ => rfl⟩
  · exact role (kind := .mapRequest) (fun _ => rfl) rfl (fun h => by simp [mapRequestOrder, h]) fun _ => rfl
  · intro c needed hc enough absent
    simp only [List.mem_cons, Prod.mk.injEq, List.not_mem_nil, or_false] at hc
    rcases hc with ⟨rfl, rfl⟩ | ⟨rfl, rfl⟩ | ⟨rfl, rfl⟩
    · exact IsOrder.anyRole (kind := .ack) (fun _ => rfl) (fun _ => rfl) hh h61 ha enough
        (by simp [ackOrder, State.fromCab, absent])
    · exact IsOrder.anyRole (kind := .clearFault) (fun _ => rfl) (fun _ => rfl) hh none61 ha (zero61 rfl enough)
        (by simp [clearFaultOrder, State.fromCab, absent])
    · exact IsOrder.anyRole (kind := .relink) (fun _ => rfl) (fun _ => rfl) hh none61 ha (zero61 rfl enough)
        (by simp [relinkOrder, State.fromCab, absent])

end Sys2Proof.Machine
end

section
/-! TRIP, MAP and CLAIM frames read back, the frames that carry them taken, and the display after a TRIP entry. -/

namespace Sys2Proof.Machine

/-! ## The payloads read back (chapter 12) -/

theorem of16_be16 (w : Word16) : of16 (w.extractLsb' 8 8) (w.extractLsb' 0 8) = w := by
  unfold of16
  rw [BitVec.extractLsb'_append_extractLsb'_eq_extractLsb' (h := (rfl : 8 = 0 + 8)), BitVec.extractLsb'_eq_self]

theorem of32_be32 (w : Word32) :
    of32 (w.extractLsb' 24 8) (w.extractLsb' 16 8) (w.extractLsb' 8 8) (w.extractLsb' 0 8) = w := by
  unfold of32
  rw [BitVec.extractLsb'_append_extractLsb'_eq_extractLsb' (h := (rfl : 24 = 16 + 8)),
    BitVec.extractLsb'_append_extractLsb'_eq_extractLsb' (h := (rfl : 16 = 8 + 8)),
    BitVec.extractLsb'_append_extractLsb'_eq_extractLsb' (h := (rfl : 8 = 0 + 8)), BitVec.extractLsb'_eq_self]

theorem noticeState_bits : ∀ cls state : BitVec 2,
    ((0 : BitVec 2) ++ cls ++ (0 : BitVec 2) ++ state).extractLsb' 4 2 = cls ∧
      ((0 : BitVec 2) ++ cls ++ (0 : BitVec 2) ++ state).extractLsb' 0 2 = state := by decide

theorem readTrip_bytes (e : NoticeEntry) : readTrip e.bytes = some e := by
  obtain ⟨cls, state⟩ := noticeState_bits e.cls e.state
  simp only [readTrip, NoticeEntry.bytes, readNotice, cls, state, if_true, Option.map_some]

theorem claimFlags_bits : ∀ ready joining : Bool,
    ((0 : BitVec 6) ++ BitVec.ofBool ready ++ BitVec.ofBool joining).getLsbD 0 = joining ∧
      ((0 : BitVec 6) ++ BitVec.ofBool ready ++ BitVec.ofBool joining).getLsbD 1 = ready := by decide

theorem readClaim_bytes (c : ClaimFrame) : readClaim c.bytes = some c := by
  obtain ⟨joining, ready⟩ := claimFlags_bits c.ready c.joining
  simp only [ClaimFrame.bytes, be32, be16, List.cons_append, List.nil_append, readClaim, of32_be32, of16_be16, joining,
    ready]

/-! The cells of a row, four to a byte. -/

theorem cellCode_ofCode (c : CellState) : CellState.ofCode c.code = c := by cases c <;> decide

theorem cellBits_first : ∀ (a b c d : BitVec 2) (rest : List Byte), 
    cellBits ((a ++ b ++ c ++ d) :: rest) 0 = a ∧ cellBits ((a ++ b ++ c ++ d) :: rest) 1 = b ∧
      cellBits ((a ++ b ++ c ++ d) :: rest) 2 = c ∧ cellBits ((a ++ b ++ c ++ d) :: rest) 3 = d := by
  intro a b c d rest
  simp only [cellBits, List.getD_cons_zero, Nat.reduceDiv, Nat.reduceMod, Nat.reduceMul, Nat.reduceSub, Nat.zero_div]
  revert a b c d; decide

theorem cellBits_next (b : Byte) (rest : List Byte) (c : Nat) : cellBits (b :: rest) (c + 4) = cellBits rest c := by
  simp [cellBits, Nat.add_div_right, Nat.add_mod_right]

theorem cellBits_packCells (l : List CellState) (h : l.length % 4 = 0) (i : Nat) (hi : i < l.length) :
    cellBits (packCells l) i = l[i].code := by
  induction l using packCells.induct generalizing i with
  | case1 a b c d rest ih =>
    obtain ⟨h0, h1, h2, h3⟩ := cellBits_first a.code b.code c.code d.code (packCells rest)
    rw [packCells]
    match i with
    | 0 => exact h0
    | 1 => exact h1
    | 2 => exact h2
    | 3 => exact h3
    | i + 4 =>
      rw [cellBits_next, ih (by simp only [List.length_cons] at h; omega) i (by simpa using hi)]
      rfl
  | case2 l short =>
    exfalso
    match l, short with
    | [], _ => simp at hi
    | [_], _ => simp at h
    | [_, _], _ => simp at h
    | [_, _, _], _ => simp at h
    | a :: b :: c :: d :: rest, short => exact short a b c d rest rfl

theorem packCells_length (l : List CellState) : (packCells l).length = l.length / 4 := by
  induction l using packCells.induct with
  | case1 a b c d rest ih => rw [packCells]; simp [ih]; omega
  | case2 l short =>
    match l, short with
    | [], _ => simp [packCells]
    | [_], _ => simp [packCells]
    | [_, _], _ => simp [packCells]
    | [_, _, _], _ => simp [packCells]
    | a :: b :: c :: d :: rest, short => exact absurd rfl (short a b c d rest)

theorem unpackRow_packCells (cells : RowCells) : unpackRow (packCells cells.toList) = cells :=
  Tbl.ext_get fun i => by
    have hi : i.val < cells.toList.length := by rw [cells.size]; exact i.isLt
    rw [unpackRow, Tbl.get_ofIdx, cellBits_packCells _ (by rw [cells.size]) _ hi, cellCode_ofCode]
    rfl

theorem readRow_bytes (r : RowEntry) : readRow r.bytes = some (r, []) := by
  have len : (packCells r.cells.toList).length = 8 := by rw [packCells_length, r.cells.size]
  have back := unpackRow_packCells r.cells
  unfold RowEntry.bytes be16
  generalize packCells r.cells.toList = l at len back
  match l, len with
  | [b0, b1, b2, b3, b4, b5, b6, b7], _ =>
    simp only [List.cons_append, List.nil_append, readRow, of16_be16, back]

end Sys2Proof.Machine
end

section
namespace Sys2Proof.Machine

/-! ## A frame taken -/

/-- Noting an early request writes the mark of it alone. -/
theorem noteEarly_eq (pre s : State) :
    noteEarly pre s = { s with pub := { s.pub with asked := (noteEarly pre s).pub.asked } } := by
  unfold noteEarly; split <;> rfl

section
variable (pre s : State)

@[simp] theorem noteEarly_line : (noteEarly pre s).line = s.line := by rw [noteEarly_eq]
@[simp] theorem noteEarly_claim : (noteEarly pre s).claim = s.claim := by rw [noteEarly_eq]
@[simp] theorem noteEarly_serial : (noteEarly pre s).serial = s.serial := by rw [noteEarly_eq]
@[simp] theorem noteEarly_image : (noteEarly pre s).image = s.image := by rw [noteEarly_eq]
@[simp] theorem noteEarly_station : (noteEarly pre s).station = s.station := by rw [noteEarly_eq]
@[simp] theorem noteEarly_replicas : (noteEarly pre s).replicas = s.replicas := by rw [noteEarly_eq]
@[simp] theorem noteEarly_recovery : (noteEarly pre s).recovery = s.recovery := by rw [noteEarly_eq]
@[simp] theorem noteEarly_face : (noteEarly pre s).face = s.face := by rw [noteEarly_eq]
@[simp] theorem noteEarly_cab : (noteEarly pre s).cab = s.cab := by rw [noteEarly_eq]
@[simp] theorem noteEarly_live : (noteEarly pre s).live = s.live := by simp [State.live]
@[simp] theorem noteEarly_isRole (r : Role) : (noteEarly pre s).isRole r = s.isRole r := by
  simp [State.isRole, State.role, State.cfg]

end

/-- A frame that is heard, of a payload that fits its class, is handed to its block once accepted. -/
theorem takeFrame_hears {c : FrameClass} {n : Station} {payload : List Byte} {f : State → State} {s : State}
    (hh : s.hears = true) (hp : payloadFits c payload = true) :
    event (takeFrame c n payload f) s = .next (finish s (f (noteEarly s (acceptFrame n s)))) := by
  rw [event_live (live_of_hears hh), takeFrame, ifHeard_hears hh, if_pos hp]

/-! ## A TRIP frame (R172) -/

theorem slotOfByte_ofNat : ∀ i : Fin 8, slotOfByte (BitVec.ofNat 8 i.val) = some i := by decide

theorem rowOfByte_ofNat : ∀ k : Fin 24, rowOfByte (BitVec.ofNat 8 k.val) = some k := by decide

/-- The slots of a sender once a NOTICE entry has gone into slot `i`: another slot of its code is emptied. -/
def tripSlots (e : NoticeEntry) (i : Fin 8) (slots : Tbl (Option NoticeEntry) 8) : Tbl (Option NoticeEntry) 8 :=
  (slots.map fun x => if x.map (·.code) == some e.code then none else x).set i (some e)

/-- The state a TRIP entry makes, once its frame is accepted. -/
def tripTakes (n : Station) (e : NoticeEntry) (i : Fin 8) (s : State) : State :=
  s.setReplica n { s.replica n with slots := tripSlots e i (s.replica n).slots }

@[simp] theorem tripTakes_live (n : Station) (e : NoticeEntry) (i : Fin 8) (s : State) :
    (tripTakes n e i s).live = s.live := rfl
@[simp] theorem tripTakes_isRole (n : Station) (e : NoticeEntry) (i : Fin 8) (s : State) (r : Role) :
    (tripTakes n e i s).isRole r = s.isRole r := rfl
@[simp] theorem tripTakes_cab (n : Station) (e : NoticeEntry) (i : Fin 8) (s : State) :
    (tripTakes n e i s).cab = s.cab := rfl

/-- The mark of an early request is no part of the rest. -/
theorem tripTakes_rest (pre s : State) (n : Station) (e : NoticeEntry) (i : Fin 8) :
    (tripTakes n e i (noteEarly pre s)).rest = (tripTakes n e i s).rest := by
  unfold noteEarly; split <;> rfl

theorem takeTrip_bytes {s : State} {n : Station} {e : NoticeEntry} {i : Fin 8} (hn : n ≠ s.station)
    (hi : e.slot = BitVec.ofNat 8 i.val) : takeTrip n e.bytes s = tripTakes n e i s := by
  simp only [takeTrip, hn, if_false, readTrip_bytes, takeNotice, hi, slotOfByte_ofNat]
  rfl

theorem tripTaken_next {s : State} {n : Station} {e : NoticeEntry} {i : Fin 8} (hh : s.hears = true) (hn : n ≠ s.station)
    (hi : e.slot = BitVec.ofNat 8 i.val) :
    exec (.tripTaken n e.bytes) s = .next (finish s (tripTakes n e i (noteEarly s (acceptFrame n s)))) := by
  have fits : payloadFits .trip e.bytes = true := by simp [payloadFits, NoticeEntry.bytes, FrameClass.minLength]
  show event (takeFrame .trip n e.bytes (takeTrip n e.bytes)) s = _
  rw [takeFrame_hears hh fits, takeTrip_bytes (by simpa using hn) hi]

/-! ## The display after an event at a CAB (R101 to R106) -/

/-- The vigilance check leaves list, horn and first-out record. -/
theorem vigSync_display (s : State) : (vigSync s).cab.list = s.cab.list ∧ (vigSync s).cab.horn = s.cab.horn ∧
    (vigSync s).cab.firstOut = s.cab.firstOut := by
  unfold vigSync vigDemand changeStanding; dsimp only; repeat' split
  all_goals exact ⟨rfl, rfl, rfl⟩

/-- The horn and the first-out record as the TRIP entries that entered the list leave them. -/
def HornAndCapture (old new : CabUnit) : Prop :=
  new.horn = (if tripEvents old.list new.list = [] then old.horn else some Config.horn) ∧
    new.firstOut = match old.firstOut, tripEvents old.list new.list with
      | none, c :: _ => some { owner := c.owner, code := c.entry.code, raise := c.entry.raise }
      | f, _ => f

theorem displaySync_hornAndCapture {s : State} (h : s.isRole .cab = true) : HornAndCapture s.cab (displaySync s).cab := by
  unfold displaySync HornAndCapture
  rw [if_pos h]
  refine ⟨?_, rfl⟩
  simp only [State.withCab_cab, List.isEmpty_iff]

theorem finish_cab {pre s : State} (hl : s.live = true) (h : s.isRole .cab = true) :
    (finish pre s).cab = (sync s).cab := by
  rw [finish_other pre s hl (isRole_eq h), statusSync_cab, State.noteRestarted_cab, beginFrame_cab, earlySync_cab,
    fillOrderSlot_cab]

/-- At a CAB the TRIP entries that an event brings into the list sound the horn and are captured. -/
theorem finish_hornAndCapture {pre s : State} (hl : s.live = true) (h : s.isRole .cab = true) :
    HornAndCapture s.cab (finish pre s).cab := by
  obtain ⟨v, hv, cab, synced⟩ := sync_cab h
  obtain ⟨list, horn, firstOut⟩ := vigSync_display s
  have shown := displaySync_hornAndCapture ((isRole_of_rest hv .cab).trans h)
  rw [finish_cab hl h, synced]
  unfold HornAndCapture at shown ⊢
  rwa [cab, list, horn, firstOut] at shown

/-! ## A MAP frame (R176) -/

/-- The state of a restoring CUTTER once a row of the buffer is taken. -/
def bufferTakes (k : Fin 24) (r : RowEntry) (s : State) : State :=
  restartRequest (s.withRecovery fun u => { u with buffer := u.buffer.set k (some r) })

theorem takeMap_bytes {s : State} {n : Station} {r : RowEntry} {k : Fin 24} (hc : s.isRole .cutter = true)
    (hr : s.recovery.state = .restoring) (hs : s.recovery.source = some n) (hk : r.row = BitVec.ofNat 8 k.val) :
    takeMap n r.bytes s = match sameAdvance (bufferTakes k r s).recovery.buffer with
      | some a => adoptMap a (bufferTakes k r s)
      | none => bufferTakes k r s := by
  have takes : (s.isRole .cutter && s.recovery.state == .restoring && s.recovery.source == some n) = true := by
    simp [hc, hr, hs]
  simp only [takeMap, readRow_bytes, takeMapRow, takes, if_true, hk, rowOfByte_ofNat]
  rfl

theorem mapTaken_next {s : State} {n : Station} {r : RowEntry} {k : Fin 24} (hh : s.hears = true)
    (hc : s.isRole .cutter = true) (hr : s.recovery.state = .restoring) (hs : s.recovery.source = some n)
    (hk : r.row = BitVec.ofNat 8 k.val) :
    exec (.mapTaken n r.bytes) s =
      .next (finish s (match sameAdvance (s.recovery.buffer.set k (some r)) with
        | some a => adoptMap a (bufferTakes k r (noteEarly s (acceptFrame n s)))
        | none => bufferTakes k r (noteEarly s (acceptFrame n s)))) := by
  have fits : payloadFits .map r.bytes = true := by
    simp [payloadFits, RowEntry.bytes, be16, packCells_length, r.cells.size, FrameClass.minLength]
  have buffer : (bufferTakes k r (noteEarly s (acceptFrame n s))).recovery.buffer = s.recovery.buffer.set k (some r) := by
    simp [bufferTakes, restartRequest]
  show event (takeFrame .map n r.bytes (takeMap n r.bytes)) s = _
  rw [takeFrame_hears hh fits, takeMap_bytes (by simpa using hc) (by simpa using hr) (by simpa using hs) hk, buffer]

/-- A buffer of one advance number holds every row. -/
theorem sameAdvance_full {rows : Tbl (Option RowEntry) 24} {a : Word16} (h : sameAdvance rows = some a) (q : Fin 24) :
    ∃ e, rows.get q = some e := by
  unfold sameAdvance at h
  split at h
  · split at h
    · rename_i all
      have := List.all_eq_true.1 all (rows.get q) (List.getElem_mem _)
      cases hq : rows.get q with
      | none => simp [hq] at this
      | some e => exact ⟨e, rfl⟩
    · cases h
  · cases h

/-- An adopted map gives every row its cells by the buffer (R21). -/
theorem adoptMap_cells {s : State} {a : Word16} (h : sameAdvance s.recovery.buffer = some a) (q : Fin 24) :
    some ((adoptMap a s).face.cells.get q) = (s.recovery.buffer.get q).map (adoptedRow (s.image.kinds.get q)) := by
  obtain ⟨e, he⟩ := sameAdvance_full h q
  have cells : (adoptMap a s).face.cells = Tbl.ofIdx 24 fun r => match s.recovery.buffer.get (Fin.ofNat 24 r) with
      | some e => adoptedRow (s.image.kinds.get (Fin.ofNat 24 r)) e
      | none => s.face.cells.get (Fin.ofNat 24 r) := rfl
  have index : Fin.ofNat 24 q.val = q := Fin.ext (Nat.mod_eq_of_lt q.isLt)
  rw [cells, Tbl.get_ofIdx, index, he, Option.map_some]

/-! Recovery after the end of an event, but for the request it makes. -/

section
variable (pre s : State)

theorem finish_recovery : (finish pre s).recovery.rest = s.recovery.rest := recovery_of_rest (finish_rest pre s)
theorem finish_recoveryState : (finish pre s).recovery.state = s.recovery.state :=
  show (finish pre s).recovery.rest.state = s.recovery.rest.state by rw [finish_recovery]
theorem finish_buffer : (finish pre s).recovery.buffer = s.recovery.buffer :=
  show (finish pre s).recovery.rest.buffer = s.recovery.rest.buffer by rw [finish_recovery]
theorem finish_adopted : (finish pre s).recovery.adopted = s.recovery.adopted :=
  show (finish pre s).recovery.rest.adopted = s.recovery.rest.adopted by rw [finish_recovery]
theorem finish_restored : (finish pre s).recovery.restored = s.recovery.restored :=
  show (finish pre s).recovery.rest.restored = s.recovery.rest.restored by rw [finish_recovery]

end

theorem adoptMap_temp (a : Word16) (s : State) : (adoptMap a s).face.temp = s.face.temp := rfl
theorem adoptMap_tags (a : Word16) (s : State) : (adoptMap a s).face.tags = s.face.tags := rfl

/-- Settles O28: a TRIP frame by the slot it fills and the display that follows; a MAP frame by its row and, at the 24th of one
number, by the map adopted. -/
theorem tripAndMapTaken : Obligations.TripAndMapTaken := by
  constructor
  · intro s n e i hh hn hi
    have live : (tripTakes n e i (noteEarly s (acceptFrame n s))).live = true := by simp [live_of_hears hh]
    refine ⟨_, tripTaken_next hh hn hi, ?_, fun hc => ?_⟩
    · have replica : (acceptFrame n s).replica n = s.replica n := by simp [State.replica]
      rw [finish_rest, tripTakes_rest, tripTakes, replica]
      rfl
    · have role : (tripTakes n e i (noteEarly s (acceptFrame n s))).isRole .cab = true := by simp [hc]
      have cab : (tripTakes n e i (noteEarly s (acceptFrame n s))).cab = s.cab := by simp
      have shown := finish_hornAndCapture (pre := s) live role
      rw [cab] at shown
      exact shown
  · intro s n r k hh hc hr hs hk
    refine ⟨_, mapTaken_next hh hc hr hs hk, ?_⟩
    have buffer : (bufferTakes k r (noteEarly s (acceptFrame n s))).recovery.buffer = s.recovery.buffer.set k (some r) := by
      simp [bufferTakes, restartRequest]
    have state : (bufferTakes k r (noteEarly s (acceptFrame n s))).recovery.state = .restoring := by
      simp [bufferTakes, restartRequest, hr]
    have face : (bufferTakes k r (noteEarly s (acceptFrame n s))).face = s.face := by simp [bufferTakes, restartRequest]
    have image : (bufferTakes k r (noteEarly s (acceptFrame n s))).image = s.image := by simp [bufferTakes, restartRequest]
    generalize bufferTakes k r (noteEarly s (acceptFrame n s)) = v at buffer state face image
    cases ha : sameAdvance (s.recovery.buffer.set k (some r)) with
    | none => exact ⟨(finish_recoveryState s v).trans state, (finish_buffer s v).trans buffer, (finish_face s v).trans face⟩
    | some a =>
      have cells := adoptMap_cells (s := v) (a := a) (by rw [buffer, ha])
      refine ⟨finish_recoveryState s (adoptMap a v), finish_adopted s (adoptMap a v), finish_restored s (adoptMap a v),
        finish_buffer s (adoptMap a v), ?_, ?_, ?_, fun q => ?_⟩
      all_goals rw [finish_face]
      · rfl
      · rw [adoptMap_temp, face]
      · rw [adoptMap_tags, face]
      · rw [cells q, buffer, image]

end Sys2Proof.Machine
end

section
/-! The image accepted, and the entry to CLAIMING. -/

namespace Sys2Proof.Machine

/-- The entry to CLAIMING with no CLAIM as its cause, as one update (R149). -/
theorem enterClaim_none (s : State) : enterClaim none s = { s with
    line := { s.line with state := .claiming, claim := some (ownClaim s) }
    ring := (commitLot s).ring
    claim := { s.claim with
      candidate := some ((Tbl.fill 8 none).set s.station (some (candOf (ownClaim s))))
      watch := none, ownSent := false, window := some Config.claimWindow } } := rfl

theorem completeRead_accepts {s : State} {bytes : List Byte} {i : Image} (h1 : s.line.state = .start)
    (h2 : s.resetHeld = false) (h3 : s.spi = .reading) (hi : readImage s.station bytes = some i) :
    completeRead bytes s = finish s (enterClaim none (loadImage i s)) := by
  simp only [completeRead, State.starting, h1, h2, h3, hi, startSucceeds, beq_self_eq_true, Bool.not_false, Bool.and_self,
    if_true]

/-- The entries of the channel table are due as the image's meanings have them polled (R182). -/
theorem loadImage_due (i : Image) (s : State) (e : Fin 16) : ((loadImage i s).sensor.channels.get e).due =
    decide (((i.stations.get s.station).channels.get e).meaning ≠ .unused) := by
  have index : Fin.ofNat 16 e.val = e := Fin.ext (Nat.mod_eq_of_lt e.isLt)
  have due : (loadImage i s).sensor.channels = s.sensor.channels.mapIdx fun k c => { c with due :=
      ((i.stations.get s.station).channels.get (Fin.ofNat 16 k)).meaning != .unused } := rfl
  rw [due, Tbl.get_mapIdx, index]
  by_cases h : ((i.stations.get s.station).channels.get e).meaning = .unused <;> simp [h]

/-- Settles O18: the image is loaded, and the entry to CLAIMING follows in the same event. -/
theorem imageAcceptedEntersClaim : Obligations.ImageAcceptedEntersClaim := by
  intro s bytes i h1 h2 h3 hi
  have next : exec (.imageReadComplete bytes) s = .next (finish s (enterClaim none (loadImage i s))) :=
    congrArg Host.Outcome.next (completeRead_accepts h1 h2 h3 hi)
  have spi := spi_of_rest (finish_rest s (enterClaim none (loadImage i s)))
  have status : (finish s (enterClaim none (loadImage i s))).status.code = 2 := by
    rw [finish_statusSound, State.statusCode, finish_lineState, enterClaim_none]
  refine ⟨_, next, ?_, spi, ?_, status, ?_, ?_, ?_, ?_, ⟨ownClaim (loadImage i s), ?_, ?_, ?_, ?_, ?_⟩, fun e => ?_⟩
  · rw [finish_image]; rfl
  · rw [finish_lineState]; rfl
  · rw [finish_face]; rfl
  · rw [finish_claim]; rfl
  · rw [finish_claim]; rfl
  · rw [finish_claim]; rfl
  · rw [finish_claimSlot]; rfl
  · rfl
  · rfl
  · rfl
  · rw [finish_claim]; rfl
  · rw [finish_sensor]; exact loadImage_due i s e

end Sys2Proof.Machine
end

section
/-! The roster that the close of a claim gives (R154, R155). -/

namespace Sys2Proof.Machine

/-! ## Counting stations in ascending order -/

/-- How many stations below `j` satisfy `p`. -/
def countBelow (p : Station → Bool) (j : Nat) : Nat := (eight.filter fun m => decide (m.val < j) && p m).length

theorem countBelow_zero (p : Station → Bool) : countBelow p 0 = 0 := by simp [countBelow]

theorem countBelow_succ (p : Station → Bool) (n : Station) :
    countBelow p (n.val + 1) = countBelow p n.val + if p n then 1 else 0 := by
  have step (l : List Station) : l.countP (fun m => decide (m.val < n.val + 1) && p m) =
      l.countP (fun m => decide (m.val < n.val) && p m) + l.countP (fun m => p m && decide (m = n)) := by
    induction l with
    | nil => rfl
    | cons a l ih =>
      have here : (if (decide (a.val < n.val + 1) && p a) = true then 1 else 0) =
          (if (decide (a.val < n.val) && p a) = true then 1 else 0) + if (p a && decide (a = n)) = true then 1 else 0 := by
        cases p a
        · simp
        · simp only [Fin.ext_iff, Bool.and_true, Bool.true_and, decide_eq_true_eq]; split_ifs <;> omega
      rw [List.countP_cons, List.countP_cons, List.countP_cons, ih, here]
      omega
  have only : (eight.filter fun m => p m && decide (m = n)) = [n].filter p := by
    have : ∀ n : Station, eight.filter (fun m => decide (m = n)) = [n] := by decide
    rw [← List.filter_filter, this]
  have := step eight
  rw [List.countP_eq_length_filter, List.countP_eq_length_filter, List.countP_eq_length_filter, only] at this
  refine this.trans ?_
  cases h : p n <;> simp [countBelow, h]

theorem countBelow_eight (p : Station → Bool) : countBelow p 8 = (eight.filter p).length := by
  simp [countBelow]

/-- Of the stations that satisfy `p` the lowest `k` are taken: below any station as many as there are, but no more. -/
theorem countBelow_lowest (p : Station → Bool) (k j : Nat) (hj : j ≤ 8) :
    countBelow (fun m => p m && decide (countBelow p m.val < k)) j = min k (countBelow p j) := by
  induction j with
  | zero => simp [countBelow_zero]
  | succ j ih =>
    have ih := ih (by omega)
    have hq := countBelow_succ (fun m => p m && decide (countBelow p m.val < k)) ⟨j, by omega⟩
    have hp := countBelow_succ p ⟨j, by omega⟩
    dsimp only at hq hp
    rw [hq, hp, ih]
    cases h : p ⟨j, by omega⟩ with
    | false => simp
    | true =>
      by_cases lt : countBelow p j < k
      · simp only [lt, decide_true, Bool.and_self, if_true]; omega
      · simp only [lt, decide_false, Bool.and_false, Bool.false_eq_true, if_false, if_true]; omega

/-! ## Role codes -/

theorem Role.code_inj {r q : Role} (h : r.code = q.code) : r = q := by
  revert h; cases r <;> cases q <;> decide

theorem Role.ofCode_eq_some {b : Byte} {r : Role} : Role.ofCode b = some r ↔ b = r.code := by
  constructor
  · unfold Role.ofCode
    repeat' split
    all_goals intro h; cases h <;> assumption
  · rintro rfl; cases r <;> rfl

theorem Role.ofCode_code (r : Role) : Role.ofCode r.code = some r := Role.ofCode_eq_some.2 rfl

/-- The FOREIGN test in the words of R154. -/
theorem isForeign_iff (i : Image) (n : Station) (role : Byte) (signature : Word16) :
    isForeign i n role signature = true ↔
      signature ≠ i.signature ∨ ∀ r : Role, role = r.code → (i.stations.get n).role ≠ some r := by
  have known : (Role.ofCode role).isNone = true ∨ Role.ofCode role ≠ (i.stations.get n).role ↔
      ∀ r : Role, role = r.code → (i.stations.get n).role ≠ some r := by
    cases hr : Role.ofCode role with
    | none =>
      simp only [Option.isNone_none, true_or, true_iff]
      rintro r rfl; simp [Role.ofCode_code] at hr
    | some q =>
      rw [Role.ofCode_eq_some] at hr; subst hr
      simp only [Option.isNone_some, Bool.false_eq_true, false_or]
      refine ⟨fun h r e => ?_, fun h => (h q rfl).symm⟩
      rw [← Role.code_inj e]; exact h.symm
  simp only [isForeign, Bool.or_eq_true, bne_iff_ne, ne_eq, or_assoc, ← known]

/-! ## The assessment (R154) -/

/-- A candidate entry of role `r` that is not FOREIGN. -/
def eligible (i : Image) (cand : Tbl (Option CandEntry) 8) (r : Role) (m : Station) : Bool :=
  match cand.get m with
  | some c => c.role == r.code && !isForeign i m c.role c.signature
  | none => false

/-- An entry of a known role that is not FOREIGN is PRESENT where fewer than the role's places are taken below it. -/
theorem assess_known {i : Image} {cand : Tbl (Option CandEntry) 8} {n : Station} {r : Role} {signature : Word16}
    (h : isForeign i n r.code signature = false) :
    assess i (fun m => (cand.get m).map fun e => (e.role, e.signature)) n r.code signature =
      if countBelow (eligible i cand r) n.val < r.places then .present else .excluded := by
  unfold assess countBelow
  rw [h, Role.ofCode_code, if_neg Bool.false_ne_true]
  refine if_congr (iff_of_eq (congrArg (List.length · < r.places) (List.filter_congr fun m _ => ?_))) rfl rfl
  dsimp only
  unfold eligible
  cases cand.get m <;> rfl

theorem assess_foreign {i : Image} {entries : Station → Option (Byte × Word16)} {n : Station} {role : Byte}
    {signature : Word16} (h : isForeign i n role signature = true) : assess i entries n role signature = .foreign := by
  simp [assess, h]

/-- The role of an entry that is not FOREIGN. -/
theorem role_of_not_foreign {i : Image} {n : Station} {role : Byte} {signature : Word16}
    (h : isForeign i n role signature = false) : ∃ r : Role, role = r.code := by
  simp only [isForeign, Bool.or_eq_false_iff] at h
  obtain ⟨⟨-, known⟩, -⟩ := h
  cases hr : Role.ofCode role with
  | none => rw [hr] at known; cases known
  | some r => exact ⟨r, Role.ofCode_eq_some.1 hr⟩

end Sys2Proof.Machine
end

section
namespace Sys2Proof.Machine

/-! ## The roster of the close -/

theorem closedRoster_get (s : State) (cand : Tbl (Option CandEntry) 8) (n : Station) :
    (closedRoster s cand).get n = (cand.get n).map (rosterOf s cand n) := by
  have index : Fin.ofNat 8 n.val = n := Fin.ext (Nat.mod_eq_of_lt n.isLt)
  rw [closedRoster, Tbl.get_mapIdx, index]

/-- A roster entry of role `r` that is PRESENT. -/
def presentIn (roster : Tbl (Option RosterEntry) 8) (r : Role) (n : Station) : Bool :=
  match roster.get n with
  | some e => e.role == r.code && e.state == .present
  | none => false

section
variable (s : State) (cand : Tbl (Option CandEntry) 8)

variable {s cand} in
theorem rosterOf_foreign {n : Station} {c : CandEntry} (h : isForeign s.image n c.role c.signature = true) :
    (rosterOf s cand n c).state = .foreign := assess_foreign h

variable {s cand} in
theorem rosterOf_known {n : Station} {c : CandEntry} {r : Role} (hr : c.role = r.code)
    (h : isForeign s.image n c.role c.signature = false) : (rosterOf s cand n c).state =
      if countBelow (eligible s.image cand r) n.val < r.places then .present else .excluded := by
  rw [hr] at h
  rw [← assess_known h, ← hr]; rfl

/-- PRESENT at the close: those of the role that are not FOREIGN, the lowest-numbered for which it has places. -/
theorem presentIn_closedRoster (r : Role) : presentIn (closedRoster s cand) r = fun n =>
    eligible s.image cand r n && decide (countBelow (eligible s.image cand r) n.val < r.places) := by
  funext n
  unfold presentIn
  rw [closedRoster_get]
  cases hc : cand.get n with
  | none => simp [eligible, hc]
  | some c =>
    have elig : eligible s.image cand r n = (c.role == r.code && !isForeign s.image n c.role c.signature) := by
      simp [eligible, hc]
    rw [elig]
    show (c.role == r.code && (rosterOf s cand n c).state == .present) = _
    cases hr : c.role == r.code with
    | false => rfl
    | true =>
      cases hf : isForeign s.image n c.role c.signature with
      | true => simp [rosterOf_foreign hf]
      | false => rw [rosterOf_known (beq_iff_eq.1 hr) hf]; split <;> simp [*]

theorem countBelow_presentIn (r : Role) (n : Station) : countBelow (presentIn (closedRoster s cand) r) n.val =
    min r.places (countBelow (eligible s.image cand r) n.val) := by
  rw [presentIn_closedRoster]; exact countBelow_lowest _ _ _ n.isLt.le

/-- No role has more PRESENT stations than places. -/
theorem presentIn_length (r : Role) : (eight.filter (presentIn (closedRoster s cand) r)).length ≤ r.places := by
  rw [← countBelow_eight, presentIn_closedRoster, countBelow_lowest _ _ _ (le_refl 8)]
  exact min_le_left _ _

/-- The state of an entry at the close: FOREIGN by the test of R154, else PRESENT, else EXCLUDED by lower numbers. -/
theorem rosterOf_state (n : Station) (c : CandEntry) :
    ((rosterOf s cand n c).state = .foreign ↔ isForeign s.image n c.role c.signature = true) ∧
    ((rosterOf s cand n c).state = .foreign ∨ (rosterOf s cand n c).state = .present ∨
      ∃ r : Role, (rosterOf s cand n c).state = .excluded ∧ c.role = r.code ∧
        countBelow (presentIn (closedRoster s cand) r) n.val = r.places) := by
  cases hf : isForeign s.image n c.role c.signature with
  | true =>
    simp [rosterOf_foreign hf]
  | false =>
    obtain ⟨r, hr⟩ := role_of_not_foreign hf
    rw [rosterOf_known hr hf]
    by_cases room : countBelow (eligible s.image cand r) n.val < r.places
    · simp [room]
    · refine ⟨by simp [room], .inr (.inr ⟨r, by simp [room], hr, ?_⟩)⟩
      rw [countBelow_presentIn]; omega

end

end Sys2Proof.Machine
end

section
/-! The claim window: a CLAIM that restarts it, and what its expiry does. -/

namespace Sys2Proof.Machine

/-! ## A CLAIM taken in CLAIMING (R151, R152) -/

theorem discardRecords_line (n : Station) (s : State) : (discardRecords n s).line = s.line := by
  unfold discardRecords
  dsimp only
  repeat' split
  any_goals rw [setTagRange_line]
  all_goals rfl

theorem enterCandidate_line (n : Station) (c : ClaimFrame) (s : State) : (enterCandidate n c s).line = s.line := by
  unfold enterCandidate
  dsimp only
  repeat' split
  all_goals rfl

/-- A CLAIM of another number leaves the claim going on, its window started afresh. -/
theorem takeClaim_claiming {s : State} {n : Station} (c : ClaimFrame) (hn : n ≠ s.station) (h : s.line.state = .claiming) :
    (takeClaim n c s).line.state = .claiming ∧ (takeClaim n c s).claim.window = some Config.claimWindow := by
  have discarded : (if (c.joining || s.serialChanged n c) = true then discardRecords n s else s).line.state = .claiming := by
    split
    · rw [discardRecords_line, h]
    · exact h
  unfold takeClaim
  rw [if_neg hn]
  generalize (if (c.joining || s.serialChanged n c) = true then discardRecords n s else s) = v at discarded
  have entered : (enterCandidate n c v).line.state = .claiming := by rw [enterCandidate_line, discarded]
  generalize he : enterCandidate n c v = w at entered
  simp only [discarded, he]
  exact ⟨by split <;> exact entered, rfl⟩

theorem acceptFrame_claiming {s : State} (n : Station) (h : s.line.state = .claiming) :
    (acceptFrame n s).line.state = .claiming := by
  rcases acceptFrame_state n s with same | ⟨h' | h', -⟩
  · rw [same, h]
  · rw [h] at h'; cases h'
  · rw [h] at h'; cases h'

theorem live_of_claiming {s : State} (h : s.line.state = .claiming) : s.live = true := by simp [State.live, h]

/-- An accepted CLAIM in CLAIMING is noted as one that has started the window afresh, where less than the whole was left. -/
theorem claimTaken_restarts {s : State} {n : Station} (c : ClaimFrame) {a : Ticks} (h : s.line.state = .claiming)
    (hn : n ≠ s.station) (hg : s.line.awaitsGap = false) (hw : s.claim.window = some a) (ha : a < ms 100) :
    ∃ t, exec (.claimTaken n c.bytes) s = .next t ∧ t.line.state = .claiming ∧ t.claim.window = some (ms 100) ∧
      .claimWindowExpiry ∈ t.restarted := by
  have hears : s.hears = true := by simp [State.hears, live_of_claiming h, hg]
  have fits : payloadFits .claim c.bytes = true := by simp [payloadFits, ClaimFrame.bytes, be16, be32, FrameClass.minLength]
  obtain ⟨state, window⟩ := takeClaim_claiming (s := noteEarly s (acceptFrame n s)) c (by simpa using hn)
    (by simpa using acceptFrame_claiming n h)
  have next : exec (.claimTaken n c.bytes) s = .next (finish s (takeClaim n c (noteEarly s (acceptFrame n s)))) := by
    show event (takeFrame .claim n c.bytes (takeClaimPayload n c.bytes)) s = _
    rw [takeFrame_hears hears fits, takeClaimPayload, readClaim_bytes]
  refine ⟨_, next, by rw [finish_lineState, state], by rw [finish_claim, window]; rfl, ?_⟩
  exact finish_restarted (live_of_claiming state) (mem_restartable _ (.inl rfl)) hw window ha

/-! ## The expiry -/

theorem claimWindowExpiry_acts {s : State} (h : s.line.state = .claiming) (hr : .claimWindowExpiry ∉ s.restarted) :
    exec .claimWindowExpiry s = .next (finish s (windowExpires s)) := by
  show event (unlessRestarted .claimWindowExpiry windowExpires) s = _
  rw [event_live (live_of_claiming h), unlessRestarted_act hr]

/-- The expiry of a window that has been started afresh at this moment changes nothing (log entry 6). -/
theorem claimWindowExpiry_restarted {s : State} (h : s.line.state = .claiming) (hr : .claimWindowExpiry ∈ s.restarted) :
    ∃ u, exec .claimWindowExpiry s = .next u ∧ u.rest = s.rest := by
  refine ⟨_, event_live (live_of_claiming h), ?_⟩
  rw [finish_rest, rest_unlessRestarted hr]

theorem windowExpires_waits {s : State} (h : s.line.state = .claiming) (hw : s.claim.window.isSome = true)
    (hc : s.line.claim ≠ none) : windowExpires s = s.withClaim fun u => { u with window := none } := by
  simp [windowExpires, h, hw, Option.isSome_iff_ne_none.2 hc]

theorem windowExpires_closes {s : State} (h : s.line.state = .claiming) (hw : s.claim.window.isSome = true)
    (hc : s.line.claim = none) : windowExpires s = closeClaim s := by
  simp [windowExpires, h, hw, hc]

/-! ## An excluded station (R157) -/

theorem applyReasons_line (s : State) : (applyReasons s).line = s.line := by
  unfold applyReasons dwellSync movePermit
  repeat' split
  all_goals rfl

theorem enterInactive_line (cause : InactiveCause) (s : State) :
    (enterInactive cause s).line.state = .inactive ∧ (enterInactive cause s).line.cause = some cause := by
  unfold enterInactive
  dsimp only
  split
  · rw [applyReasons_line]; exact ⟨rfl, rfl⟩
  · exact ⟨rfl, rfl⟩

/-! ## The close (R155) -/

/-- A claim closed at a station that its roster does not exclude: claim, line state and publication timer. -/
def claimCloses (s : State) (cand : Tbl (Option CandEntry) 8) : State :=
  let r := smallestBid (closedRoster s cand) s.cfg.bid
  { s with
    claim := { roster := startSilence s.station (tenMs (3 * r)) (closedRoster s cand), r := r, candidate := none,
               window := none, watch := some (tenMs (4 * r)), joining := false, ownSent := false, closed := true }
    line := { s.line with state := if 128 ≤ s.line.sfc || 128 ≤ s.line.hfc then .quiet else .run }
    pub := { s.pub with timer := some (s.station.val * tenMs r / 8) } }

theorem closeClaim_excluded {s : State} {cand : Tbl (Option CandEntry) 8} (hc : s.claim.candidate = some cand)
    (hx : ((closedRoster s cand).get s.station).map (·.state) = some .excluded) :
    closeClaim s = enterInactive .role s := by
  simp only [closeClaim, hc, hx, beq_self_eq_true, if_true]

theorem closeClaim_runs {s : State} {cand : Tbl (Option CandEntry) 8} (hc : s.claim.candidate = some cand)
    (hx : ((closedRoster s cand).get s.station).map (·.state) ≠ some .excluded) : closeClaim s =
      if s.isRole .cutter then cutterClose (!s.claim.closed) (claimCloses s cand) else claimCloses s cand := by
  unfold closeClaim
  rw [hc]
  dsimp only
  rw [if_neg (by simpa using hx)]
  rfl

end Sys2Proof.Machine
end

section
/-! The CUTTER's blocks at the close of a claim: tag range records, dust period, map recovery. -/

namespace Sys2Proof.Machine

/-! ## The tag range records bound anew (R8) -/

/-- `t` is `s` but for the tag range records and their marks. -/
def TagsOnly (s t : State) : Prop :=
  t = { s with face := { s.face with tags := t.face.tags }, pub := { s.pub with tagMarks := t.pub.tagMarks } }

theorem TagsOnly.refl (s : State) : TagsOnly s s := rfl

theorem TagsOnly.trans {s t u : State} (h : TagsOnly s t) (g : TagsOnly t u) : TagsOnly s u := by
  unfold TagsOnly at *; rw [g, h]

theorem tagsOnly_setTag (i : Fin 2) (t : TagRecord) (s : State) : TagsOnly s (setTag i t s) := by
  unfold setTag TagsOnly; split <;> rfl

theorem tagsOnly_unbindTag (i : Fin 2) (s : State) : TagsOnly s (unbindTag i s) := by
  unfold unbindTag
  repeat' split
  · exact .refl s
  · exact tagsOnly_setTag ..
  · exact .refl s

theorem tagsOnly_bindTag (s : State) (n : Station) : TagsOnly s (bindTag s n) := by
  unfold bindTag
  repeat' split
  · exact tagsOnly_setTag ..
  · exact .refl s
  · exact .refl s

theorem tagsOnly_bindTags (l : List Station) (s : State) : TagsOnly s (l.foldl bindTag s) := by
  induction l generalizing s with
  | nil => exact .refl s
  | cons n l ih => exact (tagsOnly_bindTag s n).trans (ih _)

theorem tagsOnly_markTags (s : State) : TagsOnly s (markTags s) := rfl

theorem tagsOnly_rebindTags (s : State) : TagsOnly s (rebindTags s) :=
  (((tagsOnly_unbindTag 0 s).trans (tagsOnly_unbindTag 1 _)).trans (tagsOnly_bindTags eight _)).trans (tagsOnly_markTags _)

theorem TagsOnly.isPresent {s t : State} (h : TagsOnly s t) : t.isPresent = s.isPresent := by rw [h]; rfl

theorem setTag_tags (i : Fin 2) (t : TagRecord) (s : State) : (setTag i t s).face.tags = s.face.tags.set i t := by
  rw [setTag_eq]

/-- A record whose station is no PRESENT CAB becomes unbound. -/
def keptRecord (present : Station → Bool) (r : TagRecord) : TagRecord :=
  match r.bound with
  | some n => if present n then r else ⟨none, .none⟩
  | none => r

theorem unbindTag_tags (i : Fin 2) (s : State) :
    (unbindTag i s).face.tags = s.face.tags.set i (keptRecord (s.isPresent .cab) (s.face.tags.get i)) := by
  unfold unbindTag keptRecord
  cases hb : (s.face.tags.get i).bound with
  | none => simp
  | some n => by_cases hp : s.isPresent .cab n = true <;> simp [hp, setTag_tags]

/-- The PRESENT CABs of a list that neither record is bound to. -/
def unboundCabs (present : Station → Bool) (r0 r1 : TagRecord) (l : List Station) : List Station :=
  l.filter fun n => present n && decide (r0.bound ≠ some n) && decide (r1.bound ≠ some n)

theorem unboundCabs_cons (present : Station → Bool) (r0 r1 : TagRecord) (n : Station) (l : List Station) :
    unboundCabs present r0 r1 (n :: l) =
      if (present n && decide (r0.bound ≠ some n) && decide (r1.bound ≠ some n)) = true then
        n :: unboundCabs present r0 r1 l else unboundCabs present r0 r1 l := List.filter_cons

/-- An unbound record takes the first of a list. -/
def bindRecord (r : TagRecord) (l : List Station) : TagRecord :=
  match r.bound, l with
  | none, n :: _ => ⟨some n, .none⟩
  | _, _ => r

theorem bindRecord_bound {r : TagRecord} (h : r.bound.isSome = true) (l : List Station) : bindRecord r l = r := by
  obtain ⟨n, hn⟩ := Option.isSome_iff_exists.1 h
  simp [bindRecord, hn]

theorem bindRecord_nil (r : TagRecord) : bindRecord r [] = r := by
  unfold bindRecord; cases r.bound <;> rfl

theorem bindRecord_cons {r : TagRecord} (h : r.bound = none) (n : Station) (l : List Station) :
    bindRecord r (n :: l) = ⟨some n, .none⟩ := by simp [bindRecord, h]

theorem boundRecord_isNone (s : State) (n : Station) : (s.boundRecord n).isNone =
    (decide ((s.face.tags.get 0).bound ≠ some n) && decide ((s.face.tags.get 1).bound ≠ some n)) := by
  unfold State.boundRecord
  by_cases h0 : (s.face.tags.get 0).bound = some n <;> by_cases h1 : (s.face.tags.get 1).bound = some n <;>
    simp [beq_eq_false_iff_ne.2, h0, h1]

/-- A station that is no unbound PRESENT CAB is passed over. -/
theorem bindTag_skips {s : State} {n : Station} (h : (s.isPresent .cab n &&
    decide ((s.face.tags.get 0).bound ≠ some n) && decide ((s.face.tags.get 1).bound ≠ some n)) = false) : bindTag s n = s := by
  unfold bindTag
  rw [boundRecord_isNone, ← Bool.and_assoc, h]; rfl

/-- An unbound PRESENT CAB takes the lowest unbound record, where there is one. -/
theorem bindTag_binds {s : State} {n : Station} (h : (s.isPresent .cab n &&
    decide ((s.face.tags.get 0).bound ≠ some n) && decide ((s.face.tags.get 1).bound ≠ some n)) = true) :
    ((bindTag s n).face.tags.get 0, (bindTag s n).face.tags.get 1) =
      if (s.face.tags.get 0).bound = none then (⟨some n, .none⟩, s.face.tags.get 1)
      else if (s.face.tags.get 1).bound = none then (s.face.tags.get 0, ⟨some n, .none⟩)
      else (s.face.tags.get 0, s.face.tags.get 1) := by
  unfold bindTag
  rw [boundRecord_isNone, ← Bool.and_assoc, h, if_pos rfl]
  cases h0 : (s.face.tags.get 0).bound with
  | none => simp [h0, setTag_tags, Tbl.get_set]
  | some m =>
    cases h1 : (s.face.tags.get 1).bound with
    | none => simp [h0, h1, setTag_tags, Tbl.get_set]
    | some k => simp [h0, h1]

/-- The unbound PRESENT CABs of an ascending list take the unbound records, record 0 first. -/
theorem bindTags_tags (l : List Station) (hl : l.Nodup) (s : State) :
    let waiting := unboundCabs (s.isPresent .cab) (s.face.tags.get 0) (s.face.tags.get 1) l
    (l.foldl bindTag s).face.tags.get 0 = bindRecord (s.face.tags.get 0) waiting ∧
      (l.foldl bindTag s).face.tags.get 1 =
        bindRecord (s.face.tags.get 1) (if (s.face.tags.get 0).bound.isSome then waiting else waiting.tail) := by
  induction l generalizing s with
  | nil => simp [unboundCabs, bindRecord_nil]
  | cons n l ih =>
    obtain ⟨hn, hl⟩ := List.nodup_cons.1 hl
    have ih := ih hl (bindTag s n)
    rw [(tagsOnly_bindTag s n).isPresent] at ih
    dsimp only at ih ⊢
    rw [List.foldl_cons, unboundCabs_cons]
    cases hb : (s.isPresent .cab n && decide ((s.face.tags.get 0).bound ≠ some n) &&
        decide ((s.face.tags.get 1).bound ≠ some n)) with
    | false =>
      rw [bindTag_skips hb] at ih ⊢
      exact ih
    | true =>
      have tags := bindTag_binds hb
      rw [if_pos rfl]
      cases h0 : (s.face.tags.get 0).bound with
      | none =>
        simp only [h0, if_true, Prod.mk.injEq] at tags
        have others : unboundCabs (s.isPresent .cab) ⟨some n, .none⟩ (s.face.tags.get 1) l =
            unboundCabs (s.isPresent .cab) (s.face.tags.get 0) (s.face.tags.get 1) l :=
          List.filter_congr fun m hm => by
            have : n ≠ m := fun e => hn (e ▸ hm)
            simp [h0, this]
        rw [tags.1, tags.2, others] at ih
        exact ⟨ih.1.trans ((bindRecord_bound rfl _).trans (bindRecord_cons h0 ..).symm), ih.2⟩
      | some m =>
        cases h1 : (s.face.tags.get 1).bound with
        | none =>
          simp only [h0, h1, reduceCtorEq, if_false, if_true, Prod.mk.injEq] at tags
          rw [tags.1, tags.2] at ih
          have bound : (s.face.tags.get 0).bound.isSome = true := by rw [h0]; rfl
          refine ⟨ih.1.trans ?_, ih.2.trans ((bindRecord_bound rfl _).trans (bindRecord_cons h1 ..).symm)⟩
          rw [bindRecord_bound bound, bindRecord_bound bound]
        | some k =>
          simp only [h0, h1, reduceCtorEq, if_false, Prod.mk.injEq] at tags
          rw [tags.1, tags.2] at ih
          have bound0 : (s.face.tags.get 0).bound.isSome = true := by rw [h0]; rfl
          have bound1 : (s.face.tags.get 1).bound.isSome = true := by rw [h1]; rfl
          rw [bindRecord_bound bound0, bindRecord_bound bound1] at ih ⊢
          exact ih

end Sys2Proof.Machine
end

section
/-! The request of map recovery at the end of an event (R174). -/

namespace Sys2Proof.Machine

/-! ## What leaves the request and the ORDER slot -/

/-- `t` has recovery and ORDER slot of `s`. -/
def SameRequest (s t : State) : Prop := t.recovery = s.recovery ∧ t.line.order = s.line.order

theorem SameRequest.refl (s : State) : SameRequest s s := ⟨rfl, rfl⟩

theorem SameRequest.trans {s t u : State} (h : SameRequest s t) (g : SameRequest t u) : SameRequest s u :=
  ⟨g.1.trans h.1, g.2.trans h.2⟩

theorem NoticesOnly.sameRequest {s t : State} (h : NoticesOnly s t) : SameRequest s t := by
  rw [h]; exact ⟨rfl, rfl⟩

section
variable (s : State)

theorem sameRequest_noteBreachEntered : SameRequest s (noteBreachEntered s) := by
  unfold noteBreachEntered; split <;> exact ⟨rfl, rfl⟩

theorem sameRequest_releaseBreach : SameRequest s (releaseBreach s) := by
  unfold releaseBreach; split <;> exact ⟨rfl, rfl⟩

theorem sameRequest_movePermit : SameRequest s (movePermit s) := by
  unfold movePermit; repeat' split
  all_goals exact ⟨rfl, rfl⟩

theorem sameRequest_applyReasons : SameRequest s (applyReasons s) :=
  have moved := sameRequest_movePermit { s with permit := { s.permit with reasons := s.reasonsNow } }
  SameRequest.trans (t := movePermit _) moved ⟨rfl, rfl⟩

theorem sameRequest_permitSync : SameRequest s (permitSync s) := by
  unfold permitSync; split
  · exact (((noticesOnly_judgeBreach s).sameRequest.trans (sameRequest_noteBreachEntered _)).trans
      (sameRequest_releaseBreach _)).trans (sameRequest_applyReasons _)
  · exact .refl s

theorem sameRequest_retryBreach : SameRequest s (retryBreach s) := by
  unfold retryBreach; split
  · exact (noticesOnly_raiseNotice .profileBreach s).sameRequest.trans (sameRequest_noteBreachEntered _)
  · exact .refl s

theorem sameRequest_displaySync : SameRequest s (displaySync s) := by
  unfold displaySync; split <;> exact ⟨rfl, rfl⟩

theorem sameRequest_earlySync (pre : State) : SameRequest s (earlySync pre s) := by
  unfold earlySync requestEarly; dsimp only; repeat' split
  all_goals exact ⟨rfl, rfl⟩

theorem sameRequest_beginFrame : SameRequest s (beginFrame s) := by
  unfold beginFrame; repeat' split
  all_goals exact ⟨rfl, rfl⟩

theorem sameRequest_statusSync : SameRequest s (statusSync s) := by
  unfold statusSync; split <;> exact ⟨rfl, rfl⟩

end

/-- The ORDER slot of a CUTTER is not the panel's. -/
theorem fillOrderSlot_cutter {s : State} (h : s.isRole .cutter = true) : fillOrderSlot s = s := by
  have cab : s.isRole .cab = false := isRole_eq h
  unfold fillOrderSlot; rw [cab]; rfl

/-! ## The source chosen -/

/-- A candidate for the source, as `betterSource` keeps it, is a PRESENT CAB. -/
theorem betterSource_present {s : State} {best : Option (Station × Word16)} (n : Station)
    (h : ∀ p, best = some p → s.isPresent .cab p.1 = true) :
    ∀ p, betterSource s best n = some p → s.isPresent .cab p.1 = true := by
  have new (a : Word16) (ha : s.sourceAdvance n = some a) : s.isPresent .cab n = true := by
    unfold State.sourceAdvance at ha
    split at ha
    · simp_all
    · cases ha
  intro p hp
  unfold betterSource at hp
  split at hp
  next a ha => cases hp; exact new a ha
  next m b a ha =>
    split at hp
    · cases hp; exact new a ha
    · cases hp; exact h _ rfl
  next => exact h p hp

theorem chosenSource_present {s : State} {n : Station} (h : s.chosenSource = some n) : s.isPresent .cab n = true := by
  have fold (l : List Station) (best : Option (Station × Word16)) (hb : ∀ p, best = some p → s.isPresent .cab p.1 = true) :
      ∀ p, l.foldl (betterSource s) best = some p → s.isPresent .cab p.1 = true := by
    induction l generalizing best with
    | nil => exact hb
    | cons m l ih => exact ih _ (betterSource_present m hb)
  obtain ⟨p, hp, rfl⟩ := Option.map_eq_some_iff.1 h
  exact fold eight none (by simp) p hp

theorem isPresent_of_rest {s t : State} (h : t.rest = s.rest) (r : Role) (n : Station) :
    t.isPresent r n = s.isPresent r n := by
  simp [State.isPresent, State.entryIs, State.entry, claim_of_rest h]

theorem chosenSource_of_rest {s t : State} (h : t.rest = s.rest) : t.chosenSource = s.chosenSource := by
  have refused : t.recovery.refused = s.recovery.refused :=
    show t.recovery.rest.refused = s.recovery.rest.refused by rw [recovery_of_rest h]
  have advance : t.sourceAdvance = s.sourceAdvance := by
    funext n
    simp [State.sourceAdvance, isPresent_of_rest h, refused, State.cabPart, State.replica, replicas_of_rest h]
  have better : betterSource t = betterSource s := by
    funext best n; simp [betterSource, advance]
  rw [State.chosenSource, better]; rfl

/-! ## The request made -/

/-- From counter `k`, the request to the source chosen, if there is one, stands and waits in the ORDER slot. -/
def RequestMade (k : Byte) (source : Option Station) (t : State) : Prop :=
  match source with
  | some n => t.recovery.request = some ⟨n, k + 1, none⟩ ∧ t.recovery.counter = k + 1 ∧ t.recovery.source = some n ∧
      t.line.order = some ⟨n, k + 1, .mapRequest, []⟩
  | none => t.recovery.request = none ∧ t.recovery.counter = k

theorem RequestMade.of_same {k : Byte} {source : Option Station} {s t : State} (h : RequestMade k source s)
    (g : SameRequest s t) : RequestMade k source t := by
  unfold RequestMade at *; rw [g.1, g.2]; exact h

/-- It is made where none is outstanding, and then stays. -/
theorem requestSync_made {s : State} {k : Byte} (hc : s.isRole .cutter = true) (hr : s.recovery.state = .restoring)
    (h : s.recovery.request = none ∧ s.recovery.counter = k ∨ RequestMade k s.chosenSource s) :
    RequestMade k s.chosenSource (requestSync s) := by
  have none_case (hn : s.recovery.request = none) (hk : s.recovery.counter = k) :
      RequestMade k s.chosenSource (requestSync s) := by
    have dropped : dropRequest s = s := by simp [dropRequest, hn]
    cases hs : s.chosenSource with
    | none =>
      have same : requestSync s = s := by simp [requestSync, hc, hr, dropped, hn, hs]
      rw [same]; exact ⟨hn, hk⟩
    | some n =>
      have placed : requestSync s = placeRequest n s := by simp [requestSync, hc, hr, dropped, hn, hs]
      rw [placed, ← hk]; exact ⟨rfl, rfl, rfl, rfl⟩
  rcases h with ⟨hn, hk⟩ | made
  · exact none_case hn hk
  · cases hs : s.chosenSource with
    | none =>
      obtain ⟨hn, hk⟩ : s.recovery.request = none ∧ s.recovery.counter = k := by rw [hs] at made; exact made
      rw [← hs]; exact none_case hn hk
    | some n =>
      rw [hs] at made
      have stands : s.recovery.request = some ⟨n, k + 1, none⟩ := made.1
      have dropped : dropRequest s = s := by simp [dropRequest, stands, chosenSource_present hs]
      have same : requestSync s = s := by simp [requestSync, hc, hr, dropped, stands]
      rw [same]; exact made

section
variable {s : State} {k : Byte}

theorem recoveryState_of_rest {t : State} (h : t.rest = s.rest) : t.recovery.state = s.recovery.state :=
  show t.recovery.rest.state = s.recovery.rest.state by rw [recovery_of_rest h]

theorem sync_made (hc : s.isRole .cutter = true) (hr : s.recovery.state = .restoring)
    (h : s.recovery.request = none ∧ s.recovery.counter = k ∨ RequestMade k s.chosenSource s) :
    RequestMade k s.chosenSource (sync s) := by
  unfold sync; rw [unitSync_cutter hc]
  have same := (noticesOnly_judgeNotices s).sameRequest.trans (sameRequest_permitSync _)
  have rest : (permitSync (judgeNotices s)).rest = s.rest := by simp
  generalize permitSync (judgeNotices s) = v at same rest
  have made : RequestMade k v.chosenSource (requestSync v) := by
    refine requestSync_made ((isRole_of_rest rest _).trans hc) ((recoveryState_of_rest rest).trans hr) ?_
    rw [chosenSource_of_rest rest]
    refine h.imp (fun none => ?_) fun made => made.of_same same
    rw [same.1]; exact none
  rw [chosenSource_of_rest rest] at made
  exact made.of_same (sameRequest_displaySync _)

/-- The end of an event at a RESTORING CUTTER with no request outstanding makes one, where a source can be chosen. -/
theorem finish_request {pre : State} (hl : s.live = true) (hc : s.isRole .cutter = true)
    (hr : s.recovery.state = .restoring) (hn : s.recovery.request = none) :
    RequestMade s.recovery.counter s.chosenSource (finish pre s) := by
  have first := sync_made hc hr (.inl ⟨hn, rfl⟩)
  have retried : RequestMade s.recovery.counter s.chosenSource (retrySync pre (sync s)) := by
    unfold retrySync; split
    · have rest : (retryBreach (sync s)).rest = s.rest := by simp
      have same := sameRequest_retryBreach (sync s)
      generalize sync s = v at first same rest
      generalize retryBreach v = w at rest same
      have source := chosenSource_of_rest rest
      rw [← source] at first ⊢
      exact sync_made ((isRole_of_rest rest _).trans hc) ((recoveryState_of_rest rest).trans hr) (.inr (first.of_same same))
    · exact first
  have role : (retrySync pre (sync s)).isRole .cutter = true := (isRole_of_rest (by simp) _).trans hc
  unfold finish settle
  rw [if_pos hl, fillOrderSlot_cutter role]
  generalize retrySync pre (sync s) = v at retried
  have early := retried.of_same (sameRequest_earlySync v pre)
  generalize earlySync pre v = w at early
  have begun := early.of_same (sameRequest_beginFrame w)
  generalize beginFrame w = x at begun
  exact begun.of_same (SameRequest.trans (t := noteRestarted pre x) ⟨rfl, rfl⟩ (sameRequest_statusSync _))

end

end Sys2Proof.Machine
end

section
/-! What the CUTTER's blocks do at the close of a claim (R8, R62, R174), and the claim window's obligation. -/

namespace Sys2Proof.Machine

/-! ## The blocks -/

theorem capacityRead_congr {s t : State} (hc : t.claim = s.claim) (hr : t.replicas = s.replicas) :
    t.capacityRead = s.capacityRead := by
  have present : t.isPresent .scrubber = s.isPresent .scrubber := by
    funext n; simp [State.isPresent, State.entryIs, State.entry, hc]
  simp [State.capacityRead, State.presentScrubber, State.presentOf, State.replica, present, hr]

/-- The dust unit after a close: a new period at the first one. -/
def periodAfter (first : Bool) (s : State) : DustUnit :=
  if first then { position := some 0, midDone := false, remaining := 10 * s.capacityRead, used := 0, fraction := 0 } else s.dust

/-- Recovery after a close: begun at the first one, where the image enables it. -/
def recoveryAfter (first : Bool) (s : State) : RecoveryUnit :=
  if first && s.cfg.mapRecovery then { s.recovery with state := .restoring, timer := some Config.recovery } else s.recovery

theorem markTags_marks (s : State) (i : Fin 2) : ((markTags s).pub.tagMarks.get i).isSome = true := by
  simp [markTags]

/-- A close reaches the tag range records, their marks, the dust period and recovery. -/
theorem cutterClose_eq (first : Bool) (s : State) : cutterClose first s = { s with
    face := { s.face with tags := (rebindTags s).face.tags }
    pub := { s.pub with tagMarks := (rebindTags s).pub.tagMarks }
    dust := periodAfter first s
    recovery := recoveryAfter first s } := by
  have only := tagsOnly_rebindTags s
  unfold cutterClose periodAfter recoveryAfter
  generalize rebindTags s = w at only
  have capacity : w.capacityRead = s.capacityRead := capacityRead_congr (by rw [only]) (by rw [only])
  have cfg : w.cfg = s.cfg := by rw [only]; rfl
  unfold TagsOnly at only
  cases first with
  | false => exact only
  | true =>
    have begun : startRecovery (startPeriod w) = if s.cfg.mapRecovery = true then
        (startPeriod w).withRecovery fun u => { u with state := .restoring, timer := some Config.recovery }
        else startPeriod w := by rw [startRecovery, ← cfg]; rfl
    simp only [if_true, begun]
    simp only [startPeriod, Bool.true_and, capacity]
    generalize w.face.tags = tags, w.pub.tagMarks = marks at only
    subst only
    split <;> rfl

section
variable (first : Bool) (s : State)

@[simp] theorem cutterClose_line : (cutterClose first s).line = s.line := by rw [cutterClose_eq]
@[simp] theorem cutterClose_claim : (cutterClose first s).claim = s.claim := by rw [cutterClose_eq]
@[simp] theorem cutterClose_replicas : (cutterClose first s).replicas = s.replicas := by rw [cutterClose_eq]
@[simp] theorem cutterClose_timer : (cutterClose first s).pub.timer = s.pub.timer := by rw [cutterClose_eq]
@[simp] theorem cutterClose_dust : (cutterClose first s).dust = periodAfter first s := by rw [cutterClose_eq]
@[simp] theorem cutterClose_recovery : (cutterClose first s).recovery = recoveryAfter first s := by rw [cutterClose_eq]
@[simp] theorem cutterClose_isRole (r : Role) : (cutterClose first s).isRole r = s.isRole r := by
  have image : (cutterClose first s).image = s.image := by rw [cutterClose_eq]
  have station : (cutterClose first s).station = s.station := by rw [cutterClose_eq]
  simp only [State.isRole, State.role, State.cfg, image, station]
@[simp] theorem cutterClose_live : (cutterClose first s).live = s.live := by simp [State.live]
theorem cutterClose_face : (cutterClose first s).face = { s.face with tags := (rebindTags s).face.tags } := by
  rw [cutterClose_eq]
theorem cutterClose_marks (i : Fin 2) : ((cutterClose first s).pub.tagMarks.get i).isSome = true := by
  have marks : (cutterClose first s).pub.tagMarks = (rebindTags s).pub.tagMarks := by rw [cutterClose_eq]
  rw [marks, rebindTags]
  exact markTags_marks _ i

end

theorem markTags_tags (s : State) : (markTags s).face.tags = s.face.tags := rfl

theorem unbindTags_tags (s : State) (i : Fin 2) : (unbindTag 1 (unbindTag 0 s)).face.tags.get i =
    keptRecord (s.isPresent .cab) (s.face.tags.get i) := by
  have cabs : (unbindTag 0 s).isPresent .cab = s.isPresent .cab := by
    funext n; rw [(tagsOnly_unbindTag 0 s).isPresent]
  rw [unbindTag_tags, unbindTag_tags, cabs]
  generalize s.face.tags = tags, s.isPresent .cab = present
  match i with
  | 0 => simp [Tbl.get_set]
  | 1 => simp [Tbl.get_set]

/-- The records after a close: those of no PRESENT CAB unbound, and the unbound PRESENT CABs bound, lower numbers first. -/
theorem rebindTags_tags (s : State) :
    let kept (i : Fin 2) := keptRecord (s.isPresent .cab) (s.face.tags.get i)
    let waiting := unboundCabs (s.isPresent .cab) (kept 0) (kept 1) eight
    (rebindTags s).face.tags.get 0 = bindRecord (kept 0) waiting ∧
      (rebindTags s).face.tags.get 1 = bindRecord (kept 1) (if (kept 0).bound.isSome then waiting else waiting.tail) := by
  have only0 := tagsOnly_unbindTag 0 s
  have only := only0.trans (tagsOnly_unbindTag 1 _)
  have bound := bindTags_tags eight (by decide) (unbindTag 1 (unbindTag 0 s))
  have marked : (rebindTags s).face.tags = (eight.foldl bindTag (unbindTag 1 (unbindTag 0 s))).face.tags := by
    rw [rebindTags, markTags_tags]
  rw [unbindTags_tags, unbindTags_tags, only.isPresent, ← marked] at bound
  exact bound

/-! ## The PRESENT of the closed claim -/

theorem startSilence_get (own : Station) (a : Ticks) (roster : Tbl (Option RosterEntry) 8) (n : Station) :
    ((startSilence own a roster).get n).map (fun e => (e.role, e.state)) = (roster.get n).map fun e => (e.role, e.state) := by
  have index : Fin.ofNat 8 n.val = n := Fin.ext (Nat.mod_eq_of_lt n.isLt)
  rw [startSilence, Tbl.get_mapIdx]
  cases roster.get n <;> rfl

theorem claimCloses_isPresent (s : State) (cand : Tbl (Option CandEntry) 8) (r : Role) :
    (claimCloses s cand).isPresent r = presentIn (closedRoster s cand) r := by
  funext n
  have entry := startSilence_get s.station (tenMs (3 * smallestBid (closedRoster s cand) s.cfg.bid)) (closedRoster s cand) n
  have here : (claimCloses s cand).entry n = (startSilence s.station
    (tenMs (3 * smallestBid (closedRoster s cand) s.cfg.bid)) (closedRoster s cand)).get n := rfl
  rw [← here] at entry
  unfold State.isPresent State.entryIs presentIn
  generalize (claimCloses s cand).entry n = e at entry
  cases e <;> cases hn : (closedRoster s cand).get n <;> simp_all

end Sys2Proof.Machine
end

section
/-! The close of a claim in the words of its obligation. -/

namespace Sys2Proof.Machine

/-! ## A station that the roster does not exclude -/

section
variable (s : State) (cand : Tbl (Option CandEntry) 8)

theorem claimCloses_lineState :
    (claimCloses s cand).line.state = if 128 ≤ s.line.sfc ∨ 128 ≤ s.line.hfc then .quiet else .run := by
  simp [claimCloses]

theorem claimCloses_running : (claimCloses s cand).line.state = .run ∨ (claimCloses s cand).line.state = .quiet := by
  rw [claimCloses_lineState]; split <;> simp

theorem claimCloses_live : (claimCloses s cand).live = true := by
  rcases claimCloses_running s cand with h | h <;> simp [State.live, h]

theorem claimCloses_face : (claimCloses s cand).face = s.face := rfl
theorem claimCloses_dust : (claimCloses s cand).dust = s.dust := rfl
theorem claimCloses_recovery : (claimCloses s cand).recovery = s.recovery := rfl
theorem claimCloses_cfg : (claimCloses s cand).cfg = s.cfg := rfl
theorem claimCloses_replicas : (claimCloses s cand).replicas = s.replicas := rfl
theorem claimCloses_timer : (claimCloses s cand).pub.timer =
    some (s.station.val * tenMs (smallestBid (closedRoster s cand) s.cfg.bid) / 8) := rfl
theorem claimCloses_isRole (r : Role) : (claimCloses s cand).isRole r = s.isRole r := rfl

variable {s cand}

/-- The CUTTER's blocks leave what every station's close sets. -/
theorem closeClaim_closed (hc : s.claim.candidate = some cand)
    (hx : ((closedRoster s cand).get s.station).map (·.state) ≠ some .excluded) :
    (closeClaim s).line = (claimCloses s cand).line ∧ (closeClaim s).claim = (claimCloses s cand).claim ∧
      (closeClaim s).pub.timer = (claimCloses s cand).pub.timer ∧ (closeClaim s).replicas = s.replicas := by
  rw [closeClaim_runs hc hx]
  split
  · simp only [cutterClose_line, cutterClose_claim, cutterClose_timer, cutterClose_replicas, claimCloses_replicas, and_self]
  · exact ⟨rfl, rfl, rfl, rfl⟩

/-- The end of the event in which a CUTTER's claim closes: `v` is the state at the close, `t` the one the event leaves. -/
theorem finish_cutterClose {pre v : State} {first : Bool} (hr : s.isRole .cutter = true)
    (hv : v = cutterClose first (claimCloses s cand)) :
    (finish pre v).permit.reasons.line = false ∧
    (finish pre v).face = { s.face with tags := (rebindTags (claimCloses s cand)).face.tags } ∧
    (∀ i : Fin 2, ((finish pre v).pub.tagMarks.get i).isSome = true) ∧
    (finish pre v).dust = (if first then
      { position := some 0, midDone := false, remaining := 10 * (finish pre v).capacityRead, used := 0, fraction := 0 }
      else s.dust) := by
  have role : v.isRole .cutter = true := by rw [hv, cutterClose_isRole, claimCloses_isRole, hr]
  have live : v.live = true := by rw [hv, cutterClose_live, claimCloses_live]
  have line : v.line = (claimCloses s cand).line := by rw [hv, cutterClose_line]
  have capacity : (finish pre v).capacityRead = (claimCloses s cand).capacityRead :=
    capacityRead_congr (by rw [finish_claim, hv, cutterClose_claim]) (by rw [finish_replicas, hv, cutterClose_replicas])
  refine ⟨?_, ?_, fun i => ?_, ?_⟩
  · obtain ⟨reasons, -⟩ := finish_permitStands (pre := pre) live role
    rw [reasons]
    show ((finish pre v).line.state != .run && (finish pre v).line.state != .quiet) = false
    rw [finish_lineState, line]
    rcases claimCloses_running s cand with h | h <;> rw [h] <;> rfl
  · rw [finish_face, hv, cutterClose_face, claimCloses_face]
  · rw [tagMarks_of_rest (finish_rest pre v), hv]; exact cutterClose_marks _ _ i
  · rw [finish_dust, capacity, hv, cutterClose_dust, periodAfter, claimCloses_dust]

/-- Recovery after that event: begun at the first close, with its request, or as it was. -/
theorem finish_recoveryAfter {pre v : State} {first : Bool} (hr : s.isRole .cutter = true)
    (hv : v = cutterClose first (claimCloses s cand)) :
    if first = true ∧ s.cfg.mapRecovery = true then
      (finish pre v).recovery.state = .restoring ∧ (finish pre v).recovery.timer = some (sec 2) ∧
        (s.recovery.request = none → RequestMade s.recovery.counter (finish pre v).chosenSource (finish pre v))
    else (finish pre v).recovery.state = s.recovery.state ∧ (finish pre v).recovery.timer = s.recovery.timer := by
  have role : v.isRole .cutter = true := by rw [hv, cutterClose_isRole, claimCloses_isRole, hr]
  have live : v.live = true := by rw [hv, cutterClose_live, claimCloses_live]
  have timer : (finish pre v).recovery.timer = v.recovery.timer :=
    show (finish pre v).recovery.rest.timer = v.recovery.rest.timer by rw [finish_recovery]
  have recovery : v.recovery = recoveryAfter first (claimCloses s cand) := by rw [hv, cutterClose_recovery]
  rw [finish_recoveryState, timer, chosenSource_of_rest (finish_rest pre v)]
  rw [recoveryAfter, claimCloses_recovery, claimCloses_cfg] at recovery
  split
  next begins =>
    rw [begins.1, begins.2] at recovery
    have state : v.recovery.state = .restoring := by rw [recovery]; rfl
    refine ⟨state, by rw [recovery]; rfl, fun none => ?_⟩
    have counter : v.recovery.counter = s.recovery.counter := by rw [recovery]; rfl
    rw [← counter]
    exact finish_request live role state (by rw [recovery]; exact none)
  next stays =>
    have off : (first && s.cfg.mapRecovery) = false := by simpa using stays
    rw [recovery, off]; exact ⟨rfl, rfl⟩

/-- The whole event at the CUTTER, its tag range records among it. -/
theorem claimWindowExpiry_cutter {t v : State} (ht : t = finish s v) (hr : s.isRole .cutter = true)
    (hv : v = cutterClose (!s.claim.closed) (claimCloses s cand)) :
    let kept (i : Fin 2) := keptRecord (presentIn (closedRoster s cand) .cab) (s.face.tags.get i)
    let unbound := unboundCabs (presentIn (closedRoster s cand) .cab) (kept 0) (kept 1) eight
    t.permit.reasons.line = false ∧ t.face = { s.face with tags := t.face.tags } ∧
      t.face.tags.get 0 = bindRecord (kept 0) unbound ∧
      t.face.tags.get 1 = bindRecord (kept 1) (if (kept 0).bound.isSome then unbound else unbound.tail) ∧
      (∀ i : Fin 2, (t.pub.tagMarks.get i).isSome = true) ∧
      t.dust = (if s.claim.closed then s.dust
        else { position := some 0, midDone := false, remaining := 10 * t.capacityRead, used := 0, fraction := 0 }) ∧
      if s.claim.closed = false ∧ s.cfg.mapRecovery = true then
        t.recovery.state = .restoring ∧ t.recovery.timer = some (sec 2) ∧
        (s.recovery.request = none → RequestMade s.recovery.counter t.chosenSource t)
      else t.recovery.state = s.recovery.state ∧ t.recovery.timer = s.recovery.timer := by
  obtain ⟨line, face, marks, dust⟩ := finish_cutterClose (pre := s) hr hv
  have recovery := finish_recoveryAfter (pre := s) hr hv
  have records := rebindTags_tags (claimCloses s cand)
  rw [claimCloses_isPresent, claimCloses_face] at records
  rw [← ht] at line face marks dust recovery
  have tags : t.face.tags = (rebindTags (claimCloses s cand)).face.tags := by rw [face]
  rw [← tags] at face records
  obtain ⟨tag0, tag1⟩ := records
  refine ⟨line, face, tag0, tag1, marks, ?_, ?_⟩
  · rw [dust]; cases s.claim.closed <;> rfl
  · cases h : s.claim.closed with
    | true => simpa [h] using recovery
    | false => simpa [h] using recovery

end

/-- Settles O25: the roster by counting the eligible of a role below each station, the close by its frame and the CUTTER's
blocks, the request of map recovery through the end of the event. -/
theorem claimWindowClosesClaim : Obligations.ClaimWindowClosesClaim := by
  unfold Obligations.ClaimWindowClosesClaim
  intro s cand hs hw hc roster present places
  have presentEq : present = presentIn (closedRoster s cand) := rfl
  have placesEq (r : Role) : places r = r.places := by cases r <;> rfl
  clear_value present places
  subst presentEq
  refine ⟨fun r => ?_, fun n => ?_, fun n c e hn he => ?_, fun n c a hn hg ha lt => ?_, fun fresh => ?_⟩
  · rw [placesEq]; exact presentIn_length s cand r
  · rw [closedRoster_get, Option.map_eq_none_iff]
  · have entry : e = rosterOf s cand n c := by
      have := closedRoster_get s cand n
      rw [hn, he] at this
      exact Option.some.inj this
    obtain ⟨foreign, state⟩ := rosterOf_state s cand n c
    rw [isForeign_iff] at foreign
    subst entry
    refine ⟨rfl, rfl, rfl, rfl, rfl, rfl, foreign, ?_⟩
    refine state.imp_right (Or.imp_right fun ⟨r, excluded, role, full⟩ => ⟨r, excluded, role, ?_⟩)
    rw [placesEq, ← full]; rfl
  · obtain ⟨t, taken, state, window, noted⟩ := claimTaken_restarts c hs hn hg ha lt
    obtain ⟨u, expired, same⟩ := claimWindowExpiry_restarted state noted
    exact ⟨t, u, taken, state, window, expired, same⟩
  · have acts := claimWindowExpiry_acts hs fresh
    refine ⟨fun waits => ?_, fun empty runs => ?_, fun empty runs cutter => ?_, fun empty excluded => ?_⟩
    · rw [windowExpires_waits hs hw waits] at acts
      exact ⟨_, acts, by rw [finish_lineState]; exact hs, by rw [finish_claim]; exact hc, by rw [finish_claim]; rfl⟩
    · rw [windowExpires_closes hs hw empty] at acts
      obtain ⟨line, claim, timer, replicas⟩ := closeClaim_closed hc runs
      refine ⟨_, acts, ?_⟩
      rw [finish_lineState, finish_claim, finish_pubTimer, finish_replicas, line, claim, timer, replicas,
        claimCloses_lineState, claimCloses_timer]
      exact ⟨rfl, rfl, rfl, rfl, rfl, rfl, rfl, rfl, rfl, rfl⟩
    · rw [windowExpires_closes hs hw empty, closeClaim_runs hc runs, if_pos cutter] at acts
      obtain ⟨v, hv⟩ : ∃ v, v = cutterClose (!s.claim.closed) (claimCloses s cand) := ⟨_, rfl⟩
      rw [← hv] at acts
      exact ⟨_, acts, claimWindowExpiry_cutter rfl cutter hv⟩
    · rw [windowExpires_closes hs hw empty, closeClaim_excluded hc excluded] at acts
      obtain ⟨state, cause⟩ := enterInactive_line .role s
      have sound : (finish s (enterInactive .role s)).status.code = 8 := by
        rw [finish_statusSound s (enterInactive .role s)]
        simp only [State.statusCode, finish_lineState, finish_cause, state, cause]
      exact ⟨_, acts, by rw [finish_lineState, state], by rw [finish_cause, cause], sound⟩

end Sys2Proof.Machine
end

section
/-! The dust unit through the acts of the commands: what leaves it, what lowers the allowance remaining, what starts a period
(R62 to R66). -/

namespace Sys2Proof.Machine

/-! ## The line -/

section
variable (s : State)

@[simp] theorem followCounts_dust : (followCounts s).dust = s.dust := by
  unfold followCounts; dsimp only; repeat' split
  all_goals rfl
@[simp] theorem lowerSfc_dust : (lowerSfc s).dust = s.dust := followCounts_dust _
@[simp] theorem commitLot_dust : (commitLot s).dust = s.dust := rfl
@[simp] theorem startWindow_dust : (startWindow s).dust = s.dust := rfl
@[simp] theorem queueClaim_dust : (queueClaim s).dust = s.dust := rfl
@[simp] theorem enterCandidate_dust (n : Station) (c : ClaimFrame) : (enterCandidate n c s).dust = s.dust := by
  unfold enterCandidate; dsimp only; repeat' split
  all_goals rfl
@[simp] theorem enterClaim_dust (cause : Option (Station × ClaimFrame)) : (enterClaim cause s).dust = s.dust := by
  cases cause <;> simp [enterClaim]
@[simp] theorem rejoin_dust : (rejoin s).dust = s.dust := enterClaim_dust _ _
@[simp] theorem lineGap_dust : (lineGap s).dust = s.dust := by
  unfold lineGap countGap; repeat' split
  all_goals rfl
@[simp] theorem contentionEnds_dust : (contentionEnds s).dust = s.dust := by unfold contentionEnds; split <;> rfl
@[simp] theorem sendError_dust (cls : FrameClass) (position : Fin 68) : (sendError cls position s).dust = s.dust := by
  unfold sendError; dsimp only; split
  · rfl
  · exact followCounts_dust _
@[simp] theorem meetSendError_dust (character : Fin 68) : (meetSendError character s).dust = s.dust := by
  unfold meetSendError; split <;> simp
@[simp] theorem rejectFrame_dust (kind : FaultKind) (cls : Option FrameClass) (position : Fin 68) :
    (rejectFrame kind cls position s).dust = s.dust := followCounts_dust _
@[simp] theorem frameEnds_dust : (frameEnds s).dust = s.dust := rfl
@[simp] theorem rejectChars_dust (chars : List LineChar) : (rejectChars chars s).dust = s.dust := by
  unfold rejectChars lineAtGap; dsimp only; repeat' split
  all_goals simp

/-! ## Frames sent whole -/

@[simp] theorem placeMapFrame_dust : (placeMapFrame s).dust = s.dust := by
  unfold placeMapFrame; repeat' split
  all_goals rfl
@[simp] theorem leaveSlot_dust (f : OutFrame) : (leaveSlot f s).dust = s.dust := by
  unfold leaveSlot; repeat' split
  all_goals simp
@[simp] theorem stateSent_dust (f : StateFrame) : (stateSent f s).dust = s.dust := by
  unfold stateSent; rw [entries_sent]
@[simp] theorem requestSent_dust (o : OrderFrame) : (requestSent o s).dust = s.dust := by
  unfold requestSent restartRequest; repeat' split
  all_goals rfl
@[simp] theorem reportSent_dust (f : OutFrame) : (reportSent f s).dust = s.dust := by
  cases f with
  | trip n => rfl
  | claim c => simp only [reportSent, claimSent]; split <;> rfl
  | order o =>
    simp only [reportSent]; split
    · rfl
    · exact requestSent_dust s o
  | map r => rfl
  | state f => exact stateSent_dust s f
@[simp] theorem sentWhole_dust (c : FrameClass) : (sentWhole c s).dust = s.dust := by
  unfold sentWhole; split
  · rfl
  · rw [reportSent_dust, leaveSlot_dust]; exact lowerSfc_dust s

/-! ## What frames bring -/

@[simp] theorem noteEarly_dust (pre : State) : (noteEarly pre s).dust = s.dust := by rw [noteEarly_eq]
@[simp] theorem raiseNotice_dust (c : NoticeCode) : (raiseNotice c s).dust = s.dust := dust_of_rest (rest_raiseNotice c s)
@[simp] theorem retryBreach_dust : (retryBreach s).dust = s.dust := dust_of_rest (rest_retryBreach s)
@[simp] theorem noteBreachEntered_dust : (noteBreachEntered s).dust = s.dust := by unfold noteBreachEntered; split <;> rfl
@[simp] theorem latchBreach_dust : (latchBreach s).dust = s.dust := by simp [latchBreach]
@[simp] theorem discardLots_dust : (discardLots s).dust = s.dust := rfl
@[simp] theorem setTagRange_dust (i : Fin 2) (r : TagRange) : (setTagRange i r s).dust = s.dust := by rw [setTagRange_eq]
@[simp] theorem discardRecords_dust (n : Station) : (discardRecords n s).dust = s.dust := by
  unfold discardRecords; dsimp only; repeat' split
  all_goals simp
@[simp] theorem outcomeNotices_dust (o : LotOutcome) : (outcomeNotices o s).dust = s.dust := by
  cases o <;> simp [outcomeNotices, setHolds]
@[simp] theorem retireHead_dust (r : LotRec) (others : List LotRec) : (retireHead r others s).dust = s.dust := by
  unfold retireHead; dsimp only
  rw [dust_of_rest (rest_judgeNotices _), outcomeNotices_dust, State.withConv_dust]
@[simp] theorem openWindows_dust (fuel : Nat) : (openWindows fuel s).dust = s.dust := by
  induction fuel generalizing s with
  | zero => rfl
  | succ fuel ih =>
    unfold openWindows; repeat' split
    all_goals simp [ih]
@[simp] theorem openWindow_dust : (openWindow s).dust = s.dust := openWindows_dust s 17
@[simp] theorem storeStatus_dust (n : Station) (r : StatusRecord) : (storeStatus n r s).dust = s.dust := by
  unfold storeStatus; dsimp only; split <;> rfl
@[simp] theorem cutterTakesConveyor_dust (p : ConveyorPart) : (cutterTakesConveyor p s).dust = s.dust := by
  unfold cutterTakesConveyor; dsimp only; repeat' split
  all_goals rfl
@[simp] theorem cutterTakesCab_dust (n : Station) (p : CabPart) : (cutterTakesCab n p s).dust = s.dust := by
  unfold cutterTakesCab; split <;> rfl
@[simp] theorem conveyorTakesCutter_dust (n : Station) (p : CutterPart) : (conveyorTakesCutter n p s).dust = s.dust := by
  unfold conveyorTakesCutter; dsimp only; repeat' split
  all_goals rfl
@[simp] theorem endHeld_dust (n : Station) (p : CutterPart) : (endHeld n p s).dust = s.dust := by
  unfold endHeld; split <;> rfl
@[simp] theorem takeStatus_dust (n : Station) (r : StatusRecord) : (takeStatus n r s).dust = s.dust := by
  rw [← storeStatus_dust s n r]; unfold takeStatus; dsimp only
  generalize storeStatus n r s = v
  repeat' split
  all_goals simp
@[simp] theorem takeNotice_dust (n : Station) (e : NoticeEntry) : (takeNotice n e s).dust = s.dust := by
  unfold takeNotice; split <;> rfl
@[simp] theorem takeAnswer_dust (n : Station) (a : AnswerEntry) : (takeAnswer n a s).dust = s.dust := by
  unfold takeAnswer takePanelAnswer takeRequestAnswer restartRequest; repeat' split
  all_goals rfl
@[simp] theorem takeLot_dust (l : LotEntry) : (takeLot l s).dust = s.dust := by
  unfold takeLot; split <;> simp
@[simp] theorem takeRow_dust (n : Station) (e : RowEntry) : (takeRow n e s).dust = s.dust := by
  unfold takeRow; repeat' split
  all_goals rfl
@[simp] theorem takeEntry_dust (n : Station) (e : Entry) : (takeEntry n s e).dust = s.dust := by
  cases e with
  | lot l => simp only [takeEntry]; split <;> simp
  | retire r => simp only [takeEntry]; split <;> rfl
  | status r => exact takeStatus_dust s n r
  | notice e => exact takeNotice_dust s n e
  | answer a => exact takeAnswer_dust s n a
  | row e => exact takeRow_dust s n e
  | tag t => rfl
  | fault f => rfl

end

theorem subEvent_dust {f : State → State} (h : ∀ s, (f s).dust = s.dust) (s : State) : (subEvent f s).dust = s.dust :=
  (dust_of_rest (rest_subEvent f s)).trans (h s)

/-- A fold of steps that each leave the dust unit leaves it. -/
theorem foldl_dust {α : Type} {f : State → α → State} (h : ∀ s a, (f s a).dust = s.dust) (l : List α) (s : State) :
    (l.foldl f s).dust = s.dust := by
  induction l generalizing s with
  | nil => rfl
  | cons a l ih => rw [List.foldl_cons, ih, h]

section
variable (s : State)

@[simp] theorem takeState_dust (n : Station) (payload : List Byte) : (takeState n payload s).dust = s.dust := by
  have onState : (subEvent (claimOnState n) s).dust = s.dust :=
    subEvent_dust (fun s => by unfold claimOnState; split <;> simp) s
  unfold takeState takeEntries; dsimp only; split
  · exact onState
  · exact (foldl_dust (fun s e => subEvent_dust (fun s => takeEntry_dust s n e) s) _ _).trans onState
@[simp] theorem takeTrip_dust (n : Station) (payload : List Byte) : (takeTrip n payload s).dust = s.dust := by
  unfold takeTrip; repeat' split
  all_goals simp
@[simp] theorem restartRequest_dust : (restartRequest s).dust = s.dust := rfl
@[simp] theorem adoptMap_dust (a : Word16) : (adoptMap a s).dust = s.dust := rfl
@[simp] theorem takeMap_dust (n : Station) (payload : List Byte) : (takeMap n payload s).dust = s.dust := by
  unfold takeMap takeMapRow; dsimp only; repeat' split
  all_goals simp
@[simp] theorem requestTimesOut_dust : (requestTimesOut s).dust = s.dust := by
  unfold requestTimesOut; repeat' split
  all_goals rfl
@[simp] theorem recoveryExpires_dust : (recoveryExpires s).dust = s.dust := by unfold recoveryExpires; split <;> rfl
@[simp] theorem publicationExpires_dust : (publicationExpires s).dust = s.dust := by
  unfold publicationExpires; dsimp only; split <;> rfl
@[simp] theorem placeEarly_dust : (placeEarly s).dust = s.dust := by unfold placeEarly; split <;> rfl
@[simp] theorem watchExpires_dust : (watchExpires s).dust = s.dust := by unfold watchExpires; split <;> simp
@[simp] theorem silenceExpires_dust (n : Station) : (silenceExpires n s).dust = s.dust := by
  unfold silenceExpires; repeat' split
  all_goals rfl
@[simp] theorem takeUnknown_dust (n : Station) (k : Byte) : (takeUnknown n k s).dust = s.dust := by
  unfold takeUnknown; dsimp only; split
  · exact acceptFrame_dust n s
  · exact acceptFrame_dust n s

/-! ## Orders -/

@[simp] theorem changeRange_dust (a b : Cell) (src dst : CellState) : (changeRange a b src dst s).dust = s.dust := by
  rw [changeRange_eq]
@[simp] theorem advanceFace_dust : (advanceFace s).dust = s.dust := by simp [advanceFace, markAllRows]

end

/-- An order's own rule leaves the dust unit. -/
abbrev OrderKeepsDust (owner : State → AnswerCode × State) : Prop := ∀ s, (owner s).2.dust = s.dust

theorem orderKeepsDust_faceOrder (breaks : Bool) (n : Station) {rule : Fin 2 → State → AnswerCode × State}
    (h : ∀ i, OrderKeepsDust (rule i)) : OrderKeepsDust (faceOrder breaks n rule) := by
  intro s; unfold faceOrder; repeat' split
  · rfl
  · rfl
  · rfl
  · exact (h _ _).trans (setTagRange_dust s _ _)
  · exact h _ s

section
variable (args : List Byte) (i : Fin 2) (n : Station)

theorem orderKeepsDust_tagFirstRule : OrderKeepsDust (tagFirstRule args i) := by
  intro s; unfold tagFirstRule; split <;> simp
theorem orderKeepsDust_tagLastRule : OrderKeepsDust (tagLastRule args i) := by
  intro s; unfold tagLastRule; repeat' split
  all_goals simp
theorem orderKeepsDust_releaseRule : OrderKeepsDust (releaseRule i) := by
  intro s; unfold releaseRule; repeat' split
  all_goals simp
theorem orderKeepsDust_withdrawRule : OrderKeepsDust (withdrawRule i) := by
  intro s; unfold withdrawRule; split <;> simp
theorem orderKeepsDust_protectRule : OrderKeepsDust (protectRule args i) := by
  intro s; unfold protectRule; dsimp only; repeat' split
  all_goals simp
theorem orderKeepsDust_unprotectRule : OrderKeepsDust (unprotectRule args i) := by
  intro s; unfold unprotectRule; repeat' split
  all_goals rfl
theorem orderKeepsDust_advanceRule : OrderKeepsDust (advanceRule i) := by
  intro s; unfold advanceRule; split <;> simp
theorem orderKeepsDust_washNowOrder : OrderKeepsDust (washNowOrder n) := by
  intro s; unfold washNowOrder; repeat' split
  all_goals rfl
theorem orderKeepsDust_scrubResetOrder : OrderKeepsDust (scrubResetOrder n) := by
  intro s; unfold scrubResetOrder; repeat' split
  all_goals rfl
theorem orderKeepsDust_conveyOrder (on : Bool) : OrderKeepsDust (conveyOrder on n) := by
  intro s; unfold conveyOrder; split <;> rfl
theorem orderKeepsDust_conveyResetOrder : OrderKeepsDust (conveyResetOrder n) := by
  intro s; unfold conveyResetOrder; repeat' split
  all_goals rfl
theorem orderKeepsDust_mapRequestOrder : OrderKeepsDust (mapRequestOrder n) := by
  intro s; unfold mapRequestOrder; dsimp only; repeat' split
  all_goals simp
theorem orderKeepsDust_ackNotice (slot raise : Byte) : OrderKeepsDust (ackNotice slot raise) := by
  intro s; unfold ackNotice acknowledge; dsimp only; repeat' split
  all_goals rfl
theorem orderKeepsDust_ackOrder : OrderKeepsDust (ackOrder n args) := by
  intro s; unfold ackOrder; split
  · rfl
  · exact orderKeepsDust_ackNotice _ _ s
theorem orderKeepsDust_clearFaultOrder : OrderKeepsDust (clearFaultOrder n) := by
  intro s; unfold clearFaultOrder; split <;> rfl
theorem orderKeepsDust_relinkOrder : OrderKeepsDust (relinkOrder n) := by
  intro s; unfold relinkOrder; repeat' split
  all_goals simp

end

theorem takeOrder_dust {n : Station} {k : Byte} {kind : OrderKind} {args : List Byte}
    {owner : State → AnswerCode × State} (h : OrderKeepsDust owner) (s : State) :
    (takeOrder n k kind args owner s).dust = s.dust := by
  unfold takeOrder; dsimp only; repeat' split
  · exact acceptFrame_dust n s
  · exact acceptFrame_dust n s
  · exact acceptFrame_dust n s
  · exact (h _).trans (acceptFrame_dust n s)

/-! ## Inputs, sensors and the units' times -/

section
variable (s : State)

theorem takeInput_dust (r : Role) (k : Fin 4) (active : Bool) {act : State → State} (h : ∀ s, (act s).dust = s.dust) :
    (takeInput r k active act s).dust = s.dust := by
  unfold takeInput; split
  · rw [h, State.withInput_dust]
  · rfl
@[simp] theorem poseExpires_dust : (poseExpires s).dust = s.dust := by
  unfold poseExpires; repeat' split
  all_goals rfl
@[simp] theorem openLotIfNone_dust : (openLotIfNone s).dust = s.dust := by unfold openLotIfNone; split <;> rfl
@[simp] theorem creditMass_dust (mass : Nat) : (creditMass mass s).dust = s.dust := by
  unfold creditMass; dsimp only; split <;> simp
@[simp] theorem creditCell_dust (c : Cell) : (creditCell c s).dust = s.dust := creditMass_dust _ _
@[simp] theorem dwellCompletes_dust : (dwellCompletes s).dust = s.dust := by
  unfold dwellCompletes; repeat' split
  all_goals simp
@[simp] theorem poseEvent_dust : (poseEvent s).dust = s.dust := by
  simp only [poseEvent, apply_ite State.dust, latchBreach_dust, retryBreach_dust, ite_self]
@[simp] theorem deliverPose_dust (isX : Bool) (v : Word16) : (deliverPose isX v s).dust = s.dust := by
  unfold deliverPose; split <;> exact poseEvent_dust _
@[simp] theorem atCutter_dust {f : State → State} (h : ∀ s, (f s).dust = s.dust) : (atCutter f s).dust = s.dust := by
  unfold atCutter; split <;> simp [h]
@[simp] theorem readySync_dust : (readySync s).dust = s.dust := by unfold readySync; split <;> simp
@[simp] theorem handOn_dust (e : Fin 16) (v : Word16) : (handOn e v s).dust = s.dust := by
  unfold handOn; dsimp only; repeat' split
  all_goals simp [deliverDust, deliverPressure]
@[simp] theorem setChannel_dust (e : Fin 16) (f : Channel → Channel) : (setChannel e f s).dust = s.dust := rfl
@[simp] theorem goodAnswer_dust (e : Fin 16) (v : Word16) : (goodAnswer e v s).dust = s.dust := by simp [goodAnswer]
@[simp] theorem failPoll_dust : (failPoll s).dust = s.dust := by unfold failPoll; split <;> rfl
@[simp] theorem discardAnswer_dust : (discardAnswer s).dust = s.dust := failPoll_dust s
@[simp] theorem assemble_dust (b : Byte) : (assemble b s).dust = s.dust := by
  unfold assemble setAssembly; repeat' split
  all_goals simp
@[simp] theorem takeCharacter_dust (data : Byte) (parity stop : Bool) :
    (takeCharacter data parity stop s).dust = s.dust := by
  unfold takeCharacter; repeat' split
  all_goals simp
@[simp] theorem takeBreak_dust : (takeBreak s).dust = s.dust := by
  unfold takeBreak; dsimp only; repeat' split
  all_goals simp
@[simp] theorem sendPoll_dust : (sendPoll s).dust = s.dust := by
  unfold sendPoll; repeat' split
  all_goals rfl
@[simp] theorem becomeDue_dust (e : Fin 16) : (becomeDue e s).dust = s.dust := by unfold becomeDue; split <;> rfl
@[simp] theorem becomeStale_dust (e : Fin 16) : (becomeStale e s).dust = s.dust := by
  unfold becomeStale; dsimp only; split <;> rfl
@[simp] theorem answerTimesOut_dust : (answerTimesOut s).dust = s.dust := by unfold answerTimesOut; split <;> simp
@[simp] theorem gapLimitPasses_dust : (gapLimitPasses s).dust = s.dust := by unfold gapLimitPasses; split <;> simp

/-! The sequencers' times. -/

@[simp] theorem abortWash_dust : (abortWash s).dust = s.dust := by unfold abortWash; split <;> rfl
@[simp] theorem startWindowExpires_dust : (startWindowExpires s).dust = s.dust := by
  unfold startWindowExpires; split
  · exact abortWash_dust _
  · rfl
@[simp] theorem proofLossExpires_dust : (proofLossExpires s).dust = s.dust := by
  unfold proofLossExpires; split
  · exact abortWash_dust _
  · rfl
@[simp] theorem runOnExpires_dust : (runOnExpires s).dust = s.dust := by
  unfold runOnExpires; split
  · exact abortWash_dust _
  · rfl
@[simp] theorem quietReaches_dust : (quietReaches s).dust = s.dust := by unfold quietReaches; split <;> rfl
@[simp] theorem washTimeExpires_dust : (washTimeExpires s).dust = s.dust := by unfold washTimeExpires; split <;> rfl
@[simp] theorem settlingExpires_dust : (settlingExpires s).dust = s.dust := by unfold settlingExpires; split <;> rfl
@[simp] theorem convFault_dust (why : ConvFault) : (convFault why s).dust = s.dust := by unfold convFault; split <;> rfl
@[simp] theorem warningExpires_dust : (warningExpires s).dust = s.dust := by unfold warningExpires; split <;> rfl
@[simp] theorem beltWindowExpires_dust : (beltWindowExpires s).dust = s.dust := by
  unfold beltWindowExpires; split <;> simp
@[simp] theorem chainWindowExpires_dust : (chainWindowExpires s).dust = s.dust := by
  unfold chainWindowExpires; split <;> simp
@[simp] theorem beltLossExpires_dust : (beltLossExpires s).dust = s.dust := by unfold beltLossExpires; split <;> simp
@[simp] theorem chainLossExpires_dust : (chainLossExpires s).dust = s.dust := by unfold chainLossExpires; split <;> simp
@[simp] theorem stallExpires_dust : (stallExpires s).dust = s.dust := by unfold stallExpires; split <;> simp
@[simp] theorem runOffExpires_dust : (runOffExpires s).dust = s.dust := by unfold runOffExpires; split <;> rfl
@[simp] theorem beltTick_dust : (beltTick s).dust = s.dust := by unfold beltTick; dsimp only; split <;> rfl
@[simp] theorem lotWindowOpens_dust : (lotWindowOpens s).dust = s.dust := by unfold lotWindowOpens; split <;> simp
@[simp] theorem lotRetires_dust : (lotRetires s).dust = s.dust := by
  unfold lotRetires; repeat' split
  all_goals simp

/-! The CAB's times and the panel. -/

@[simp] theorem hornEnds_dust : (hornEnds s).dust = s.dust := by unfold hornEnds; split <;> rfl
@[simp] theorem pairExpires_dust : (pairExpires s).dust = s.dust := by unfold pairExpires; split <;> rfl
@[simp] theorem vigWarns_dust : (vigWarns s).dust = s.dust := by
  unfold vigWarns; repeat' split
  all_goals rfl
@[simp] theorem vigLapses_dust : (vigLapses s).dust = s.dust := by unfold vigLapses; split <;> rfl
@[simp] theorem vigilA_dust : (vigilA s).dust = s.dust := rfl
@[simp] theorem vigilB_dust : (vigilB s).dust = s.dust := by
  unfold vigilB keyedPair; repeat' split
  all_goals rfl
@[simp] theorem pendingTimesOut_dust (k : Byte) : (pendingTimesOut k s).dust = s.dust := by
  unfold pendingTimesOut; repeat' split
  all_goals rfl
@[simp] theorem panelUp_dust : (panelUp s).dust = s.dust := rfl
@[simp] theorem keyWaitEnds_dust : (keyWaitEnds s).dust = s.dust := by
  unfold keyWaitEnds replyMissing; dsimp only; repeat' split
  all_goals rfl
@[simp] theorem sendPanelFrame_dust : (sendPanelFrame s).dust = s.dust := by unfold sendPanelFrame; split <;> rfl
@[simp] theorem executeOwn_dust (kind : OrderKind) (args : List Byte) : (executeOwn kind args s).dust = s.dust := by
  unfold executeOwn; simp only [State.withPanel_dust]; split
  · exact orderKeepsDust_ackNotice _ _ s
  · rfl
@[simp] theorem composeOrder_dust (kind : OrderKind) (target : Option Station) (args : List Byte) :
    (composeOrder kind target args s).2.dust = s.dust := by
  unfold composeOrder; dsimp only; repeat' split
  all_goals simp [showStatus]
@[simp] theorem composeTag_dust (kind : OrderKind) (args : List Byte) (step : Bool) :
    (composeTag kind args step s).dust = s.dust := by
  unfold composeTag; dsimp only; split
  · exact composeOrder_dust s kind _ args
  · exact composeOrder_dust s kind _ args
@[simp] theorem composePlain_dust (kind : OrderKind) (target : Option Station) (args : List Byte) :
    (composePlain kind target args s).dust = s.dust := composeOrder_dust s kind target args
theorem pageKey_dust {act : Page → State → State} (h : ∀ p s, (act p s).dust = s.dust) : (pageKey act s).dust = s.dust := by
  unfold pageKey; split
  · rfl
  · exact h _ s
theorem faceKey_dust {act : State → State} (h : ∀ s, (act s).dust = s.dust) : (faceKey act s).dust = s.dust :=
  pageKey_dust s fun p s => by
    split
    · exact h s
    · rfl
theorem keyUpDown_dust (down : Bool) (move : Cell → Cell) : (keyUpDown down move s).dust = s.dust := by
  unfold keyUpDown; split <;> rfl
theorem keySelect_dust : (keySelect s).dust = s.dust := by
  unfold keySelect selectOffer faceSelect openOffer; repeat' split
  all_goals simp [closeOffer]
theorem keyAck_dust : (keyAck s).dust = s.dust :=
  pageKey_dust s fun p s => by
    unfold ackSelected clearFirstOut; repeat' split
    all_goals simp

@[simp] theorem takeSnapshot_dust : (takeSnapshot s).dust = s.dust := rfl
theorem takeKey_dust {act : State → State} (h : ∀ s, (act s).dust = s.dust) : (takeKey act s).dust = s.dust := by
  unfold takeKey; dsimp only; split
  · exact (takeSnapshot_dust _).trans (subEvent_dust h s)
  · exact subEvent_dust h s
@[simp] theorem pressKey_dust (key : Key) : (pressKey key s).dust = s.dust := by
  cases key with
  | page => exact takeKey_dust s fun _ => rfl
  | up => exact takeKey_dust s fun s => keyUpDown_dust s _ _
  | down => exact takeKey_dust s fun s => keyUpDown_dust s _ _
  | left => exact takeKey_dust s fun s => faceKey_dust s fun _ => rfl
  | right => exact takeKey_dust s fun s => faceKey_dust s fun _ => rfl
  | select => exact takeKey_dust s keySelect_dust
  | release => exact takeKey_dust s fun s => faceKey_dust s fun s => composeTag_dust s _ _ _
  | withdraw => exact takeKey_dust s fun s => faceKey_dust s fun s => composeTag_dust s _ _ _
  | protect => exact takeKey_dust s fun s => faceKey_dust s fun s => composeTag_dust s _ _ _
  | advance => exact takeKey_dust s fun s => faceKey_dust s fun s => composeTag_dust s _ _ _
  | ack => exact takeKey_dust s keyAck_dust
  | vigilA => exact subEvent_dust vigilA_dust s
  | vigilB => exact subEvent_dust vigilB_dust s
@[simp] theorem takeKeyReport_dust (bytes : List Byte) : (takeKeyReport bytes s).dust = s.dust := by
  unfold takeKeyReport takeKeys; repeat' split
  · refine (foldl_dust (fun s b => ?_) _ _).trans (subEvent_dust panelUp_dust s)
    split <;> simp
  all_goals rfl

end

end Sys2Proof.Machine
end

section
/-! The allowance remaining through every step: it falls, stays, or has been loaded at a period start (R63 to R65). -/

namespace Sys2Proof.Machine

/-- The period has just started, and the allowance is that of the capacity read (R63). -/
def State.PeriodStarted (s : State) : Prop :=
  s.dust.position = some 0 ∧ s.dust.used = 0 ∧ s.dust.fraction = 0 ∧ s.dust.remaining = 10 * s.capacityRead

/-- The allowance remaining has not risen, or the period has just started. -/
def AllowanceStep (s t : State) : Prop := t.dust.remaining ≤ s.dust.remaining ∨ t.PeriodStarted

theorem AllowanceStep.of_dust {s t : State} (h : t.dust = s.dust) : AllowanceStep s t := .inl (by rw [h])

theorem AllowanceStep.of_empty {s t : State} (h : t.dust.remaining = 0) : AllowanceStep s t := .inl (by rw [h]; omega)

theorem AllowanceStep.of_same {s v t : State} (hd : v.dust = s.dust) (h : AllowanceStep v t) : AllowanceStep s t :=
  h.imp_left fun le => hd ▸ le

theorem startPeriod_started (s : State) : (startPeriod s).PeriodStarted := ⟨rfl, rfl, rfl, rfl⟩

theorem State.PeriodStarted.of_same {s t : State} (h : s.PeriodStarted) (hd : t.dust = s.dust) (hc : t.claim = s.claim)
    (hr : t.replicas = s.replicas) : t.PeriodStarted := by
  unfold State.PeriodStarted; rw [hd, capacityRead_congr hc hr]; exact h

/-- The end of an event leaves the dust unit and the capacity read. -/
theorem finish_allowance {pre s v : State} (h : AllowanceStep s v) : AllowanceStep s (finish pre v) :=
  h.imp (fun le => by rw [finish_dust]; exact le) fun started => started.of_same (by simp) (by simp) (by simp)

theorem event_allowance {f : State → State} {s t : State} (h : ∀ s, AllowanceStep s (f s)) (ht : event f s = .next t) :
    AllowanceStep s t := by
  cases Host.Outcome.next.inj ht; split
  · exact finish_allowance (h s)
  · exact .of_dust rfl

theorem event_keepsDust {f : State → State} {s t : State} (h : ∀ s, (f s).dust = s.dust) (ht : event f s = .next t) :
    AllowanceStep s t := event_allowance (fun s => .of_dust (h s)) ht

theorem ifHeard_allowance {f : State → State} (h : ∀ s, AllowanceStep s (f s)) (s : State) :
    AllowanceStep s (ifHeard f s) := by
  unfold ifHeard; split
  · exact .of_dust rfl
  · exact h s

theorem takeFrame_allowance (c : FrameClass) (n : Station) (payload : List Byte) {f : State → State}
    (h : ∀ s, AllowanceStep s (f s)) : ∀ s, AllowanceStep s (takeFrame c n payload f s) :=
  ifHeard_allowance fun s => by
    have accepted : (noteEarly s (acceptFrame n s)).dust = s.dust := by simp
    split
    · exact .of_same accepted (h _)
    · exact .of_dust (rejectFrame_dust s .length (some c) 1)

theorem takeFrame_keepsDust (c : FrameClass) (n : Station) (payload : List Byte) {f : State → State} {s t : State}
    (h : ∀ s, (f s).dust = s.dust) (ht : event (takeFrame c n payload f) s = .next t) : AllowanceStep s t :=
  event_allowance (takeFrame_allowance c n payload fun s => .of_dust (h s)) ht

theorem unlessRestarted_allowance (c : Instr) {f : State → State} (h : ∀ s, AllowanceStep s (f s)) (s : State) :
    AllowanceStep s (unlessRestarted c f s) := by
  unfold unlessRestarted; split
  · exact .of_dust rfl
  · exact h s

theorem unlessRestarted_keepsDust (c : Instr) {f : State → State} {s t : State} (h : ∀ s, (f s).dust = s.dust)
    (ht : event (unlessRestarted c f) s = .next t) : AllowanceStep s t :=
  event_allowance (unlessRestarted_allowance c fun s => .of_dust (h s)) ht

theorem orderEvent_keepsDust {n : Station} {k : Byte} {kind : OrderKind} {args : List Byte}
    {owner : State → AnswerCode × State} {s t : State} (h : OrderKeepsDust owner)
    (ht : orderEvent n k kind args owner s = .next t) : AllowanceStep s t :=
  event_allowance (ifHeard_allowance fun s => .of_dust (by
    split
    · exact takeOrder_dust h s
    · exact rejectFrame_dust s .length (some .order) 1)) ht

theorem atCab_keepsDust {f : State → State} {s t : State} (h : ∀ s, (f s).dust = s.dust)
    (ht : event (atCab f) s = .next t) : AllowanceStep s t :=
  event_keepsDust (fun s => by unfold atCab; split <;> simp [h]) ht

/-! ## What empties the allowance: the entry to INACTIVE (R62) -/

theorem enterInactive_dust (cause : InactiveCause) (s : State) :
    (enterInactive cause s).dust = { s.dust with position := none, remaining := 0 } := by
  unfold enterInactive; dsimp only; split
  · rename_i cutter; exact dust_of_rest (rest_applyReasons cutter)
  · rfl

theorem enterInactive_allowance (cause : InactiveCause) (s : State) : AllowanceStep s (enterInactive cause s) :=
  .of_empty (by rw [enterInactive_dust])

theorem goDuplicate_allowance (s : State) : AllowanceStep s (goDuplicate s) := .of_empty (by
  unfold goDuplicate; rw [enterInactive_dust])

theorem loseArbitration_allowance (character : Fin 68) (s : State) : AllowanceStep s (loseArbitration character s) := by
  unfold loseArbitration; repeat' split
  · exact .of_dust rfl
  · exact .of_dust (sendError_dust s _ _)
  · exact goDuplicate_allowance s
  · exact .of_dust rfl

theorem takeOwnNumber_allowance (c : ClaimFrame) (s : State) : AllowanceStep s (takeOwnNumber c s) := by
  unfold takeOwnNumber; repeat' split
  · exact goDuplicate_allowance s
  · exact .of_dust (enterClaim_dust s none)
  · exact .of_dust (enterClaim_dust s none)
  · exact .of_dust rfl
  · exact .of_dust rfl
  · exact .of_dust rfl

theorem withdrawnTakes_allowance (n : Station) (c : ClaimFrame) (s : State) : AllowanceStep s (withdrawnTakes n c s) := by
  unfold withdrawnTakes; dsimp only; split
  · exact .of_empty (by rw [enterInactive_dust])
  · exact .of_dust rfl

theorem takeClaim_allowance (n : Station) (c : ClaimFrame) (s : State) : AllowanceStep s (takeClaim n c s) := by
  unfold takeClaim; split
  · exact takeOwnNumber_allowance c s
  · have discarded : (if c.joining || s.serialChanged n c then discardRecords n s else s).dust = s.dust := by
      split <;> simp
    dsimp only
    generalize (if c.joining || s.serialChanged n c then discardRecords n s else s) = v at discarded
    split
    · exact .of_dust (by simpa using discarded)
    · exact .of_dust (by simpa using discarded)
    · exact .of_dust (by split <;> simpa using discarded)
    · exact .of_same discarded (withdrawnTakes_allowance n c v)
    · exact .of_dust discarded

theorem takeClaimPayload_allowance (n : Station) (payload : List Byte) (s : State) :
    AllowanceStep s (takeClaimPayload n payload s) := by
  unfold takeClaimPayload; split
  · exact takeClaim_allowance n _ s
  · exact .of_dust rfl

/-! ## What loads the allowance: a period start and the first claim close (R62, R63) -/

theorem periodStarts_allowance (s : State) : AllowanceStep s (periodStarts s) := by
  unfold periodStarts; split
  · exact .inr (startPeriod_started s)
  · exact .of_dust rfl

theorem cutterClose_allowance (first : Bool) (s : State) : AllowanceStep s (cutterClose first s) := by
  cases first with
  | false => exact .of_dust (cutterClose_dust false s)
  | true => exact .inr ((startPeriod_started s).of_same (cutterClose_dust true s) (by simp; rfl) (by simp; rfl))

theorem closeClaim_allowance (s : State) : AllowanceStep s (closeClaim s) := by
  cases hc : s.claim.candidate with
  | none => exact .of_dust (by unfold closeClaim; rw [hc])
  | some cand =>
    by_cases excluded : ((closedRoster s cand).get s.station).map (·.state) = some .excluded
    · rw [closeClaim_excluded hc excluded]; exact enterInactive_allowance .role s
    · rw [closeClaim_runs hc excluded]; split
      · exact .of_same (claimCloses_dust s cand) (cutterClose_allowance _ _)
      · exact .of_dust (claimCloses_dust s cand)

theorem windowExpires_allowance (s : State) : AllowanceStep s (windowExpires s) := by
  unfold windowExpires; repeat' split
  · exact .of_dust rfl
  · exact closeClaim_allowance s
  · exact .of_dust rfl

/-! ## What lowers the allowance: compare A, exhaustion, and permit-on time (R64, R65) -/

theorem midLowers_allowance (s : State) : AllowanceStep s (midLowers s) := by
  unfold midLowers; repeat' split
  · exact .inl (Nat.min_le_left _ _)
  · exact .of_dust rfl
  · exact .of_dust rfl

theorem allowanceEnds_allowance (s : State) : AllowanceStep s (allowanceEnds s) := by
  unfold allowanceEnds; split
  · exact .of_empty rfl
  · exact .of_dust rfl

theorem spend_remaining (u : DustUnit) : u.spend.remaining ≤ u.remaining := by
  unfold DustUnit.spend; repeat' split
  · exact Nat.le_refl _
  · exact Nat.le_refl _
  · exact Nat.le_refl _
  · exact Nat.sub_le _ _

theorem dustTick_remaining (s : State) : s.dustTick.remaining ≤ s.dust.remaining := by
  unfold State.dustTick; dsimp only; split
  · exact spend_remaining _
  · exact Nat.le_refl _

theorem debounceTick_dust (s : State) : (debounceTick s).dust = s.dust := by
  obtain ⟨inputs, pins, changed, -⟩ := debounceTick_eq s
  rw [changed]

theorem liveTick_allowance (s : State) : AllowanceStep s (liveTick s) := by
  have debounced := debounceTick_dust s
  unfold liveTick; dsimp only
  generalize debounceTick s = v at debounced
  split
  · exact .of_same debounced (.inl (dustTick_remaining v))
  all_goals exact .of_dust debounced

theorem passTick_allowance (s : State) : AllowanceStep s (passTick s) := by
  unfold passTick; split
  · exact liveTick_allowance (partTick s)
  · exact .of_dust (by unfold restTick; split <;> rfl)

/-! ## Start-up -/

theorem startFails_remaining (s : State) : (startFails s).dust.remaining = 0 := by
  unfold startFails; dsimp only; rw [dust_of_rest (rest_statusSync _)]; rfl

theorem completeRead_allowance (bytes : List Byte) (s : State) : AllowanceStep s (completeRead bytes s) := by
  unfold completeRead; repeat' split
  · exact finish_allowance (.of_dust (enterClaim_dust _ none))
  · exact .of_empty (startFails_remaining s)
  · exact .of_dust rfl

/-! ## Every command, and every step -/

theorem exec_allowance (c : Instr) {s t : State} (h : exec c s = .next t) : AllowanceStep s t := by
  cases c with
  -- START, RESET and the STATUS pattern
  | powerOn | resetAssert => cases Host.Outcome.next.inj h; exact .of_empty rfl
  | imageReadStart => cases Host.Outcome.next.inj h; exact .of_dust (by unfold startRead; split <;> rfl)
  | imageReadComplete bytes => cases Host.Outcome.next.inj h; exact completeRead_allowance bytes s
  | statusPatternStep => cases Host.Outcome.next.inj h; exact .of_dust rfl
  -- the line
  | lineGap => exact event_keepsDust lineGap_dust h
  | contentionDelayEnd => exact event_keepsDust contentionEnds_dust h
  | arbitrationLost character => exact event_allowance (loseArbitration_allowance character) h
  | sendError character => exact event_keepsDust (fun s => meetSendError_dust s character) h
  | frameRejected chars =>
    exact event_allowance (ifHeard_allowance fun s => .of_dust (rejectChars_dust s chars)) h
  | stateSentWhole | orderSentWhole | claimSentWhole | mapSentWhole | tripSentWhole =>
    exact event_keepsDust (fun s => sentWhole_dust s _) h
  -- frames taken, claim, roster, publication and recovery times
  | claimTaken n payload => exact event_allowance (takeFrame_allowance _ n payload (takeClaimPayload_allowance n payload)) h
  | claimWindowExpiry => exact event_allowance (unlessRestarted_allowance _ windowExpires_allowance) h
  | lineSilenceWatchExpiry => exact unlessRestarted_keepsDust _ watchExpires_dust h
  | silenceTimerExpiry n => exact unlessRestarted_keepsDust _ (fun s => silenceExpires_dust s n) h
  | stateTaken n payload => exact takeFrame_keepsDust _ n payload (fun s => takeState_dust s n payload) h
  | tripTaken n payload => exact takeFrame_keepsDust _ n payload (fun s => takeTrip_dust s n payload) h
  | mapTaken n payload => exact takeFrame_keepsDust _ n payload (fun s => takeMap_dust s n payload) h
  | mapRequestTimeout => exact event_keepsDust requestTimesOut_dust h
  | recoveryExpiry => exact event_keepsDust recoveryExpires_dust h
  | publicationTimerExpiry => exact event_keepsDust publicationExpires_dust h
  | earlyStatePlace => exact event_keepsDust placeEarly_dust h
  -- orders
  | tagFirst n k args => exact orderEvent_keepsDust (orderKeepsDust_faceOrder _ n (orderKeepsDust_tagFirstRule args)) h
  | tagLast n k args => exact orderEvent_keepsDust (orderKeepsDust_faceOrder _ n (orderKeepsDust_tagLastRule args)) h
  | release n k => exact orderEvent_keepsDust (orderKeepsDust_faceOrder _ n orderKeepsDust_releaseRule) h
  | withdraw n k => exact orderEvent_keepsDust (orderKeepsDust_faceOrder _ n orderKeepsDust_withdrawRule) h
  | protect n k args => exact orderEvent_keepsDust (orderKeepsDust_faceOrder _ n (orderKeepsDust_protectRule args)) h
  | unprotect n k args => exact orderEvent_keepsDust (orderKeepsDust_faceOrder _ n (orderKeepsDust_unprotectRule args)) h
  | advance n k => exact orderEvent_keepsDust (orderKeepsDust_faceOrder _ n orderKeepsDust_advanceRule) h
  | washNow n k => exact orderEvent_keepsDust (orderKeepsDust_washNowOrder n) h
  | scrubReset n k => exact orderEvent_keepsDust (orderKeepsDust_scrubResetOrder n) h
  | conveyOn n k => exact orderEvent_keepsDust (orderKeepsDust_conveyOrder n true) h
  | conveyOff n k => exact orderEvent_keepsDust (orderKeepsDust_conveyOrder n false) h
  | conveyReset n k => exact orderEvent_keepsDust (orderKeepsDust_conveyResetOrder n) h
  | mapRequest n k => exact orderEvent_keepsDust (orderKeepsDust_mapRequestOrder n) h
  | ack n k args => exact orderEvent_keepsDust (orderKeepsDust_ackOrder args n) h
  | clearFault n k => exact orderEvent_keepsDust (orderKeepsDust_clearFaultOrder n) h
  | relink n k => exact orderEvent_keepsDust (orderKeepsDust_relinkOrder n) h
  | orderUnknownKind n k kind =>
    exact event_allowance (ifHeard_allowance fun s => .of_dust (takeUnknown_dust s n k)) h
  | orderOtherTarget n target => exact event_allowance (ifHeard_allowance fun s => .of_dust (acceptFrame_dust n s)) h
  -- inputs
  | cutRequestChange | headRunningChange | fanProvenChange | sprayPressureChange | beltProvenChange | chainProvenChange =>
    exact event_keepsDust (fun s => takeInput_dust s _ _ _ fun _ => rfl) h
  | pullWireChange active =>
    exact event_keepsDust (fun s => takeInput_dust s _ _ _ fun s => by
      split
      · exact convFault_dust s _
      · rfl) h
  -- the CUTTER's times
  | poseExpiry => exact event_keepsDust (fun s => atCutter_dust s poseExpires_dust) h
  | dwellComplete => exact event_keepsDust (fun s => atCutter_dust s dwellCompletes_dust) h
  | periodStart => exact event_allowance periodStarts_allowance h
  | midPeriodLowering => exact event_allowance midLowers_allowance h
  | allowanceExhausted => exact event_allowance allowanceEnds_allowance h
  -- the SCRUBBER's times
  | startWindowExpiry => exact event_keepsDust startWindowExpires_dust h
  | proofLossExpiry => exact event_keepsDust proofLossExpires_dust h
  | runOnExpiry => exact event_keepsDust runOnExpires_dust h
  | quietTime10s => exact event_keepsDust quietReaches_dust h
  | washTimeExpiry => exact event_keepsDust washTimeExpires_dust h
  | settlingExpiry => exact event_keepsDust settlingExpires_dust h
  -- the CONVEYOR's times
  | warningExpiry => exact event_keepsDust warningExpires_dust h
  | beltWindowExpiry => exact event_keepsDust beltWindowExpires_dust h
  | chainWindowExpiry => exact event_keepsDust chainWindowExpires_dust h
  | beltLossExpiry => exact event_keepsDust beltLossExpires_dust h
  | chainLossExpiry => exact event_keepsDust chainLossExpires_dust h
  | stallExpiry => exact event_keepsDust stallExpires_dust h
  | runOffExpiry => exact event_keepsDust runOffExpires_dust h
  | beltTimeTick => exact event_keepsDust beltTick_dust h
  | lotWindowOpen => exact event_keepsDust lotWindowOpens_dust h
  | lotRetirement => exact event_keepsDust lotRetires_dust h
  -- the CAB's times and its panel
  | hornTimeExpiry => exact event_keepsDust hornEnds_dust h
  | vigilancePeriodExpiry => exact event_keepsDust vigWarns_dust h
  | graceExpiry => exact event_keepsDust vigLapses_dust h
  | vigilPairExpiry => exact event_keepsDust pairExpires_dust h
  | panelFrameSend => exact atCab_keepsDust sendPanelFrame_dust h
  | keyReport bytes => exact atCab_keepsDust (fun s => takeKeyReport_dust s bytes) h
  | keyReportMissing => exact atCab_keepsDust keyWaitEnds_dust h
  | keyPage | keyUp | keyDown | keyLeft | keyRight | keySelect | keyRelease | keyWithdraw | keyProtect | keyAdvance | keyAck
  | keyVigilA | keyVigilB => exact atCab_keepsDust (fun s => pressKey_dust s _) h
  | pendingOrderTimeout k => exact event_keepsDust (fun s => pendingTimesOut_dust s k) h
  -- the sensor line
  | channelDue e => exact event_keepsDust (fun s => becomeDue_dust s e) h
  | pollSend => exact event_keepsDust sendPoll_dust h
  | quietWaitEnd => exact event_keepsDust (fun s => State.withSensor_dust s _) h
  | answerTimeout => exact event_keepsDust answerTimesOut_dust h
  | gapLimitExpiry => exact unlessRestarted_keepsDust _ gapLimitPasses_dust h
  | sensorCharacter data parity stop => exact event_keepsDust (fun s => takeCharacter_dust s data parity stop) h
  | sensorBreak => exact event_keepsDust takeBreak_dust h
  | valueStale e => exact unlessRestarted_keepsDust _ (fun s => becomeStale_dust s e) h

theorem step_allowance {s t : State} (h : step s = .next t) : AllowanceStep s t := by
  unfold step at h; split at h
  · rename_i c queue _; exact .of_same (v := { s with pending := queue }) rfl (exec_allowance c h)
  · unfold idle at h; split at h
    · exact exec_allowance _ h
    · cases Host.Outcome.next.inj h; exact passTick_allowance s

/-- Settles O10: of what a step can do to the allowance, only a period start raises it. -/
theorem allowanceRisesAtPeriodStart : Obligations.AllowanceRisesAtPeriodStart := by
  intro s t h rises
  exact (step_allowance h).resolve_left (Nat.not_le.mpr rises)

end Sys2Proof.Machine
end

section
/-! The scrubber sequencer, field by field: what its following of demand and proof (R46 to R49, R53) makes of the fan, its
times, the quiet time and the wash. -/

namespace Sys2Proof.Machine

/-! ## Role and demand shown -/

theorem role_of_isRole {s : State} {r : Role} (h : s.isRole r = true) : s.role = some r := by
  simpa [State.isRole] using h

theorem demandShown_congr {s t : State} (hc : t.claim = s.claim) (hr : t.replicas = s.replicas) :
    t.demandShown = s.demandShown := by
  have present : t.isPresent .cutter = s.isPresent .cutter := by
    funext n; simp [State.isPresent, State.entryIs, State.entry, hc]
  simp [State.demandShown, State.presentCutter, State.presentOf, State.replica, present, hr]

theorem demandShown_of_rest {s t : State} (h : t.rest = s.rest) : t.demandShown = s.demandShown :=
  demandShown_congr (claim_of_rest h) (replicas_of_rest h)

/-! ## The stages of the sequencer -/

/-- The fan by demand and proof (R47, R48). -/
def FanState.follows (fan : FanState) (demand proof : Bool) : FanState :=
  match fan with
  | .stopped => if demand then if proof then .running else .starting else .stopped
  | .starting => if proof then if demand then .running else .runOn else .starting
  | .running | .runOn => if demand then .running else .runOn
  | .fault => .fault

/-- The fan comes to RUNNING or RUN_ON from outside the two: it has its proof in STARTING, or at its start (R47, R56). -/
def FanState.proves (fan : FanState) (demand proof : Bool) : Bool :=
  proof && (fan == .starting || fan == .stopped && demand)

/-- The sequencer's following of demand and proof, as a map of its own unit: fan, start window, run-on, and the condition of
"WASH ABORTED" (R47, R48, R56). -/
def Scrubber.followsFan (u : Scrubber) (proof : Bool) : Scrubber :=
  { u with
    fan := u.fan.follows u.demand proof
    startWindow :=
      if u.fan.proves u.demand proof then none
      else if u.fan = .stopped ∧ u.demand = true then some Config.startWindow else u.startWindow
    runOn :=
      if u.demand then if u.fan.proves true proof ∨ u.fan = .runOn then none else u.runOn
      else if u.fan.proves false proof ∨ u.fan = .running then some Config.runOn else u.runOn
    washAborted := u.washAborted && !u.fan.proves u.demand proof }

theorem fanFollows_scrub (s : State) : (fanFollows s).scrub = s.scrub.followsFan s.inputs.i0 := by
  unfold fanFollows fanRuns Scrubber.followsFan
  cases hu : s.scrub with
  | mk fan wash dust pressure demand =>
    cases fan with
    | stopped => cases demand <;> cases hp : s.inputs.i0 <;> simp [hu, hp, FanState.follows, FanState.proves]
    | starting => cases demand <;> cases hp : s.inputs.i0 <;> simp [hu, FanState.follows, FanState.proves]
    | running => cases demand <;> simp [hu, FanState.follows, FanState.proves]
    | runOn => cases demand <;> simp [hu, FanState.follows, FanState.proves]
    | fault => cases demand <;> simp [hu, FanState.follows, FanState.proves]

theorem fanFollows_inputs (s : State) : (fanFollows s).inputs = s.inputs := by
  unfold fanFollows fanRuns; dsimp only; repeat' split
  all_goals rfl

theorem fanFollows_image (s : State) : (fanFollows s).image = s.image := by
  unfold fanFollows fanRuns; dsimp only; repeat' split
  all_goals rfl

/-- The quiet time starts from 0 at a change of demand (R46). -/
def Scrubber.takesDemand (u : Scrubber) (demand : Bool) : Scrubber :=
  { u with demand := demand, quietLeft := if demand = u.demand then u.quietLeft else some Config.quietTime }

theorem scrubDemand_eq (s : State) : scrubDemand s = s.withScrub fun u => u.takesDemand s.demandShown := by
  unfold scrubDemand Scrubber.takesDemand; dsimp only; split
  · rename_i same; simp [State.withScrub, same]
  · rename_i other; simp [State.withScrub, other]

/-- A wash starts where it is due, the fan runs and the quiet time has come to 10 s (R53). -/
def Scrubber.washes (u : Scrubber) : Bool := u.wash == .due && u.fan.runs && u.quietLeft.isNone

/-- The unit with a wash just begun (R53, R54). -/
def Scrubber.startsWash (u : Scrubber) (washTime : Ticks) : Scrubber :=
  { u with wash := .washing, washTime := some washTime, settling := none }

theorem startWash_eq (s : State) : startWash s = s.withScrub fun u => u.startsWash (sec s.image.washTime) := rfl

theorem autoWash_eq (s : State) : autoWash s = if s.scrub.washes then startWash s else s := rfl

theorem washes_of_not_due {u : Scrubber} (h : u.wash ≠ .due) : u.washes = false := by simp [Scrubber.washes, h]

/-- The sequencer's unit once the fan has followed demand and proof, before a wash is started. -/
def Scrubber.followed (u : Scrubber) (demand proof : Bool) : Scrubber :=
  let v := (u.takesDemand demand).followsFan proof
  { v with proofLoss := Timer.follow (v.fan.runs && !proof) Config.proofLoss v.proofLoss }

/-- The sequencer as a map of its own unit, by demand shown, proof and the configured wash time. -/
def Scrubber.synced (u : Scrubber) (demand proof : Bool) (washTime : Ticks) : Scrubber :=
  let v := u.followed demand proof
  if v.washes then v.startsWash washTime else v

theorem scrubSync_scrub {s : State} (h : s.isRole .scrubber = true) :
    (scrubSync s).scrub = s.scrub.synced s.demandShown s.inputs.i0 (sec s.image.washTime) := by
  have followed : (fanProofLoss (fanFollows (scrubDemand s))).scrub = s.scrub.followed s.demandShown s.inputs.i0 := by
    rw [fanProofLoss, State.withScrub_scrub, fanFollows_scrub, fanFollows_inputs, scrubDemand_eq]; rfl
  have image : (fanProofLoss (fanFollows (scrubDemand s))).image = s.image := by
    rw [fanProofLoss, State.withScrub_image, fanFollows_image, scrubDemand_eq]; rfl
  unfold scrubSync Scrubber.synced; rw [if_pos h, autoWash_eq]
  generalize fanProofLoss (fanFollows (scrubDemand s)) = v at followed image
  rw [← followed]
  dsimp only; split
  · rw [startWash_eq, State.withScrub_scrub, image]
  · rfl

/-! ## What the sequencer leaves of its unit, field by field -/

section
variable (u : Scrubber) (demand proof : Bool) (washTime : Ticks)

@[simp] theorem synced_demand : (u.synced demand proof washTime).demand = demand := by
  unfold Scrubber.synced; dsimp only; split <;> rfl
@[simp] theorem synced_fan : (u.synced demand proof washTime).fan = u.fan.follows demand proof := by
  unfold Scrubber.synced; dsimp only; split <;> rfl
@[simp] theorem synced_quietLeft : (u.synced demand proof washTime).quietLeft =
    if demand = u.demand then u.quietLeft else some Config.quietTime := by
  unfold Scrubber.synced; dsimp only; split <;> rfl
@[simp] theorem synced_startWindow : (u.synced demand proof washTime).startWindow =
    if u.fan.proves demand proof then none
    else if u.fan = .stopped ∧ demand = true then some Config.startWindow else u.startWindow := by
  unfold Scrubber.synced; dsimp only; split <;> rfl
@[simp] theorem synced_runOn : (u.synced demand proof washTime).runOn =
    if demand then if u.fan.proves true proof ∨ u.fan = .runOn then none else u.runOn
    else if u.fan.proves false proof ∨ u.fan = .running then some Config.runOn else u.runOn := by
  unfold Scrubber.synced; dsimp only; split <;> rfl
@[simp] theorem synced_washAborted : (u.synced demand proof washTime).washAborted =
    (u.washAborted && !u.fan.proves demand proof) := by
  unfold Scrubber.synced; dsimp only; split <;> rfl
@[simp] theorem synced_proofLoss : (u.synced demand proof washTime).proofLoss =
    Timer.follow ((u.fan.follows demand proof).runs && !proof) Config.proofLoss u.proofLoss := by
  unfold Scrubber.synced; dsimp only; split <;> rfl
@[simp] theorem synced_dust : (u.synced demand proof washTime).dust = u.dust := by
  unfold Scrubber.synced; dsimp only; split <;> rfl
@[simp] theorem synced_pressure : (u.synced demand proof washTime).pressure = u.pressure := by
  unfold Scrubber.synced; dsimp only; split <;> rfl
@[simp] theorem synced_dustAction : (u.synced demand proof washTime).dustAction = u.dustAction := by
  unfold Scrubber.synced; dsimp only; split <;> rfl
@[simp] theorem synced_dustLimit : (u.synced demand proof washTime).dustLimit = u.dustLimit := by
  unfold Scrubber.synced; dsimp only; split <;> rfl

/-- The wash by fan and quiet time as the sequencer leaves them. -/
theorem synced_wash : (u.synced demand proof washTime).wash =
    if u.wash = .due ∧ (u.synced demand proof washTime).fan.runs = true ∧
      (u.synced demand proof washTime).quietLeft = none then .washing else u.wash := by
  have due : (u.followed demand proof).washes = true ↔ u.wash = .due ∧
      (u.synced demand proof washTime).fan.runs = true ∧ (u.synced demand proof washTime).quietLeft = none := by
    simp [Scrubber.washes, Scrubber.followed, Scrubber.takesDemand, Scrubber.followsFan, and_assoc]
  cases w : (u.followed demand proof).washes with
  | true => rw [if_pos (due.1 w)]; simp [Scrubber.synced, w, Scrubber.startsWash]
  | false => rw [if_neg fun d => by simp [due.2 d] at w]; simp only [Scrubber.synced, w]; rfl

/-- No wash starts where none is due. -/
theorem synced_not_due {u : Scrubber} (h : u.wash ≠ .due) :
    (u.synced demand proof washTime).wash = u.wash ∧ (u.synced demand proof washTime).washTime = u.washTime ∧
      (u.synced demand proof washTime).settling = u.settling := by
  have none : (u.followed demand proof).washes = false := washes_of_not_due h
  simp only [Scrubber.synced, none]
  exact ⟨rfl, rfl, rfl⟩

end

/-! ## The scrubber after an event, and after each entry of a STATE frame -/

theorem finish_synced {pre s : State} (hl : s.live = true) (h : s.isRole .scrubber = true) :
    (finish pre s).scrub = s.scrub.synced s.demandShown s.inputs.i0 (sec s.image.washTime) :=
  (finish_scrub hl h).trans (scrubSync_scrub h)

theorem sync_synced {s : State} (h : s.isRole .scrubber = true) :
    (sync s).scrub = s.scrub.synced s.demandShown s.inputs.i0 (sec s.image.washTime) := by
  unfold sync unitSync
  rw [displaySync_scrub, requestSync_scrub, permitSync_scrub, judgeNotices_scrub, offerSync_scrub, vigSync_scrub,
    convSync_other _ ((isRole_of_rest (rest_scrubSync s) .conveyor).trans ((isRole_eq h).trans rfl)), scrubSync_scrub h]

@[simp] theorem noteEarly_scrub (pre s : State) : (noteEarly pre s).scrub = s.scrub := by rw [noteEarly_eq]

theorem subEvent_synced {f : State → State} {s : State} (h : (f s).isRole .scrubber = true) :
    (subEvent f s).scrub =
      (f s).scrub.synced (f s).demandShown (f s).inputs.i0 (sec (f s).image.washTime) := by
  rw [subEvent, noteEarly_scrub, sync_synced h]

end Sys2Proof.Machine
end

section
/-! The orders of the scrubber: WASH_NOW and SCRUB_RESET (R50, R54). -/

namespace Sys2Proof.Machine

section
variable {s : State} {n : Station}

theorem washNowOrder_refuses (cab : s.fromCab n = true)
    (h : s.scrub.wash = .washing ∨ s.scrub.wash = .settling ∨ s.scrub.fan.runs = false) :
    washNowOrder n s = (.state, s) := by
  simp only [washNowOrder, cab, Bool.not_true, Bool.false_eq_true, if_false]
  rw [if_pos (by simpa [or_assoc] using h)]

theorem washNowOrder_starts (cab : s.fromCab n = true)
    (h : ¬(s.scrub.wash = .washing ∨ s.scrub.wash = .settling ∨ s.scrub.fan.runs = false)) :
    washNowOrder n s = (.done, startWash s) := by
  simp only [washNowOrder, cab, Bool.not_true, Bool.false_eq_true, if_false]
  rw [if_neg (by simpa [or_assoc] using h)]

theorem scrubResetOrder_refuses (cab : s.fromCab n = true) (h : s.scrub.fan ≠ .fault) :
    scrubResetOrder n s = (.state, s) := by simp [scrubResetOrder, cab, h]

theorem scrubResetOrder_resets (cab : s.fromCab n = true) (h : s.scrub.fan = .fault) :
    scrubResetOrder n s = (.done, s.withScrub fun u => { u with fan := .stopped }) := by simp [scrubResetOrder, cab, h]

end

/-- An order that reaches the scrubber's rule: the whole next state. -/
theorem scrubOrder_next {s u : State} {n : Station} {k : Byte} {kind : OrderKind} {owner : State → AnswerCode × State}
    {a : AnswerCode} (hears : s.hears = true) (scrubber : s.isRole .scrubber = true) (room : s.pub.answers.length < 4)
    (takes : kind.takenBy .scrubber = true) (noArgs : kind.argCount = 0) (ho : owner (acceptFrame n s) = (a, u)) :
    orderEvent n k kind [] owner s = .next (finish s (pushAnswer n k a u)) := by
  rw [order_reaches hears room scrubber takes (by simp [noArgs]) (by simp), ho]

/-- An order that acts on the scrubber's unit alone: the rest is that of its answer, and the sequencer follows. -/
theorem scrubOrder_acts {pre h : State} {n : Station} {k : Byte} {a : AnswerCode} {f : Scrubber → Scrubber}
    (live : h.live = true) (scrubber : h.isRole .scrubber = true) (hf : (f h.scrub).rest = h.scrub.rest) :
    (finish pre (pushAnswer n k a (h.withScrub f))).rest = (pushAnswer n k a h).rest ∧
      (finish pre (pushAnswer n k a (h.withScrub f))).scrub =
        (f h.scrub).synced h.demandShown h.inputs.i0 (sec h.image.washTime) :=
  ⟨(finish_rest _ _).trans (rest_withScrub (s := pushAnswer n k a h) scrubber f hf), finish_synced live scrubber⟩

/-- Settles O38: each order reaches its rule, and the sequencer follows what the rule has written. -/
theorem scrubberOrders : Obligations.ScrubberOrders := by
  intro s n k hears scrubber room cab
  have live : (acceptFrame n s).live = true := by simpa using live_of_hears hears
  have role : (acceptFrame n s).isRole .scrubber = true := by simpa using scrubber
  refine ⟨?_, ?_⟩
  · split
    · rename_i busy
      refine ⟨_, scrubOrder_next hears scrubber room rfl rfl (washNowOrder_refuses cab (by simpa using busy)), ?_⟩
      exact finish_rest _ _
    · rename_i free
      obtain ⟨rest, synced⟩ := scrubOrder_acts (pre := s) (n := n) (k := k) (a := .done) live role
        (f := fun u => u.startsWash (sec (acceptFrame n s).image.washTime)) rfl
      obtain ⟨wash, time, settling⟩ := synced_not_due (acceptFrame n s).demandShown (acceptFrame n s).inputs.i0
        (sec (acceptFrame n s).image.washTime)
        (u := (acceptFrame n s).scrub.startsWash (sec (acceptFrame n s).image.washTime)) nofun
      refine ⟨_, scrubOrder_next hears scrubber room rfl rfl (washNowOrder_starts cab (by simpa using free)), rest, ?_⟩
      rw [startWash_eq, synced, wash, time, settling]
      exact ⟨rfl, by rw [acceptFrame_image]; rfl, rfl⟩
  · split
    · rename_i fault
      obtain ⟨rest, synced⟩ := scrubOrder_acts (pre := s) (n := n) (k := k) (a := .done) live role
        (f := fun u => { u with fan := .stopped }) rfl
      refine ⟨_, scrubOrder_next hears scrubber room rfl rfl (scrubResetOrder_resets cab (by simpa using fault)), rest, ?_⟩
      rw [synced, synced_fan, demandShown_of_rest rest, acceptFrame_inputs]
      rfl
    · rename_i other
      refine ⟨_, scrubOrder_next hears scrubber room rfl rfl (scrubResetOrder_refuses cab (by simpa using other)), ?_⟩
      exact finish_rest _ _

end Sys2Proof.Machine
end

section
/-! The quiet time through a tick, the values a good answer gives the scrubber, and the wash by its times (R45, R46, R52 to
R58). -/

namespace Sys2Proof.Machine

/-! ## The quiet time through a tick (R46, R191, R194) -/

theorem liveTick_scrub {s : State} (h : s.isRole .scrubber = true) : (liveTick s).scrub = s.scrub.tick := by
  obtain ⟨inputs, pins, changed, -⟩ := debounceTick_eq s
  have role : ({ s with inputs := inputs, pins := pins } : State).role = some .scrubber :=
    role_of_isRole (s := s) h
  unfold liveTick; dsimp only; rw [changed, role]

theorem restTick_scrub (s : State) : (restTick s).scrub =
    if s.keptAtPowerOn then s.scrub else { s.scrub with quietLeft := s.scrub.quietTick } := by
  unfold restTick; split <;> rfl

/-- In every line state demand as last judged stands through a tick, and the quiet time counts on but where every item stays
at its power-on value. -/
theorem passTick_quiet {s : State} (h : s.isRole .scrubber = true ∨ s.live = false) :
    if s.live = false ∧ s.keptAtPowerOn = true then (passTick s).scrub = s.scrub
    else (passTick s).scrub.demand = s.scrub.demand ∧ (passTick s).scrub.quietLeft = s.scrub.quietTick := by
  cases live : s.live with
  | true =>
    have ticks : (passTick s).scrub = s.scrub.tick :=
      (congrArg State.scrub (if_pos live)).trans (liveTick_scrub (s := partTick s) (h.resolve_right (by simp [live])))
    rw [if_neg (by simp), ticks]
    exact ⟨rfl, rfl⟩
  | false =>
    have rests : (passTick s).scrub = if s.keptAtPowerOn then s.scrub else { s.scrub with quietLeft := s.scrub.quietTick } :=
      (congrArg State.scrub (if_neg (by rw [live]; simp))).trans
        (restTick_scrub (partTick s))
    rw [rests]
    cases s.keptAtPowerOn <;> simp

/-! ## What a good answer hands on (R45, R187) -/

theorem channelOf_meaning {s : State} {m : Meaning} {e : Fin 16} (h : s.channelOf m = some e) :
    (s.cfg.channels.get e).meaning = m := by
  have found := List.find?_some h
  simpa using found

section
variable {s : State} {e : Fin 16} (v : Word16) (role : s.isRole .scrubber = true)
include role

theorem handOn_toDust (h : s.channelOf .dust = some e) : handOn e v s = deliverDust v s := by
  have scrubber := role_of_isRole role
  simp [handOn, channelOf_meaning h, h, scrubber]

theorem handOn_toPressure (h : s.channelOf .pressure = some e) : handOn e v s = deliverPressure v s := by
  have scrubber := role_of_isRole role
  simp [handOn, channelOf_meaning h, h, scrubber]

theorem handOn_toNeither (hd : s.channelOf .dust ≠ some e) (hp : s.channelOf .pressure ≠ some e) : handOn e v s = s := by
  have scrubber := role_of_isRole role
  unfold handOn; dsimp only; split
  · rfl
  · rename_i lowest
    rw [scrubber]
    cases m : (s.cfg.channels.get e).meaning <;> simp_all

end

/-- Everything a good answer does before its value is handed on: the sensor unit and the own roster entry. -/
theorem takeCharacter_good {s : State} {e : Fin 16} {high low b : Byte} {parity : Bool} (polled : s.sensor.polled = some e)
    (check : s.sensor.assembly = .check high low) (valid : characterValid s.cfg.parity b parity true = true)
    (good : b = sensorCheck (s.cfg.channels.get e).address high low) :
    ∃ sensor claim, takeCharacter b parity true s = handOn e (high ++ low) { s with sensor := sensor, claim := claim } := by
  have ready : ∀ u : State, ∃ sensor claim, readySync u = { u with sensor := sensor, claim := claim } := by
    intro u; unfold readySync; split
    · exact ⟨_, _, rfl⟩
    · exact ⟨_, _, rfl⟩
  have assembled : assemble b (s.withSensor fun u => { u with broken := false }) =
      goodAnswer e (high ++ low) (s.withSensor fun u => { u with broken := false }) := by
    unfold assemble; simp only [State.withSensor_sensor, check, polled]
    exact if_pos good
  unfold takeCharacter; rw [if_pos valid, assembled, goodAnswer]
  obtain ⟨sensor, claim, h⟩ := ready (((setChannel e (goodChannel (high ++ low))
    (s.withSensor fun u => { u with broken := false }))).withSensor fun u => { u with polled := none, assembly := .hunt })
  exact ⟨sensor, claim, by rw [h]; rfl⟩

/-! ## A good answer at the scrubber, with what follows it -/

/-- The wash state by a PRESSURE value, before the sequencer follows (R52). -/
def WashState.takes (w : WashState) (due : Bool) : WashState :=
  match w with
  | .clear | .due => if due then .due else .clear
  | .uncleared => if due then .uncleared else .clear
  | w => w

/-- A PRESSURE value as the scrubber reads it (R45). -/
def pressureRead (v : Word16) : Word16 := if 5000 < v.toNat then 5000 else v

theorem deliverPressure_eq (v : Word16) (s : State) : deliverPressure v s = s.withScrub fun u =>
    { u with pressure := some (pressureRead v)
             wash := u.wash.takes (decide (s.image.washDue ≤ (pressureRead v).toNat)) } := by
  unfold deliverPressure
  congr 1

section
variable {s : State} {sensor : SensorUnit} {claim : ClaimUnit} {e : Fin 16} (v : Word16) (live : s.live = true)
  (role : s.isRole .scrubber = true)
include live role

theorem dustAnswer_scrub (h : s.channelOf .dust = some e) :
    let t := finish s (handOn e v { s with sensor := sensor, claim := claim })
    t.scrub.dust = some v ∧ t.scrub.dustAction = decide (s.image.actionLevel ≤ v.toNat) ∧
      t.scrub.dustLimit = decide (s.image.limitLevel ≤ v.toNat) ∧ t.scrub.pressure = s.scrub.pressure := by
  rw [handOn_toDust (s := { s with sensor := sensor, claim := claim }) v role h, deliverDust]
  dsimp only
  rw [finish_synced (by exact live) (by exact role)]
  simp

theorem pressureAnswer_scrub (h : s.channelOf .pressure = some e) :
    let t := finish s (handOn e v { s with sensor := sensor, claim := claim })
    let w := s.scrub.wash.takes (decide (s.image.washDue ≤ (pressureRead v).toNat))
    t.scrub.dust = s.scrub.dust ∧ t.scrub.dustAction = s.scrub.dustAction ∧ t.scrub.dustLimit = s.scrub.dustLimit ∧
      t.scrub.pressure = some (pressureRead v) ∧
      t.scrub.wash = if w = .due ∧ t.scrub.fan.runs = true ∧ t.scrub.quietLeft = none then .washing else w := by
  rw [handOn_toPressure (s := { s with sensor := sensor, claim := claim }) v role h, deliverPressure_eq]
  dsimp only
  rw [finish_synced (by exact live) (by exact role)]
  exact ⟨by simp, by simp, by simp, by simp, synced_wash _ _ _ _⟩

theorem otherAnswer_scrub (hd : s.channelOf .dust ≠ some e) (hp : s.channelOf .pressure ≠ some e) :
    let t := finish s (handOn e v { s with sensor := sensor, claim := claim })
    t.scrub.dust = s.scrub.dust ∧ t.scrub.dustAction = s.scrub.dustAction ∧ t.scrub.dustLimit = s.scrub.dustLimit ∧
      t.scrub.pressure = s.scrub.pressure := by
  rw [handOn_toNeither (s := { s with sensor := sensor, claim := claim }) v role hd hp]
  dsimp only
  rw [finish_synced (by exact live) (by exact role)]
  simp

end

/-- A wash that a PRESSURE value makes due starts at once where the fan runs and the quiet time has come to 10 s. -/
theorem takes_then_starts (w : WashState) (due runs : Bool) (quiet : Timer) :
    (if w.takes due = .due ∧ runs = true ∧ quiet = none then .washing else w.takes due) = match w with
      | .clear | .due => if due then (if runs && quiet.isNone then .washing else .due) else .clear
      | .uncleared => if due then .uncleared else .clear
      | w => w := by
  cases w <;> cases due <;> simp [WashState.takes]

/-! ## The quiet time and the wash by their times (R53, R55) -/

/-- An event that writes the scrubber's unit where its rest does not show it. -/
theorem scrubEvent_next {s : State} {f : State → State} {g : Scrubber → Scrubber} (live : s.live = true)
    (role : s.isRole .scrubber = true) (acts : f s = s.withScrub g) (hg : (g s.scrub).rest = s.scrub.rest) :
    event f s = .next (finish s (s.withScrub g)) ∧ (finish s (s.withScrub g)).rest = s.rest ∧
      (finish s (s.withScrub g)).scrub = (g s.scrub).synced s.demandShown s.inputs.i0 (sec s.image.washTime) :=
  ⟨by rw [event_live live, acts], (finish_rest _ _).trans (rest_withScrub role g hg), finish_synced live role⟩

theorem quietReaches_eq {s : State} (role : s.isRole .scrubber = true) (h : s.scrub.demand = false) :
    quietReaches s = s.withScrub fun u => { u with quietLeft := none } := by simp [quietReaches, role, h]

theorem washTimeExpires_eq {s : State} (role : s.isRole .scrubber = true) (h : s.scrub.wash = .washing) :
    washTimeExpires s = s.withScrub fun u =>
      { u with wash := .settling, washTime := none, settling := some Config.settling } := by
  simp [washTimeExpires, role, h]

theorem settlingExpires_eq {s : State} (role : s.isRole .scrubber = true) (h : s.scrub.wash = .settling) :
    settlingExpires s = s.withScrub fun u =>
      { u with settling := none
               wash := if s.valueHeld .pressure && !atLevel s.image.washDue u.pressure then .clear else .uncleared } := by
  simp [settlingExpires, role, h]

/-- A due wash starts as the sequencer follows. -/
theorem synced_due {u : Scrubber} {demand proof : Bool} {washTime : Ticks} (hw : u.wash = .due)
    (runs : (u.fan.follows demand proof).runs = true) (hd : demand = u.demand) (quiet : u.quietLeft = none) :
    u.synced demand proof washTime = (u.followed demand proof).startsWash washTime := by
  have washes : (u.followed demand proof).washes = true := by
    simp [Scrubber.washes, Scrubber.followed, Scrubber.takesDemand, Scrubber.followsFan, hw, ← hd, runs, quiet]
  simp only [Scrubber.synced, washes, if_true]

/-- A fan that runs keeps running, by demand RUNNING or RUN_ON (R48). -/
theorem follows_runs {fan : FanState} (h : fan.runs = true) (demand proof : Bool) :
    (fan.follows demand proof).runs = true := by
  cases fan <;> cases demand <;> simp_all [FanState.follows, FanState.runs]

/-- Settles O50: the tick by line state, the good answer by the meaning of its entry, the wash by its times. -/
theorem washFollowsItsTimes : Obligations.WashFollowsItsTimes := by
  refine ⟨fun s empty noneDue h => ⟨passTick s, ?_, ?_⟩, fun s live role => ⟨?_, ?_, ?_, ?_⟩⟩
  · simp only [step, empty, idle, noneDue]
  · have ticks := passTick_quiet h
    simp only [State.keptAtPowerOn, Bool.or_eq_true, beq_iff_eq] at ticks
    exact ticks
  · intro e high low b parity polled check valid good
    obtain ⟨sensor, claim, handed⟩ := takeCharacter_good polled check valid good
    refine ⟨_, (event_live live).trans (congrArg (Host.Outcome.next <| finish s ·) handed), ?_⟩
    by_cases dust : s.channelOf .dust = some e
    · obtain ⟨value, action, limit, pressure⟩ :=
        dustAnswer_scrub (sensor := sensor) (claim := claim) (high ++ low) live role dust
      have other : s.channelOf .pressure ≠ some e := fun p => by
        cases (channelOf_meaning dust).symm.trans (channelOf_meaning p)
      exact ⟨by rw [if_pos dust]; exact ⟨value, action, limit⟩, fun _ => pressure, fun p => absurd p other⟩
    · by_cases press : s.channelOf .pressure = some e
      · obtain ⟨value, action, limit, pressure, wash⟩ :=
          pressureAnswer_scrub (sensor := sensor) (claim := claim) (high ++ low) live role press
        exact ⟨by rw [if_neg dust]; exact ⟨value, action, limit⟩, fun other => absurd press other,
          fun _ => ⟨pressure, wash.trans (takes_then_starts _ _ _ _)⟩⟩
      · obtain ⟨value, action, limit, pressure⟩ :=
          otherAnswer_scrub (sensor := sensor) (claim := claim) (high ++ low) live role dust press
        exact ⟨by rw [if_neg dust]; exact ⟨value, action, limit⟩, fun _ => pressure, fun p => absurd p press⟩
  · intro demand shown due runs
    obtain ⟨next, rest, synced⟩ := scrubEvent_next live role (quietReaches_eq role demand) rfl
    rw [synced_due (u := { s.scrub with quietLeft := none }) due (follows_runs runs _ _) (shown.trans demand.symm) rfl]
      at synced
    refine ⟨_, next, ?_⟩
    rw [synced]
    exact ⟨rfl, rfl, if_pos (shown.trans demand.symm), rest⟩
  · intro washing
    obtain ⟨next, rest, synced⟩ := scrubEvent_next live role (washTimeExpires_eq role washing) rfl
    refine ⟨_, next, ?_⟩
    rw [synced]
    obtain ⟨wash, time, settling⟩ := synced_not_due s.demandShown s.inputs.i0 (sec s.image.washTime)
      (u := { s.scrub with wash := .settling, washTime := none, settling := some Config.settling }) nofun
    exact ⟨wash, settling, time, rest⟩
  · intro settles
    obtain ⟨next, rest, synced⟩ := scrubEvent_next live role (settlingExpires_eq role settles) rfl
    refine ⟨_, next, ?_⟩
    rw [synced]
    obtain ⟨wash, -, settling⟩ := synced_not_due s.demandShown s.inputs.i0 (sec s.image.washTime)
      (u := { s.scrub with settling := none, wash := if s.valueHeld .pressure && !atLevel s.image.washDue s.scrub.pressure
                                                     then .clear else .uncleared }) (by dsimp only; split <;> nofun)
    refine ⟨settling, wash.trans ?_, rest⟩
    simp

end Sys2Proof.Machine
end

section
/-! The capacity, the fan by its proof and times, and the CUTTER's STATUS that moves it (R46 to R51, R56, R59 to R61). -/

namespace Sys2Proof.Machine

/-! ## The capacity (R59, R60) -/

/-- The factor of the first row whose condition holds; 100 where none does. -/
def firstFactor : List (Bool × Nat) → Nat
  | [] => 100
  | (holds, factor) :: rows => if holds then factor else firstFactor rows

theorem foldl_min_least {m : Nat} {l : List Nat} (h : ∀ x ∈ l, m ≤ x) : l.foldl min m = m := by
  induction l with
  | nil => rfl
  | cons x l ih =>
    rw [List.foldl_cons, Nat.min_eq_left (h x (by simp))]
    exact ih fun y hy => h y (by simp [hy])

/-- Of rows in ascending order the smallest factor that holds is the first. -/
theorem smallest_eq_first {rows : List (Bool × Nat)} (ascending : rows.Pairwise fun a b => a.2 ≤ b.2)
    (bounded : ∀ r ∈ rows, r.2 ≤ 100) : ((rows.filter (·.1)).map (·.2)).foldl min 100 = firstFactor rows := by
  induction rows with
  | nil => rfl
  | cons r rows ih =>
    obtain ⟨holds, factor⟩ := r
    obtain ⟨least, ascends⟩ := List.pairwise_cons.1 ascending
    cases holds with
    | false => exact ih ascends fun r hr => bounded r (by simp [hr])
    | true =>
      have top : min 100 factor = factor := Nat.min_eq_right (bounded (true, factor) (by simp))
      simp only [List.filter_cons_of_pos, List.map_cons, List.foldl_cons, top, firstFactor, if_true]
      refine foldl_min_least fun x hx => ?_
      obtain ⟨r, hr, rfl⟩ := List.mem_map.1 hx
      exact least r (List.mem_filter.1 hr).1

/-- The rows of R59, by their factors. -/
def State.factorRows (s : State) : List (Bool × Nat) :=
  [(!s.scrub.fan.runs, 0), (!s.valueHeld .dust || !s.valueHeld .pressure, 0),
   (s.valueHeld .pressure && atLevel s.image.blocked s.scrub.pressure, 0),
   (s.valueHeld .dust && atLevel s.image.limitLevel s.scrub.dust, 0), (s.scrub.wash == .washing, 25),
   (s.valueHeld .dust && atLevel s.image.actionLevel s.scrub.dust, 50), (s.spray && !s.inputs.i1, 50),
   (s.valueHeld .pressure && atLevel s.image.washDue s.scrub.pressure, 75)]

theorem capacityFactor_eq_first (s : State) : s.capacityFactor = firstFactor s.factorRows := by
  unfold State.capacityFactor State.factorRows
  cases s.valueHeld .dust <;> cases s.valueHeld .pressure <;> simp [firstFactor]

theorem capacity_eq_smallest (s : State) : s.capacity =
    if s.live = true then s.image.base * ((s.factorRows.filter (·.1)).map (·.2)).foldl min 100 / 100 else 0 := by
  rw [smallest_eq_first (by simp [State.factorRows]) (by simp [State.factorRows]), ← capacityFactor_eq_first]
  rfl

theorem capacity_of_stopped {s : State} (h : s.scrub.fan.runs = false) : s.capacity = 0 := by
  simp [State.capacity, State.capacityFactor, h]

/-! ## The expiries that stop the fan (R48 to R50) -/

/-- A wash in progress that is aborted: due again by the pressure, or clear (R56). -/
def Scrubber.aborts (u : Scrubber) (due : Bool) : Scrubber :=
  if u.wash == .washing || u.wash == .settling then
    { u with wash := if due then .due else .clear, washTime := none, settling := none, washAborted := true }
  else u

theorem abortWash_eq (s : State) : abortWash s = s.withScrub fun u => u.aborts s.pressureDue := by
  unfold abortWash Scrubber.aborts; split
  · rename_i progress; simp [State.withScrub, progress]
  · rename_i none; simp [State.withScrub, none]

/-- The fan in FAULT or STOPPED by an expiry, with what that does to its times and the wash. -/
def Scrubber.leavesRun (u : Scrubber) (fan : FanState) (due : Bool) : Scrubber :=
  ({ u with fan := fan, startWindow := none, runOn := none, proofLoss := none }).aborts due

section
variable (u : Scrubber) (fan : FanState) (due : Bool)

@[simp] theorem leavesRun_fan : (u.leavesRun fan due).fan = fan := by
  unfold Scrubber.leavesRun Scrubber.aborts; split <;> rfl
@[simp] theorem leavesRun_runOn : (u.leavesRun fan due).runOn = none := by
  unfold Scrubber.leavesRun Scrubber.aborts; split <;> rfl
theorem leavesRun_rest : (u.leavesRun fan due).rest = u.rest := by
  unfold Scrubber.leavesRun Scrubber.aborts; split <;> rfl
/-- No wash is in progress after it. -/
theorem leavesRun_wash : (u.leavesRun fan due).wash ≠ .washing ∧ (u.leavesRun fan due).wash ≠ .settling := by
  unfold Scrubber.leavesRun Scrubber.aborts; split
  · dsimp only; split <;> exact ⟨nofun, nofun⟩
  · rename_i none; simpa using none

end

section
variable {s : State} (role : s.isRole .scrubber = true)
include role

theorem startWindowExpires_eq (h : s.scrub.fan = .starting) :
    startWindowExpires s = s.withScrub fun u => u.leavesRun .fault s.pressureDue := by
  simp only [startWindowExpires, role, h, fanFaults, abortWash_eq]; rfl

theorem proofLossExpires_eq (runs : s.scrub.fan.runs = true) (h : s.scrub.proofLoss.isSome = true) :
    proofLossExpires s = s.withScrub fun u => u.leavesRun .fault s.pressureDue := by
  simp only [proofLossExpires, role, runs, h, fanFaults, abortWash_eq]; rfl

theorem runOnExpires_eq (h : s.scrub.fan = .runOn) :
    runOnExpires s = s.withScrub fun u => u.leavesRun .stopped s.pressureDue := by
  simp only [runOnExpires, role, h, fanStops, abortWash_eq]; rfl

theorem takeInput_id (k : Fin 4) (b : Bool) : takeInput .scrubber k b id s = s.withInput k b := by
  unfold takeInput; rw [role]
  by_cases same : s.inputs.get k = b
  · simp [same]
  · simp [same]

end

/-- Where the fan does not run the sequencer starts no wash. -/
theorem synced_wash_of_stopped {u : Scrubber} {demand proof : Bool} {washTime : Ticks}
    (h : (u.fan.follows demand proof).runs = false) : (u.synced demand proof washTime).wash = u.wash := by
  rw [synced_wash, if_neg]; simp [h]

/-- FAULT stays, and with it the wash as the entry to FAULT has left it. -/
theorem fault_scrub {s t : State} {due : Bool} {demand proof : Bool} {washTime : Ticks}
    (h : t.scrub = (s.scrub.leavesRun .fault due).synced demand proof washTime) :
    t.scrub.fan = .fault ∧ t.scrub.wash ≠ .washing ∧ t.scrub.wash ≠ .settling := by
  obtain ⟨washing, settling⟩ := leavesRun_wash s.scrub .fault due
  have wash : t.scrub.wash = (s.scrub.leavesRun .fault due).wash := by
    rw [h]; exact synced_wash_of_stopped (by rw [leavesRun_fan]; rfl)
  exact ⟨by rw [h, synced_fan, leavesRun_fan]; rfl, by rw [wash]; exact washing, by rw [wash]; exact settling⟩

/-! ## The CUTTER's STATUS read back (chapter 12) -/

theorem of24_be24 (w : Word24) : of24 (w.extractLsb' 16 8) (w.extractLsb' 8 8) (w.extractLsb' 0 8) = w := by
  unfold of24
  rw [BitVec.extractLsb'_append_extractLsb'_eq_extractLsb' (h := (rfl : 16 = 8 + 8)),
    BitVec.extractLsb'_append_extractLsb'_eq_extractLsb' (h := (rfl : 8 = 0 + 8)), BitVec.extractLsb'_eq_self]

theorem cutterFlags_bits : ∀ lot face demand : Bool,
    let b := (0 : BitVec 5) ++ BitVec.ofBool lot ++ BitVec.ofBool face ++ BitVec.ofBool demand
    b.getLsbD 0 = demand ∧ b.getLsbD 1 = face ∧ b.getLsbD 2 = lot := by decide

theorem setWidth_back {v w : Nat} (h : v ≤ w) (x : BitVec v) : (x.setWidth w).setWidth v = x := by
  rw [BitVec.setWidth_setWidth_of_le x h, BitVec.setWidth_eq]

theorem readCutter_bytes (p : CutterPart) : readCutter (RolePart.cutter p).bytes = some (.cutter p, []) := by
  obtain ⟨demand, face, lot⟩ := cutterFlags_bits p.lotOpen p.faceComplete p.demand
  simp only [RolePart.bytes, be16, be24, be32, List.cons_append, List.nil_append, readCutter, of16_be16, of24_be24,
    of32_be32, demand, face, lot, setWidth_back (show 11 ≤ 16 by decide), setWidth_back (show 6 ≤ 8 by decide)]

theorem readStatus_cutter {x : StatusCommon} (p : CutterPart) (h : x.role = Role.code .cutter) :
    readEntry (Entry.status ⟨x, .cutter p⟩).bytes = some (.status ⟨x, .cutter p⟩, []) := by
  obtain ⟨ready, overflow⟩ := claimFlags_bits x.overflow x.ready
  have part : readPart x.role (RolePart.cutter p).bytes = some (.cutter p, []) := by
    rw [readPart, h, Role.ofCode_code]; exact readCutter_bytes p
  simp only [Entry.bytes, StatusCommon.bytes, List.cons_append, List.nil_append, readEntry, if_true, readStatus, part,
    Option.map_some, ready, overflow]

theorem statusBytes_length (x : StatusCommon) (p : CutterPart) : (Entry.status ⟨x, .cutter p⟩).bytes.length = 31 := by
  simp [Entry.bytes, StatusCommon.bytes, RolePart.bytes, be16, be24, be32]

theorem readEntriesUpTo_single {fuel : Nat} {bytes : List Byte} {e : Entry} (h : readEntry bytes = some (e, [])) :
    readEntriesUpTo (fuel + 2) bytes = [e] := by
  rw [readEntriesUpTo, h]; rfl

theorem readEntries_cutterStatus {x : StatusCommon} (p : CutterPart) (h : x.role = Role.code .cutter) :
    readEntries (Entry.status ⟨x, .cutter p⟩).bytes = [.status ⟨x, .cutter p⟩] := by
  rw [readEntries, statusBytes_length, readEntriesUpTo_single (readStatus_cutter p h)]

/-! ## The CUTTER's STATUS taken at the scrubber (R46, R168) -/

section
variable (n : Station) (r : StatusRecord) (s : State)

/-- The STATUS goes to the sender's replica and to the ready flag of its roster entry. -/
theorem storeStatus_eq : ∃ claim, storeStatus n r s = { s with
    replicas := (storeStatus n r s).replicas, claim := claim } ∧
    ∀ m, ((claim.roster.get m).map fun e => (e.role, e.state)) = (s.entry m).map fun e => (e.role, e.state) := by
  unfold storeStatus; dsimp only; split
  · rename_i e he
    refine ⟨_, rfl, fun m => ?_⟩
    have entry : s.entry n = some e := he
    by_cases same : m = n
    · subst same; simp [entry]
    · simp [Tbl.get_set_ne _ _ same, State.entry]
  · exact ⟨s.claim, rfl, fun m => rfl⟩

@[simp] theorem storeStatus_scrub : (storeStatus n r s).scrub = s.scrub := by
  obtain ⟨_, h, -⟩ := storeStatus_eq n r s; rw [h]
@[simp] theorem storeStatus_inputs : (storeStatus n r s).inputs = s.inputs := by
  obtain ⟨_, h, -⟩ := storeStatus_eq n r s; rw [h]
@[simp] theorem storeStatus_image : (storeStatus n r s).image = s.image := by
  obtain ⟨_, h, -⟩ := storeStatus_eq n r s; rw [h]
@[simp] theorem storeStatus_isRole (q : Role) : (storeStatus n r s).isRole q = s.isRole q := by
  obtain ⟨_, h, -⟩ := storeStatus_eq n r s; rw [h]; rfl
@[simp] theorem storeStatus_live : (storeStatus n r s).live = s.live := by
  obtain ⟨_, h, -⟩ := storeStatus_eq n r s; rw [h]; rfl

end

/-- A roster question about one station reads role and state of its entry. -/
theorem entryIs_eq (s : State) (r : Role) (st : RosterState) (n : Station) :
    s.entryIs r st n = (((s.entry n).map fun e => (e.role, e.state)) == some (r.code, st)) := by
  unfold State.entryIs
  cases s.entry n <;> rfl

theorem storeStatus_presentOf (n : Station) (r : StatusRecord) (s : State) (q : Role) :
    (storeStatus n r s).presentOf q = s.presentOf q := by
  obtain ⟨claim, h, same⟩ := storeStatus_eq n r s
  have present : (storeStatus n r s).isPresent q = s.isPresent q := by
    funext m
    have entry : (storeStatus n r s).entry m = claim.roster.get m := by rw [h]; rfl
    have fields := same m
    rw [← entry] at fields
    simp only [State.isPresent, entryIs_eq, fields]
  simp only [State.presentOf, present]

theorem storeStatus_status (n : Station) (r : StatusRecord) (s : State) :
    ((storeStatus n r s).replica n).status = some r := by
  unfold storeStatus; dsimp only; split <;> simp [State.replica]

/-- The STATUS of the PRESENT CUTTER decides demand shown (R46). -/
theorem storeStatus_demandShown {n : Station} {x : StatusCommon} {p : CutterPart} {s : State}
    (h : s.presentOf .cutter = some n) : (storeStatus n ⟨x, .cutter p⟩ s).demandShown = p.demand := by
  simp only [State.demandShown, State.presentCutter, storeStatus_presentOf, h, storeStatus_status]
  rfl

theorem takeStatus_scrubber {s : State} (role : s.isRole .scrubber = true) (n : Station) (x : StatusCommon) (p : CutterPart) :
    takeStatus n ⟨x, .cutter p⟩ s = storeStatus n ⟨x, .cutter p⟩ s := by
  have stored : (storeStatus n ⟨x, .cutter p⟩ s).role = some .scrubber := role_of_isRole (by simpa using role)
  unfold takeStatus; dsimp only; rw [stored]

theorem presentOf_known {s : State} {r : Role} {n : Station} (h : s.presentOf r = some n) : (s.entry n).isNone = false := by
  have present := List.find?_some h
  unfold State.isPresent State.entryIs at present
  cases he : s.entry n with
  | none => rw [he] at present; cases present
  | some e => rfl

/-- A STATE frame of a station that the roster holds starts no claim (R149). -/
theorem claimOnState_known {s : State} {n : Station} (other : n ≠ s.station) (known : (s.entry n).isNone = false) :
    claimOnState n s = s := by simp [claimOnState, other, known]

theorem presentOf_of_claim {s t : State} (h : t.claim = s.claim) (r : Role) : t.presentOf r = s.presentOf r := by
  have present : t.isPresent r = s.isPresent r := by
    funext m; simp only [State.isPresent, State.entryIs, State.entry, h]
  simp only [State.presentOf, present]

section
variable {s : State} {n : Station} (role : s.isRole .scrubber = true)
include role

/-- The acceptance of a STATE frame of a station that the roster holds: the sequencer follows the roster. -/
theorem acceptance_scrub (other : n ≠ s.station) (known : (s.entry n).isNone = false) :
    (subEvent (claimOnState n) s).rest = s.rest ∧
      (subEvent (claimOnState n) s).scrub = s.scrub.synced s.demandShown s.inputs.i0 (sec s.image.washTime) := by
  have accepted := claimOnState_known other known
  exact ⟨by rw [rest_subEvent, accepted], by rw [subEvent_synced (by rw [accepted]; exact role), accepted]⟩

/-- The STATUS of the PRESENT CUTTER: the sequencer follows the demand it shows. -/
theorem statusEntry_scrub (x : StatusCommon) (p : CutterPart) (present : s.presentOf .cutter = some n) :
    let t := subEvent (fun s => takeEntry n s (.status ⟨x, .cutter p⟩)) s
    t.rest = (storeStatus n ⟨x, .cutter p⟩ s).rest ∧ t.demandShown = p.demand ∧
      t.scrub = s.scrub.synced p.demand s.inputs.i0 (sec s.image.washTime) := by
  have taken : takeEntry n s (.status ⟨x, .cutter p⟩) = storeStatus n ⟨x, .cutter p⟩ s := takeStatus_scrubber role n x p
  have rest : (subEvent (fun s => takeEntry n s (.status ⟨x, .cutter p⟩)) s).rest =
      (storeStatus n ⟨x, .cutter p⟩ s).rest := by rw [rest_subEvent, taken]
  refine ⟨rest, by rw [demandShown_of_rest rest, storeStatus_demandShown present], ?_⟩
  rw [subEvent_synced (by rw [taken, storeStatus_isRole]; exact role), taken, storeStatus_demandShown present,
    storeStatus_scrub, storeStatus_inputs, storeStatus_image]

end

theorem takeState_single {s : State} {n : Station} {payload : List Byte} {e : Entry} (read : readEntries payload = [e])
    (other : n ≠ (subEvent (claimOnState n) s).station) : takeState n payload s =
      subEvent (fun s => takeEntry n s e) (subEvent (claimOnState n) s) := by
  unfold takeState; dsimp only
  rw [if_neg other, read, takeEntries, List.foldl_cons, List.foldl_nil]

theorem stateTaken_next {s : State} {n : Station} {payload : List Byte} (hears : s.hears = true)
    (fits : payloadFits .state payload = true) : exec (.stateTaken n payload) s =
      .next (finish s (takeState n payload (noteEarly s (acceptFrame n s)))) := takeFrame_hears hears fits

/-- The scrubber once a STATE frame of the PRESENT CUTTER has been taken: the sequencer follows the acceptance, the STATUS,
and the end of the event. -/
theorem cutterStatus_scrub {s : State} {n : Station} {x : StatusCommon} {p : CutterPart} (live : s.live = true)
    (role : s.isRole .scrubber = true) (hears : s.line.awaitsGap = false) (other : n ≠ s.station)
    (cutter : x.role = Role.code .cutter) (present : (acceptFrame n s).presentOf .cutter = some n) :
    ∃ t, exec (.stateTaken n (Entry.status ⟨x, .cutter p⟩).bytes) s = .next t ∧
      t.scrub = ((s.scrub.synced (acceptFrame n s).demandShown s.inputs.i0 (sec s.image.washTime)).synced
        p.demand s.inputs.i0 (sec s.image.washTime)).synced p.demand s.inputs.i0 (sec s.image.washTime) := by
  have fits : payloadFits .state (Entry.status ⟨x, .cutter p⟩).bytes = true := by
    rw [payloadFits, statusBytes_length]; rfl
  have heard : s.hears = true := by simp [State.hears, live, hears]
  -- the state once the frame is accepted
  obtain ⟨a, ha⟩ : ∃ a, noteEarly s (acceptFrame n s) = a := ⟨_, rfl⟩
  have aClaim : a.claim = (acceptFrame n s).claim := by rw [← ha, noteEarly_claim]
  have aRole : a.isRole .scrubber = true := by rw [← ha, noteEarly_isRole, acceptFrame_isRole, role]
  have aLive : a.live = true := by rw [← ha, noteEarly_live, acceptFrame_live, live]
  have aStation : a.station = s.station := by rw [← ha, noteEarly_station, acceptFrame_station]
  have aImage : a.image = s.image := by rw [← ha, noteEarly_image, acceptFrame_image]
  have aInputs : a.inputs = s.inputs := by rw [← ha, noteEarly_eq]; exact acceptFrame_inputs n s
  have aScrub : a.scrub = s.scrub := by rw [← ha, noteEarly_scrub, acceptFrame_scrub]
  have aShown : a.demandShown = (acceptFrame n s).demandShown :=
    demandShown_congr aClaim (by rw [← ha, noteEarly_replicas])
  have aPresent : a.presentOf .cutter = some n := (presentOf_of_claim aClaim _).trans present
  -- the acceptance, then the STATUS, each with what follows it
  obtain ⟨bRest, bScrub⟩ := acceptance_scrub aRole (aStation ▸ other) (presentOf_known aPresent)
  obtain ⟨b, hb⟩ : ∃ b, subEvent (claimOnState n) a = b := ⟨_, rfl⟩
  rw [hb] at bRest bScrub
  have bRole : b.isRole .scrubber = true := (isRole_of_rest bRest _).trans aRole
  obtain ⟨cRest, cShown, cScrub⟩ := statusEntry_scrub bRole x p ((presentOf_of_claim (claim_of_rest bRest) _).trans aPresent)
  obtain ⟨c, hc⟩ : ∃ c, subEvent (fun s => takeEntry n s (.status ⟨x, .cutter p⟩)) b = c := ⟨_, rfl⟩
  rw [hc] at cRest cShown cScrub
  have taken : takeState n (Entry.status ⟨x, .cutter p⟩).bytes (noteEarly s (acceptFrame n s)) = c := by
    rw [ha, ← hc, ← hb]
    exact takeState_single (readEntries_cutterStatus p cutter) (by rw [hb, station_of_rest bRest, aStation]; exact other)
  refine ⟨_, stateTaken_next heard fits, ?_⟩
  rw [taken, finish_synced ((live_of_rest cRest).trans (by rw [storeStatus_live, live_of_rest bRest, aLive]))
    ((isRole_of_rest cRest _).trans (by rw [storeStatus_isRole, bRole])), cShown, inputs_of_rest cRest, image_of_rest cRest,
    storeStatus_inputs, storeStatus_image, cScrub, bScrub, inputs_of_rest bRest, image_of_rest bRest, aInputs, aImage,
    aScrub, aShown]

/-! ## Proof in and out of the start window (R47, R49) -/

theorem inputChange_scrub {s : State} (live : s.live = true) (role : s.isRole .scrubber = true) (k : Fin 4) (b : Bool) :
    event (takeInput .scrubber k b id) s = .next (finish s (s.withInput k b)) ∧
      (finish s (s.withInput k b)).rest = (s.withInput k b).rest ∧
      (finish s (s.withInput k b)).scrub =
        s.scrub.synced s.demandShown (s.inputs.set k b).i0 (sec s.image.washTime) := by
  have vLive : (s.withInput k b).live = true := by simp only [State.live, State.withInput_line]; exact live
  have vRole : (s.withInput k b).isRole .scrubber = true := by
    simp only [State.isRole, State.role, State.cfg, State.withInput_image, State.withInput_station]; exact role
  have shown : (s.withInput k b).demandShown = s.demandShown := demandShown_congr (by simp) (by simp)
  refine ⟨by rw [event_live live, takeInput_id role], finish_rest _ _, ?_⟩
  rw [finish_synced vLive vRole, shown, State.withInput_scrub, State.withInput_inputs, State.withInput_image]

/-- The sequencer through a STATE frame that changes demand: it follows the demand held, then twice the new one. -/
def Scrubber.afterStatus (u : Scrubber) (demand proof : Bool) (washTime : Ticks) : Scrubber :=
  ((u.synced u.demand proof washTime).synced demand proof washTime).synced demand proof washTime

section
variable {u : Scrubber} {demand proof : Bool} {washTime : Ticks}

theorem afterStatus_demand : (u.afterStatus demand proof washTime).demand = demand := synced_demand _ _ _ _

theorem afterStatus_quietLeft (h : u.demand = !demand) :
    (u.afterStatus demand proof washTime).quietLeft = some Config.quietTime := by
  simp [Scrubber.afterStatus, h]

/-- A start with proof at once, and one that awaits it (R47). -/
theorem afterStatus_starts (h : u.demand = !demand) (fan : u.fan = .stopped) (shown : demand = true) :
    if proof then (u.afterStatus demand proof washTime).fan = .running ∧
        (u.afterStatus demand proof washTime).startWindow = none
    else (u.afterStatus demand proof washTime).fan = .starting ∧
        (u.afterStatus demand proof washTime).startWindow = some Config.startWindow := by
  cases proof <;> simp [Scrubber.afterStatus, h, fan, shown, FanState.follows, FanState.proves]

theorem afterStatus_starting (fan : u.fan = .starting) (unproved : proof = false) :
    (u.afterStatus demand proof washTime).fan = .starting ∧
      (u.afterStatus demand proof washTime).startWindow = u.startWindow := by
  simp [Scrubber.afterStatus, fan, unproved, FanState.follows, FanState.proves]

theorem afterStatus_runsOn (h : u.demand = !demand) (fan : u.fan = .running) (shown : demand = false) :
    (u.afterStatus demand proof washTime).fan = .runOn ∧
      (u.afterStatus demand proof washTime).runOn = some Config.runOn := by
  simp [Scrubber.afterStatus, h, fan, shown, FanState.follows, FanState.proves]

theorem afterStatus_runsAgain (h : u.demand = !demand) (fan : u.fan = .runOn) (shown : demand = true) :
    (u.afterStatus demand proof washTime).fan = .running ∧ (u.afterStatus demand proof washTime).runOn = none := by
  simp [Scrubber.afterStatus, h, fan, shown, FanState.follows, FanState.proves]

theorem afterStatus_fault (fan : u.fan = .fault) : (u.afterStatus demand proof washTime).fan = .fault := by
  simp [Scrubber.afterStatus, fan, FanState.follows]

end

/-- Settles O49: the capacity by its rows, the fan by proof and times, and by the demand that the CUTTER's STATUS shows. -/
theorem fanFollowsProofAndTimes : Obligations.FanFollowsProofAndTimes := by
  refine ⟨fun s role => ⟨capacity_eq_smallest s, s.scrubberPart, by simp [State.ownStatus, role_of_isRole role], rfl⟩,
    fun s active live role => ⟨?_, ?_, ?_, ?_, ?_, ?_, ?_⟩⟩
  · intro starting
    obtain ⟨next, rest, synced⟩ := inputChange_scrub live role 0 true
    have proves : s.scrub.fan.proves s.demandShown true = true := by simp [FanState.proves, starting]
    refine ⟨_, next, ?_⟩
    have shown : (finish s (s.withInput 0 true)).demandShown = s.demandShown :=
      (demandShown_of_rest rest).trans (demandShown_congr (by simp) (by simp))
    rw [synced, shown]
    exact ⟨by rw [synced_fan, starting]; rfl, by rw [synced_startWindow]; exact if_pos proves,
      by rw [synced_washAborted]; rw [show (s.inputs.set 0 true).i0 = true from rfl, proves]; simp, rest⟩
  · intro runs proved noLoss
    obtain ⟨next, rest, synced⟩ := inputChange_scrub live role 0 false
    refine ⟨_, next, ?_⟩
    rw [synced, synced_fan, synced_proofLoss, follows_runs runs, noLoss]
    exact ⟨rfl, rfl, rest⟩
  · obtain ⟨next, rest, -⟩ := inputChange_scrub live role 1 active
    exact ⟨_, next, rest⟩
  · intro starting
    obtain ⟨next, rest, synced⟩ := scrubEvent_next live role (startWindowExpires_eq role starting) (leavesRun_rest _ _ _)
    obtain ⟨fault, washing, settling⟩ := fault_scrub synced
    exact ⟨_, next, fault, washing, settling, by simp [State.spray, fault], rest⟩
  · intro runs loss
    obtain ⟨next, rest, synced⟩ := scrubEvent_next live role (proofLossExpires_eq role runs loss) (leavesRun_rest _ _ _)
    obtain ⟨fault, washing, settling⟩ := fault_scrub synced
    exact ⟨_, next, fault, washing, settling, capacity_of_stopped (by rw [fault]; rfl), rest⟩
  · intro runOn shown demand
    obtain ⟨next, rest, synced⟩ := scrubEvent_next live role (runOnExpires_eq role runOn) (leavesRun_rest _ _ _)
    have stopped : (finish s (s.withScrub fun u => u.leavesRun .stopped s.pressureDue)).scrub.fan = .stopped := by
      rw [synced, synced_fan, leavesRun_fan, shown]; rfl
    refine ⟨_, next, stopped, ?_, capacity_of_stopped (by rw [stopped]; rfl), rest⟩
    rw [synced, synced_runOn, shown, leavesRun_fan, leavesRun_runOn]
    simp [FanState.proves]
  · intro n x p h hears other cutter present shown change
    obtain ⟨t, next, synced⟩ := cutterStatus_scrub (x := x) (p := p) live role hears other cutter present
    rw [show (acceptFrame n s).demandShown = s.scrub.demand from shown] at synced
    refine ⟨t, next, ?_⟩
    rw [synced]
    exact ⟨afterStatus_demand, afterStatus_quietLeft change, afterStatus_starts change, afterStatus_starting,
      afterStatus_runsOn change, afterStatus_runsAgain change, afterStatus_fault⟩

end Sys2Proof.Machine
end

section
/-! The conveyor sequencer, field by field: what its following of run demand and proof (R69, R71 to R74) makes of its state and
its times, and what it leaves of its unit. -/

namespace Sys2Proof.Machine

/-! ## What one rest gives of the conveyor -/

theorem presentCutter_congr {s t : State} (hc : t.claim = s.claim) (hr : t.replicas = s.replicas) :
    t.presentCutter = s.presentCutter := by
  have present : t.isPresent .cutter = s.isPresent .cutter := by
    funext n; simp only [State.isPresent, State.entryIs, State.entry, hc]
  simp only [State.presentCutter, State.presentOf, State.replica, present, hr]

/-- Run demand reads roster, replicas and the standing flag (R69). -/
theorem wantsRun_congr {s t : State} (hc : t.claim = s.claim) (hr : t.replicas = s.replicas)
    (hs : t.conv.standing = s.conv.standing) : t.wantsRun = s.wantsRun := by
  simp only [State.wantsRun, State.demandShown, presentCutter_congr hc hr, hs]

section
variable {s t : State} (h : t.rest = s.rest)
include h

theorem convStanding_of_rest : t.conv.standing = s.conv.standing :=
  show t.conv.rest.standing = s.conv.rest.standing by rw [conv_of_rest h]
theorem convFault_of_rest : t.conv.fault = s.conv.fault :=
  show t.conv.rest.fault = s.conv.rest.fault by rw [conv_of_rest h]
theorem convRate_of_rest : t.conv.rate = s.conv.rate :=
  show t.conv.rest.rate = s.conv.rest.rate by rw [conv_of_rest h]
theorem convLoad_of_rest : t.conv.load = s.conv.load :=
  show t.conv.rest.load = s.conv.rest.load by rw [conv_of_rest h]
theorem convRecords_of_rest : t.conv.records = s.conv.records :=
  show t.conv.rest.records = s.conv.rest.records by rw [conv_of_rest h]
theorem convTaken_of_rest : t.conv.taken = s.conv.taken :=
  show t.conv.rest.taken = s.conv.rest.taken by rw [conv_of_rest h]
theorem convRetired_of_rest : t.conv.retired = s.conv.retired :=
  show t.conv.rest.retired = s.conv.rest.retired by rw [conv_of_rest h]
theorem convResync_of_rest : t.conv.resync = s.conv.resync :=
  show t.conv.rest.resync = s.conv.rest.resync by rw [conv_of_rest h]
theorem convStray_of_rest : t.conv.stray = s.conv.stray :=
  show t.conv.rest.stray = s.conv.rest.stray by rw [conv_of_rest h]
theorem convBeltTime_of_rest : t.conv.beltTime = s.conv.beltTime :=
  show t.conv.rest.beltTime = s.conv.rest.beltTime by rw [conv_of_rest h]
theorem convLastClose_of_rest : t.conv.lastClose = s.conv.lastClose :=
  show t.conv.rest.lastClose = s.conv.rest.lastClose by rw [conv_of_rest h]
theorem convWindowOpen_of_rest : t.conv.windowOpen = s.conv.windowOpen :=
  show t.conv.rest.windowOpen = s.conv.rest.windowOpen by rw [conv_of_rest h]

theorem wantsRun_of_rest : t.wantsRun = s.wantsRun :=
  wantsRun_congr (claim_of_rest h) (replicas_of_rest h) (convStanding_of_rest h)

theorem channelOf_of_rest : t.channelOf = s.channelOf := by
  funext m; simp only [State.channelOf, State.cfg, image_of_rest h, station_of_rest h]

theorem valueHeld_of_rest : t.valueHeld = s.valueHeld := by
  funext m; simp only [State.valueHeld, channelOf_of_rest h, sensor_of_rest h]

theorem chainLoaded_of_rest : t.chainLoaded = s.chainLoaded := by
  simp only [State.chainLoaded, valueHeld_of_rest h, image_of_rest h, convLoad_of_rest h]

end

/-! ## The stages of the sequencer -/

/-- A state's own way on, by run demand and belt proof (R71, R72). -/
def ConvState.goesOn (st : ConvState) (demand belt : Bool) : ConvState :=
  match st with
  | .stopped => if demand then .warning else .stopped
  | .runOff => if demand then .chainStarting else .runOff
  | .beltStarting => if belt then .chainStarting else .beltStarting
  | st => st

/-- Chain proof ends the chain's start (R71). -/
def ConvState.chainProved (st : ConvState) (chain : Bool) : ConvState :=
  if st = .chainStarting ∧ chain = true then .running else st

/-- RUNNING without run demand goes on to RUN_OFF (R72). -/
def ConvState.runsOff (st : ConvState) (demand : Bool) : ConvState :=
  if st = .running ∧ demand = false then .runOff else st

/-- The unit as it enters a state: the time of that state runs, and no other of the sequence. -/
def Conveyor.enters (u : Conveyor) (st : ConvState) (runOff : Ticks) : Conveyor :=
  { u with state := st
           warning := if st = .warning then some Config.warning else none
           beltWindow := if st = .beltStarting then some Config.beltWindow else none
           chainWindow := if st = .chainStarting then some Config.chainWindow else none
           runOff := if st = .runOff then some runOff else none }

theorem convEnter_eq (st : ConvState) (s : State) :
    convEnter st s = s.withConv fun u => u.enters st (sec s.image.runOff) := by
  cases st <;> rfl

/-- The unit goes on to a state, or stays in its own with its times as they stand. -/
def Conveyor.goesTo (u : Conveyor) (st : ConvState) (runOff : Ticks) : Conveyor :=
  if st = u.state then u else u.enters st runOff

/-- The loss and stall times as they follow their causes (R73, R74). -/
def Conveyor.watched (u : Conveyor) (belt chain loaded : Bool) : Conveyor :=
  { u with
    beltLoss := Timer.follow ((u.state == .chainStarting || u.state == .running || u.state == .runOff) && !belt)
      Config.driveLoss u.beltLoss
    chainLoss := Timer.follow (u.state == .running && !chain) Config.driveLoss u.chainLoss
    stall := Timer.follow (u.state == .running && loaded) Config.stall u.stall }

theorem goesTo_same (s : State) (st : ConvState) (h : st = s.conv.state) (r : Ticks) :
    (s.withConv fun u => u.goesTo st r) = s := by
  simp only [State.withConv, Conveyor.goesTo, h, if_true]

theorem goesTo_other (s : State) (st : ConvState) (h : st ≠ s.conv.state) :
    (s.withConv fun u => u.goesTo st (sec s.image.runOff)) = convEnter st s := by
  rw [convEnter_eq]; simp only [State.withConv, Conveyor.goesTo, h, if_false]

theorem convNext_eq (s : State) : convNext s = s.withConv fun u =>
    u.goesTo (s.conv.state.goesOn s.conv.runDemand s.inputs.i0) (sec s.image.runOff) := by
  unfold convNext ConvState.goesOn
  cases st : s.conv.state <;> dsimp only
  case stopped | runOff | beltStarting =>
    split
    · exact (goesTo_other s _ (by simp [st])).symm
    · exact (goesTo_same s _ st.symm _).symm
  all_goals exact (goesTo_same s _ st.symm _).symm

theorem convChain_eq (s : State) : convChain s = s.withConv fun u =>
    u.goesTo (s.conv.state.chainProved s.inputs.i1) (sec s.image.runOff) := by
  unfold convChain ConvState.chainProved
  simp only [Bool.and_eq_true, beq_iff_eq]
  split
  · rename_i h; rw [goesTo_other _ _ (by simp [h.1])]
  · rw [goesTo_same _ _ rfl]

theorem convRunOff_eq (s : State) : convRunOff s = s.withConv fun u =>
    u.goesTo (s.conv.state.runsOff s.conv.runDemand) (sec s.image.runOff) := by
  unfold convRunOff ConvState.runsOff
  simp only [Bool.and_eq_true, beq_iff_eq, Bool.not_eq_true']
  split
  · rename_i h; rw [goesTo_other _ _ (by simp [h.1])]
  · rw [goesTo_same _ _ rfl]

/-- The unit after each stage: its own way on, chain proof, run-off. -/
def Conveyor.moves (u : Conveyor) (belt chain : Bool) (runOff : Ticks) : Conveyor :=
  let v := u.goesTo (u.state.goesOn u.runDemand belt) runOff
  let w := v.goesTo (v.state.chainProved chain) runOff
  w.goesTo (w.state.runsOff w.runDemand) runOff

/-- The sequencer as a map of its own unit, by run demand, proof of belt and chain, the chain's load and the run-off time. -/
def Conveyor.synced (u : Conveyor) (demand belt chain loaded : Bool) (runOff : Ticks) : Conveyor :=
  (({ u with runDemand := demand } : Conveyor).moves belt chain runOff).watched belt chain loaded

theorem convMoves_eq (s : State) : convRunOff (convChain (convNext s)) =
    s.withConv fun u => u.moves s.inputs.i0 s.inputs.i1 (sec s.image.runOff) := by
  rw [convNext_eq, convChain_eq, convRunOff_eq]; rfl

theorem convSync_conv {s : State} (h : s.isRole .conveyor = true) : (convSync s).conv =
    s.conv.synced s.wantsRun s.inputs.i0 s.inputs.i1 s.chainLoaded (sec s.image.runOff) := by
  have demand : (s.withConv fun u => { u with runDemand := s.wantsRun }).rest = s.rest := rest_withConv h _ rfl
  have moved : (convRunOff (convChain (convNext (s.withConv fun u => { u with runDemand := s.wantsRun })))).rest = s.rest := by
    have r1 := (rest_convNext (s := s.withConv fun u => { u with runDemand := s.wantsRun }) h).trans demand
    have r2 := (rest_convChain ((isRole_of_rest r1 .conveyor).trans h)).trans r1
    exact (rest_convRunOff ((isRole_of_rest r2 .conveyor).trans h)).trans r2
  have loaded := chainLoaded_of_rest moved
  unfold convSync convWatch; rw [if_pos h]
  rw [convMoves_eq] at loaded ⊢
  simp only [loaded]; rfl

/-! ## What the sequencer leaves of its unit, field by field -/

theorem follow_isSome (c : Bool) (d : Ticks) (t : Timer) : (Timer.follow c d t).isSome = c := by
  cases c <;> rfl

theorem goesTo_state (u : Conveyor) (st : ConvState) (r : Ticks) : (u.goesTo st r).state = st := by
  unfold Conveyor.goesTo; split
  · rename_i h; exact h.symm
  · rfl

theorem goesTo_runDemand (u : Conveyor) (st : ConvState) (r : Ticks) : (u.goesTo st r).runDemand = u.runDemand := by
  unfold Conveyor.goesTo; split <;> rfl

theorem goesTo_rest (u : Conveyor) (st : ConvState) (r : Ticks) : (u.goesTo st r).rest = u.rest := by
  unfold Conveyor.goesTo; split <;> rfl

/-- The state of the sequence by run demand and proof (R71, R72). -/
def ConvState.follows (st : ConvState) (demand belt chain : Bool) : ConvState :=
  ((st.goesOn demand belt).chainProved chain).runsOff demand

/-- The way through a state between comes to the same as the way to the last. -/
theorem goesTo_goesTo {u : Conveyor} {a b : ConvState} (h : b = u.state → a = u.state) (r : Ticks) :
    (u.goesTo a r).goesTo b r = u.goesTo b r := by
  by_cases ha : a = u.state
  · rw [show u.goesTo a r = u from if_pos ha]
  · rw [show u.goesTo a r = u.enters a r from if_neg ha, show u.goesTo b r = u.enters b r from if_neg (ha ∘ h)]
    unfold Conveyor.goesTo; split
    · rename_i same; rw [show b = a from same]
    · rfl

theorem chainProved_back : ∀ (st : ConvState) (demand belt chain : Bool),
    (st.goesOn demand belt).chainProved chain = st → st.goesOn demand belt = st := by
  intro st; cases st <;> decide

theorem runsOff_back : ∀ (st : ConvState) (demand belt chain : Bool),
    st.follows demand belt chain = st → (st.goesOn demand belt).chainProved chain = st := by
  intro st; cases st <;> decide

theorem moves_eq (u : Conveyor) (belt chain : Bool) (runOff : Ticks) :
    u.moves belt chain runOff = u.goesTo (u.state.follows u.runDemand belt chain) runOff := by
  unfold Conveyor.moves
  simp only [goesTo_state, goesTo_runDemand]
  rw [goesTo_goesTo (u := u) (chainProved_back _ _ _ _)]
  exact goesTo_goesTo (u := u) (runsOff_back _ _ _ _) _

theorem moves_state (u : Conveyor) (belt chain : Bool) (runOff : Ticks) :
    (u.moves belt chain runOff).state = u.state.follows u.runDemand belt chain := by rw [moves_eq, goesTo_state]

/-- The loss and stall times run exactly while their causes hold. -/
theorem watched_running (u : Conveyor) (belt chain loaded : Bool) :
    (u.watched belt chain loaded).beltLoss.isSome =
      ((u.state == .chainStarting || u.state == .running || u.state == .runOff) && !belt) ∧
    (u.watched belt chain loaded).stall.isSome = (u.state == .running && loaded) :=
  ⟨follow_isSome _ _ _, follow_isSome _ _ _⟩

section
variable (u : Conveyor) (demand belt chain loaded : Bool) (runOff : Ticks)

@[simp] theorem convSynced_state : (u.synced demand belt chain loaded runOff).state = u.state.follows demand belt chain := by
  simp only [Conveyor.synced, Conveyor.watched, Conveyor.moves, goesTo_state, goesTo_runDemand, ConvState.follows]

@[simp] theorem convSynced_runDemand : (u.synced demand belt chain loaded runOff).runDemand = demand := by
  simp only [Conveyor.synced, Conveyor.watched, Conveyor.moves, goesTo_runDemand]

/-- A state that stays keeps its time. -/
theorem convSynced_stays (h : u.state.follows demand belt chain = u.state) :
    (u.synced demand belt chain loaded runOff).warning = u.warning ∧
      (u.synced demand belt chain loaded runOff).beltWindow = u.beltWindow ∧
      (u.synced demand belt chain loaded runOff).chainWindow = u.chainWindow ∧
      (u.synced demand belt chain loaded runOff).runOff = u.runOff := by
  unfold Conveyor.synced
  rw [moves_eq, Conveyor.goesTo, if_pos h]
  exact ⟨rfl, rfl, rfl, rfl⟩

/-- A state entered has its time fresh, and the others none. -/
theorem convSynced_enters {st : ConvState} (h : u.state.follows demand belt chain = st) (other : st ≠ u.state) :
    (u.synced demand belt chain loaded runOff).warning = (if st = .warning then some Config.warning else none) ∧
      (u.synced demand belt chain loaded runOff).beltWindow = (if st = .beltStarting then some Config.beltWindow else none) ∧
      (u.synced demand belt chain loaded runOff).chainWindow = (if st = .chainStarting then some Config.chainWindow else none) ∧
      (u.synced demand belt chain loaded runOff).runOff = (if st = .runOff then some runOff else none) := by
  unfold Conveyor.synced
  rw [moves_eq, Conveyor.goesTo, h, if_neg other]
  exact ⟨rfl, rfl, rfl, rfl⟩

theorem convSynced_beltLoss : (u.synced demand belt chain loaded runOff).beltLoss.isSome =
    ((u.state.follows demand belt chain == .chainStarting || u.state.follows demand belt chain == .running ||
      u.state.follows demand belt chain == .runOff) && !belt) := by
  unfold Conveyor.synced
  rw [(watched_running _ _ _ _).1, moves_state]

theorem convSynced_stall : (u.synced demand belt chain loaded runOff).stall.isSome =
    (u.state.follows demand belt chain == .running && loaded) := by
  unfold Conveyor.synced
  rw [(watched_running _ _ _ _).2, moves_state]

end

/-! ## The conveyor after an event, and after each entry of a STATE frame -/

theorem finish_convSynced {pre s : State} (hl : s.live = true) (h : s.isRole .conveyor = true) : (finish pre s).conv =
    s.conv.synced s.wantsRun s.inputs.i0 s.inputs.i1 s.chainLoaded (sec s.image.runOff) :=
  (finish_conv hl h).trans (convSync_conv h)

theorem sync_convSynced {s : State} (h : s.isRole .conveyor = true) : (sync s).conv =
    s.conv.synced s.wantsRun s.inputs.i0 s.inputs.i1 s.chainLoaded (sec s.image.runOff) := by
  unfold sync unitSync
  rw [displaySync_conv, requestSync_conv, permitSync_conv, judgeNotices_conv, offerSync_conv, vigSync_conv,
    scrubSync_other _ ((isRole_eq h).trans rfl), convSync_conv h]

@[simp] theorem noteEarly_conv (pre s : State) : (noteEarly pre s).conv = s.conv := by rw [noteEarly_eq]

theorem subEvent_convSynced {f : State → State} {s : State} (h : (f s).isRole .conveyor = true) : (subEvent f s).conv =
    (f s).conv.synced (f s).wantsRun (f s).inputs.i0 (f s).inputs.i1 (f s).chainLoaded (sec (f s).image.runOff) := by
  rw [subEvent, noteEarly_conv, sync_convSynced h]

end Sys2Proof.Machine
end

section
/-! The orders of the conveyor (R69 to R71, R76), its values and sequence (R68 to R74) and the causes of its FAULT (R73 to
R76). -/

namespace Sys2Proof.Machine

/-! ## CONVEY_ON, CONVEY_OFF and CONVEY_RESET -/

section
variable {s : State} {n : Station}

theorem conveyOrder_done (on : Bool) (cab : s.fromCab n = true) :
    conveyOrder on n s = (.done, s.withConv fun u => { u with standing := on }) := by simp [conveyOrder, cab]

theorem conveyResetOrder_refuses (cab : s.fromCab n = true) (h : ¬(s.conv.state = .fault ∧ s.inputs.i2 = false)) :
    conveyResetOrder n s = (.state, s) := by
  by_cases fault : s.conv.state = .fault
  · simp [conveyResetOrder, cab, fault, show s.inputs.i2 = true by simpa [fault] using h]
  · simp [conveyResetOrder, cab, fault]

theorem conveyResetOrder_resets (cab : s.fromCab n = true) (fault : s.conv.state = .fault) (wire : s.inputs.i2 = false) :
    conveyResetOrder n s =
      (.done, s.withConv fun u => { u.enters .stopped (sec s.image.runOff) with fault := none }) := by
  simp [conveyResetOrder, cab, fault, wire, convEnter_eq, State.withConv]

end

/-- An order that reaches the conveyor's rule, which writes its own unit: the rest, and what the sequencer makes of it. -/
theorem convOrder_next {s : State} {n : Station} {k : Byte} {kind : OrderKind} {owner : State → AnswerCode × State}
    {a : AnswerCode} {f : Conveyor → Conveyor} (hears : s.hears = true) (role : s.isRole .conveyor = true)
    (room : s.pub.answers.length < 4) (takes : kind.takenBy .conveyor = true) (noArgs : kind.argCount = 0)
    (ho : owner (acceptFrame n s) = (a, (acceptFrame n s).withConv f)) :
    ∃ t, orderEvent n k kind [] owner s = .next t ∧ t.rest = (pushAnswer n k a ((acceptFrame n s).withConv f)).rest ∧
      t.conv = (f s.conv).synced t.wantsRun s.inputs.i0 s.inputs.i1 t.chainLoaded (sec s.image.runOff) := by
  have rest := finish_rest s (pushAnswer n k a ((acceptFrame n s).withConv f))
  have live : (pushAnswer n k a ((acceptFrame n s).withConv f)).live = true :=
    (acceptFrame_live n s).trans (live_of_hears hears)
  have conveyor : (pushAnswer n k a ((acceptFrame n s).withConv f)).isRole .conveyor = true :=
    (acceptFrame_isRole n s _).trans role
  refine ⟨_, by rw [order_reaches hears room role takes (by simp [noArgs]) (by simp), ho], rest, ?_⟩
  rw [finish_convSynced live conveyor, ← wantsRun_of_rest rest, ← chainLoaded_of_rest rest]
  simp only [pushAnswer, State.withConv, acceptFrame_conv, acceptFrame_inputs, acceptFrame_image]

/-- Settles O39: each order reaches its rule, and the sequencer follows the standing flag or leaves STOPPED. -/
theorem conveyorOrders : Obligations.ConveyorOrders := by
  intro s n k h hears role room cab
  refine ⟨?_, ?_, ?_⟩
  · obtain ⟨t, next, rest, synced⟩ := convOrder_next (k := k) (kind := .conveyOn) hears role room rfl rfl
      (conveyOrder_done true cab)
    have standing : t.conv.standing = true := convStanding_of_rest rest
    refine ⟨t, next, standing, ?_, rest⟩
    rw [synced, convSynced_runDemand, State.wantsRun, standing, Bool.or_true]
  · obtain ⟨t, next, rest, -⟩ := convOrder_next (k := k) (kind := .conveyOff) hears role room rfl rfl
      (conveyOrder_done false cab)
    exact ⟨t, next, convStanding_of_rest rest, rest⟩
  · split
    · rename_i resets
      obtain ⟨t, next, rest, synced⟩ := convOrder_next (k := k) (kind := .conveyReset) hears role room rfl rfl
        (conveyResetOrder_resets cab (by simpa using resets.1) (by simpa using resets.2))
      have entered : t.rest = (pushAnswer n k .done { h with conv := { h.conv with fault := none } }).rest :=
        rest.trans (rest_withConv (s := pushAnswer n k .done { h with conv := { h.conv with fault := none } })
          ((acceptFrame_isRole n s _).trans role) (fun u => u.enters .stopped (sec h.image.runOff)) rfl)
      refine ⟨t, next, ?_, convFault_of_rest entered, ?_, entered⟩
      · rw [synced, convSynced_state]
        exact show ConvState.follows .stopped _ _ _ = _ by cases t.wantsRun <;> rfl
      · rw [convStanding_of_rest entered]
        show h.conv.standing = s.conv.standing
        rw [show h.conv = s.conv from acceptFrame_conv n s]
    · rename_i stays
      have refused : conveyResetOrder n h = (.state, h) :=
        conveyResetOrder_refuses cab (by rw [show h.conv = s.conv from acceptFrame_conv n s,
          show h.inputs = s.inputs from acceptFrame_inputs n s]; exact stays)
      refine ⟨_, order_reaches (kind := .conveyReset) hears room role rfl (by rfl) (by simp), ?_, ?_⟩
      · rw [refused]; exact finish_rest _ _
      · rw [refused, convFault_of_rest (finish_rest _ _)]
        show h.conv.fault = s.conv.fault
        rw [show h.conv = s.conv from acceptFrame_conv n s]

/-! ## Expiries, inputs, and what follows them -/

/-- An event that writes the conveyor's own unit. -/
theorem convEvent_next {s : State} {f : State → State} {g : Conveyor → Conveyor} (live : s.live = true)
    (role : s.isRole .conveyor = true) (acts : f s = s.withConv g) :
    ∃ t, event f s = .next t ∧ t.rest = (s.withConv g).rest ∧
      t.conv = (g s.conv).synced t.wantsRun s.inputs.i0 s.inputs.i1 t.chainLoaded (sec s.image.runOff) := by
  have rest := finish_rest s (s.withConv g)
  refine ⟨finish s (s.withConv g), by rw [event_live live, acts], rest, ?_⟩
  rw [finish_convSynced (s := s.withConv g) live role, wantsRun_of_rest rest, chainLoaded_of_rest rest]; rfl

theorem takeInput_reads {s : State} {r : Role} (role : s.isRole r = true) (k : Fin 4) (b : Bool) :
    takeInput r k b id s = s.withInput k b := by
  unfold takeInput; rw [role]
  by_cases same : s.inputs.get k = b
  · simp [same]
  · simp [same]

theorem withInput_live (s : State) (k : Fin 4) (b : Bool) : (s.withInput k b).live = s.live := by
  simp only [State.live, State.withInput_line]

theorem withInput_isRole (s : State) (k : Fin 4) (b : Bool) (r : Role) : (s.withInput k b).isRole r = s.isRole r := by
  simp only [State.isRole, State.role, State.cfg, State.withInput_image, State.withInput_station]

/-- A change of a proof input at the conveyor: the sequencer follows it. -/
theorem inputChange_conv {s : State} (live : s.live = true) (role : s.isRole .conveyor = true) (k : Fin 4) (b : Bool) :
    ∃ t, event (takeInput .conveyor k b id) s = .next t ∧ t.rest = (s.withInput k b).rest ∧
      t.conv = s.conv.synced t.wantsRun (s.inputs.set k b).i0 (s.inputs.set k b).i1 t.chainLoaded (sec s.image.runOff) := by
  have rest := finish_rest s (s.withInput k b)
  refine ⟨finish s (s.withInput k b), by rw [event_live live, takeInput_reads role], rest, ?_⟩
  rw [finish_convSynced (by rw [withInput_live, live]) (by rw [withInput_isRole, role]), wantsRun_of_rest rest,
    chainLoaded_of_rest rest, State.withInput_conv, State.withInput_inputs, State.withInput_image]

/-! ## FAULT (R73 to R76) -/

/-- The unit as it enters FAULT (R76). -/
def Conveyor.faults (u : Conveyor) (why : ConvFault) (runOff : Ticks) : Conveyor :=
  { u.enters .fault runOff with fault := some why, beltLoss := none, chainLoss := none, stall := none }

theorem convFault_eq {s : State} (h : s.conv.state ≠ .fault) (why : ConvFault) :
    convFault why s = s.withConv fun u => u.faults why (sec s.image.runOff) := by
  simp [convFault, h, convEnter_eq, State.withConv, Conveyor.faults]

theorem follows_fault (demand belt chain : Bool) : ConvState.follows .fault demand belt chain = .fault := by
  simp [ConvState.follows, ConvState.goesOn, ConvState.chainProved, ConvState.runsOff]

/-- In FAULT no output is active (R76, R190). -/
theorem outputs_of_fault {t : State} (role : t.isRole .conveyor = true) (h : t.conv.state = .fault) :
    t.outputs = (false, false, false, false) := by
  simp [State.outputs, role_of_isRole role, h]

/-- Once the unit has entered FAULT it stays there with its cause, and no output is active. -/
theorem fault_conv {t v : State} {u : Conveyor} {why : ConvFault} {runOff : Ticks} {demand belt chain loaded : Bool} {r : Ticks}
    (role : v.isRole .conveyor = true) (rest : t.rest = (v.withConv fun _ => u.faults why runOff).rest)
    (synced : t.conv = (u.faults why runOff).synced demand belt chain loaded r) :
    t.conv.state = .fault ∧ t.conv.fault = some why ∧ t.outputs = (false, false, false, false) := by
  have fault : t.conv.state = .fault := by rw [synced, convSynced_state]; exact follows_fault _ _ _
  exact ⟨fault, convFault_of_rest rest, outputs_of_fault ((isRole_of_rest rest _).trans role) fault⟩

/-- An expiry that stops the conveyor in FAULT. -/
theorem faultEvent_next {s : State} {f : State → State} {why : ConvFault} (live : s.live = true)
    (role : s.isRole .conveyor = true) (running : s.conv.state ≠ .fault) (acts : f s = convFault why s) :
    ∃ t, event f s = .next t ∧ t.conv.state = .fault ∧ t.conv.fault = some why ∧ t.outputs = (false, false, false, false) := by
  obtain ⟨t, next, rest, synced⟩ := convEvent_next live role (acts.trans (convFault_eq running why))
  exact ⟨t, next, fault_conv role rest synced⟩

/-- Settles O52: each cause enters FAULT, which stays as the sequencer follows. -/
theorem conveyorFaults : Obligations.ConveyorFaults := by
  intro s live role running
  refine ⟨fun h => ?_, fun h => ?_, fun h => ?_, fun h => ?_, fun h => ?_, fun wire => ?_⟩
  · exact faultEvent_next live role running (by simp [beltWindowExpires, role, h])
  · exact faultEvent_next live role running (by simp [chainWindowExpires, role, h])
  · exact faultEvent_next live role running (by simp [beltLossExpires, role, h])
  · exact faultEvent_next live role running (by simp [chainLossExpires, role, h])
  · exact faultEvent_next live role running (by simp [stallExpires, role, h])
  · have pulled : takeInput .conveyor 2 true pullWireActive s = convFault .pullWire (s.withInput 2 true) := by
      simp [takeInput, role, Inputs.get, wire, pullWireActive]
    have faults := convFault_eq (s := s.withInput 2 true) (by simpa using running) .pullWire
    have rest := finish_rest s (convFault .pullWire (s.withInput 2 true))
    rw [faults] at rest
    have fault := fault_conv (by rw [withInput_isRole, role]) rest
      (by rw [finish_convSynced (by exact (withInput_live s 2 true).trans live)
            (by exact (withInput_isRole s 2 true _).trans role)]
          rfl)
    refine ⟨_, by rw [exec, execPullWireChange, if_pos rfl, event_live live, pulled, faults], fault.1, fault.2.1, fault.2.2,
      (convRecords_of_rest rest).trans ?_, (convStanding_of_rest rest).trans ?_, (convTaken_of_rest rest).trans ?_,
      (convRetired_of_rest rest).trans ?_⟩
    all_goals simp [Conveyor.faults, Conveyor.enters]

end Sys2Proof.Machine
end

section
/-! Belt time, windows and the retirement of lots (R85 to R87). -/

namespace Sys2Proof.Machine

/-! ## Belt time (R85) -/

/-- The records after 0.1 s of belt time: the head lot in its window takes what the belt has brought. -/
def Conveyor.weighs (u : Conveyor) (add : Nat) : Conveyor :=
  { u with
    beltTime := u.beltTime + 1, beltPart := 0
    records := match u.records with
      | r :: queued =>
        if u.windowOpen then { r with measured := min Config.massTop (r.measured + add) } :: queued else u.records
      | [] => []
    stray := if u.windowOpen && !u.records.isEmpty then u.stray else min Config.massTop (u.stray + add) }

theorem beltTick_eq {s : State} (role : s.isRole .conveyor = true) (runs : s.conv.state.beltRuns = true) :
    beltTick s = s.withConv fun u => u.weighs s.rateHeld := by
  unfold beltTick; rw [role, runs]; rfl

theorem weighs_head {u : Conveyor} {add : Nat} {r : LotRec} {queued : List LotRec} (h : u.records = r :: queued)
    (o : u.windowOpen = true) :
    (u.weighs add).records = { r with measured := min Config.massTop (r.measured + add) } :: queued ∧
      (u.weighs add).stray = u.stray := by simp [Conveyor.weighs, h, o]

theorem weighs_stray {u : Conveyor} {add : Nat} (o : u.windowOpen = false) :
    (u.weighs add).records = u.records ∧ (u.weighs add).stray = min Config.massTop (u.stray + add) := by
  cases h : u.records <;> simp [Conveyor.weighs, h, o]

/-! ## Windows (R86) -/

/-- The head lot's window opens where belt time has come to its opening and it is not empty. -/
theorem openWindow_opens {s : State} {r : LotRec} {queued : List LotRec} (h : s.conv.records = r :: queued)
    (closed : s.conv.windowOpen = false) (time : s.lotOpening r ≤ s.conv.beltTime) (some : s.lotOpening r < s.lotClose r) :
    openWindow s = s.withConv fun u => { u with windowOpen := true } := by
  unfold openWindow openWindows
  simp [h, closed, Nat.not_lt.2 time, Nat.not_le.2 some]

theorem openWindow_none {s : State} (h : s.conv.records = []) : openWindow s = s := by
  unfold openWindow openWindows; rw [h]

/-! ## Retirement (R87) -/

/-- The notices of an outcome leave all of the conveyor but what the outcome itself notes. -/
theorem outcomeNotices_conv (o : LotOutcome) (s : State) :
    ∃ large small, (outcomeNotices o s).conv = { s.conv with overSeen := large, shortSeen := small } := by
  have raised : ∀ (c : NoticeCode) (u : State), (raiseNotice c (setHolds c true u)).conv = u.conv := by
    intro c u; rw [noticesOnly_raiseNotice c (setHolds c true u)]; rfl
  cases o with
  | fall => exact ⟨s.conv.overSeen, s.conv.shortSeen, rfl⟩
  | overbreak => exact ⟨true, s.conv.shortSeen, raised _ _⟩
  | short => exact ⟨s.conv.overSeen, true, raised _ _⟩
  | ok => exact ⟨false, false, rfl⟩

/-- The retirement of the head lot, in the conveyor's unit. -/
theorem retireHead_conv (r : LotRec) (queued : List LotRec) (s : State) :
    ∃ large small, (retireHead r queued s).conv = { s.conv with
      records := queued, retired := s.conv.retired + 1, windowOpen := false, lastClose := some (s.lotClose r)
      retires := queueRetire ⟨r.lot.number, (lotOutcome s.image r).code, BitVec.ofNat 32 (r.measured / 10)⟩ s.conv.retires
      overSeen := large, shortSeen := small } := by
  unfold retireHead
  rw [judgeNotices_conv]
  exact outcomeNotices_conv _ _

theorem lotRetires_eq {s : State} {r : LotRec} {queued : List LotRec} (role : s.isRole .conveyor = true)
    (h : s.conv.records = r :: queued) (o : s.conv.windowOpen = true) (close : s.lotClose r ≤ s.conv.beltTime) :
    lotRetires s = openWindow (retireHead r queued s) := by
  unfold lotRetires; rw [h]; simp [role, o, close]

/-- Settles O53: the tick of belt time by the head's window, the window's opening, and the retirement at its close. -/
theorem beltTimeAndLots : Obligations.BeltTimeAndLots := by
  intro s live role
  refine ⟨fun runs => ?_, fun r queued head closed time opens => ?_, fun r head o close => ?_, fun r queued head o close => ?_⟩
  · obtain ⟨t, next, rest, -⟩ := convEvent_next live role (beltTick_eq role runs)
    refine ⟨t, next, convBeltTime_of_rest rest, fun r queued head o => ?_, fun closed => ?_, 
      (convTaken_of_rest rest).trans rfl, (convRetired_of_rest rest).trans rfl, (inputs_of_rest rest).trans rfl,
      (sensor_of_rest rest).trans rfl⟩
    · obtain ⟨records, stray⟩ := weighs_head (add := s.rateHeld) head o
      exact ⟨(convRecords_of_rest rest).trans records, (convStray_of_rest rest).trans stray⟩
    · obtain ⟨records, stray⟩ := weighs_stray (add := s.rateHeld) closed
      exact ⟨(convRecords_of_rest rest).trans records, (convStray_of_rest rest).trans stray⟩
  · obtain ⟨t, next, rest, -⟩ := convEvent_next (f := lotWindowOpens) live role
      ((if_pos role).trans (openWindow_opens head closed time opens))
    exact ⟨t, next, convWindowOpen_of_rest rest, rest⟩
  · obtain ⟨large, small, retired⟩ := retireHead_conv r [] s
    have rest := finish_rest s (retireHead r [] s)
    refine ⟨_, (event_live live).trans (congrArg (Host.Outcome.next <| finish s ·)
      ((lotRetires_eq role head o close).trans (openWindow_none (by rw [retired])))), ?_⟩
    rw [convRecords_of_rest rest, convRetired_of_rest rest, convWindowOpen_of_rest rest, convLastClose_of_rest rest,
      convTaken_of_rest rest, retires_of_rest rest, retired]
    exact ⟨rfl, rfl, rfl, rfl, rfl, rfl⟩
  · exact ⟨_, (event_live live).trans (congrArg (Host.Outcome.next <| finish s ·) (lotRetires_eq role head o close)),
      finish_rest _ _⟩

end Sys2Proof.Machine
end

section
/-! What a good answer and the CUTTER's STATUS give the conveyor (R68, R69, R85, R88, R89), and its sequence (R71 to R74). -/

namespace Sys2Proof.Machine

/-! ## A good answer (R68, R187) -/

/-- A value taken as that of MASS_RATE or of CHAIN_LOAD. -/
def Conveyor.takesValue (u : Conveyor) (rate load : Bool) (v : Word16) : Conveyor :=
  { u with rate := if rate then some v else u.rate, load := if load then some v else u.load }

/-- A value by the meaning of its entry: MASS_RATE, CHAIN_LOAD, or neither. -/
theorem handOn_conveyor {s : State} (role : s.isRole .conveyor = true) (e : Fin 16) (v : Word16) :
    handOn e v s = s.withConv fun u => u.takesValue (s.channelOf .massRate == some e) (s.channelOf .chainLoad == some e) v := by
  have means : ∀ m, s.channelOf m = some e → (s.cfg.channels.get e).meaning = m := fun _ => channelOf_meaning
  unfold handOn; dsimp only; rw [role_of_isRole role]
  cases m : (s.cfg.channels.get e).meaning with
  | massRate =>
    have other : s.channelOf .chainLoad ≠ some e := fun h => nomatch m.symm.trans (means _ h)
    by_cases lowest : s.channelOf .massRate = some e <;> simp [lowest, other, State.withConv, Conveyor.takesValue]
  | chainLoad =>
    have other : s.channelOf .massRate ≠ some e := fun h => nomatch m.symm.trans (means _ h)
    by_cases lowest : s.channelOf .chainLoad = some e <;> simp [lowest, other, State.withConv, Conveyor.takesValue]
  | _ =>
    have rate : s.channelOf .massRate ≠ some e := fun h => nomatch m.symm.trans (means _ h)
    have load : s.channelOf .chainLoad ≠ some e := fun h => nomatch m.symm.trans (means _ h)
    simp only [State.withConv, Conveyor.takesValue, beq_false_of_ne rate, beq_false_of_ne load]
    split <;> rfl

/-- A good answer at the conveyor: its entry's value is held, and handed on. -/
theorem takeCharacter_held {s : State} {e : Fin 16} {high low b : Byte} {parity : Bool} (polled : s.sensor.polled = some e)
    (check : s.sensor.assembly = .check high low) (valid : characterValid s.cfg.parity b parity true = true)
    (good : b = sensorCheck (s.cfg.channels.get e).address high low) :
    ∃ sensor claim, takeCharacter b parity true s = handOn e (high ++ low) { s with sensor := sensor, claim := claim } ∧
      (sensor.channels.get e).held = true := by
  have ready : ∀ u : State, ∃ flag claim, readySync u =
      { u with sensor := { u.sensor with ready := flag }, claim := claim } := by
    intro u; unfold readySync; split
    · exact ⟨_, _, rfl⟩
    · exact ⟨_, _, rfl⟩
  have assembled : assemble b (s.withSensor fun u => { u with broken := false }) =
      goodAnswer e (high ++ low) (s.withSensor fun u => { u with broken := false }) := by
    unfold assemble; simp only [State.withSensor_sensor, check, polled]
    exact if_pos good
  unfold takeCharacter; rw [if_pos valid, assembled, goodAnswer]
  obtain ⟨flag, claim, h⟩ := ready (((setChannel e (goodChannel (high ++ low))
    (s.withSensor fun u => { u with broken := false }))).withSensor fun u => { u with polled := none, assembly := .hunt })
  refine ⟨_, claim, by rw [h]; rfl, ?_⟩
  simp [setChannel, Channel.held, goodChannel]

/-- The stall time runs exactly in RUNNING at or above the stall level (R74). -/
theorem finish_stall {pre s : State} (live : s.live = true) (role : s.isRole .conveyor = true) :
    (finish pre s).conv.stall.isSome = ((finish pre s).conv.state == .running && (finish pre s).chainLoaded) := by
  rw [finish_convSynced live role, convSynced_stall, convSynced_state, chainLoaded_of_rest (finish_rest pre s)]

/-- What a value handed on leaves of the conveyor: rate held, load and stall time. -/
theorem answer_conv {pre s : State} {e : Fin 16} (v : Word16) (live : s.live = true) (role : s.isRole .conveyor = true)
    (held : (s.sensor.channels.get e).held = true) :
    let t := finish pre (handOn e v s)
    (if s.channelOf .massRate = some e then t.conv.rate = some v ∧ t.rateHeld = v.toNat else t.conv.rate = s.conv.rate) ∧
      (s.channelOf .chainLoad ≠ some e → t.conv.load = s.conv.load) ∧
      (s.channelOf .chainLoad = some e → t.conv.load = some v ∧
        t.conv.stall.isSome = decide (t.conv.state = .running ∧ s.image.stallLevel ≤ v.toNat)) := by
  intro t
  have valueHeld : ∀ m, s.channelOf m = some e → s.valueHeld m = true := fun m h => by rw [State.valueHeld, h]; exact held
  have rest : t.rest = (handOn e v s).rest := finish_rest _ _
  have stalls : t.conv.stall.isSome = (t.conv.state == .running && t.chainLoaded) :=
    finish_stall (by rw [handOn_conveyor role]; exact live) (by rw [handOn_conveyor role]; exact role)
  rw [handOn_conveyor role] at rest
  have rate := convRate_of_rest rest
  have load := convLoad_of_rest rest
  simp only [State.withConv_conv, Conveyor.takesValue, beq_iff_eq] at rate load
  refine ⟨?_, fun other => by rw [load, if_neg other], fun lowest => ?_⟩
  · split
    · rename_i lowest
      rw [if_pos lowest] at rate
      refine ⟨rate, ?_⟩
      rw [State.rateHeld, valueHeld_of_rest rest, rate]
      exact if_pos (valueHeld _ lowest)
    · rename_i other; rw [rate, if_neg other]
  · rw [if_pos lowest] at load
    have loaded : t.chainLoaded = decide (s.image.stallLevel ≤ v.toNat) := by
      rw [State.chainLoaded, load, valueHeld_of_rest rest, show (s.withConv _).valueHeld .chainLoad = true from
        valueHeld _ lowest, Bool.true_and, image_of_rest rest]
      rfl
    rw [stalls, loaded]
    refine ⟨load, ?_⟩
    by_cases runs : t.conv.state = .running <;> simp [runs]

end Sys2Proof.Machine
end

section
/-! A STATE frame accepted and its entries taken (R149, R156, R168): the state between, and one entry of a known station. -/

namespace Sys2Proof.Machine

/-- The state once a STATE frame of station `n` has been accepted: the claim it may start, and what follows that. -/
def stateAccepted (n : Station) (s : State) : State := subEvent (claimOnState n) (noteEarly s (acceptFrame n s))

theorem rest_stateAccepted (n : Station) (s : State) :
    (stateAccepted n s).rest = (claimOnState n (noteEarly s (acceptFrame n s))).rest := rest_subEvent _ _

theorem claimOnState_station (n : Station) (s : State) : (claimOnState n s).station = s.station := by
  unfold claimOnState; split
  · rw [enterClaim_none]
  · rfl

theorem stateAccepted_station (n : Station) (s : State) : (stateAccepted n s).station = s.station := by
  rw [station_of_rest (rest_stateAccepted n s), claimOnState_station, noteEarly_station, acceptFrame_station]

/-- A STATE frame of another station: the entries are taken in turn once it is accepted. -/
theorem stateTaken_takes {s : State} {n : Station} {payload : List Byte} (hears : s.hears = true)
    (fits : payloadFits .state payload = true) (other : n ≠ s.station) : exec (.stateTaken n payload) s =
      .next (finish s (takeEntries n (readEntries payload) (stateAccepted n s))) := by
  have taken : takeState n payload (noteEarly s (acceptFrame n s)) =
      takeEntries n (readEntries payload) (stateAccepted n s) := by
    unfold takeState; dsimp only
    exact if_neg (by rw [show subEvent _ _ = stateAccepted n s from rfl, stateAccepted_station]; exact other)
  rw [stateTaken_next hears fits, taken]

/-- The roster after a frame is accepted: the sender's entry PRESENT with a fresh silence time where it was PRESENT or
SILENT, all else as it stood (R156). -/
theorem acceptFrame_entry (n m : Station) (s : State) : (acceptFrame n s).entry m =
    if m = n ∧ n ≠ s.station then (s.entry n).map fun e =>
      if e.state = .present ∨ e.state = .silent then { e with state := .present, silence := some (silenceTime s) } else e
    else s.entry m := by
  have lowered : (lowerHfc s).claim = s.claim ∧ (lowerHfc s).station = s.station := by
    unfold lowerHfc followCounts; dsimp only; repeat' split
    all_goals exact ⟨rfl, rfl⟩
  obtain ⟨claim, station⟩ := lowered
  have heard : (acceptFrame n s).entry m = (hearEntry n (lowerHfc s)).entry m := rfl
  rw [heard]
  generalize lowerHfc s = v at claim station
  have entry : v.entry = s.entry := by funext k; simp only [State.entry, claim]
  unfold hearEntry
  rw [entry, station]
  cases he : s.entry n with
  | none =>
    rw [show v.entry m = s.entry m from congrFun entry m]
    split
    · rename_i same; rw [same.1, he]; rfl
    · rfl
  | some e =>
    by_cases other : n = s.station
    · simp [other, entry]
    · by_cases counts : e.state = .present ∨ e.state = .silent
      · by_cases same : m = n
        · subst same; simp [State.entry, other, counts, silenceTime, claim]
        · simp [State.entry, other, counts, same, Tbl.get_set_ne, claim]
      · by_cases same : m = n
        · subst same; simp [other, counts, entry, he]
        · simp [other, counts, same, entry]

theorem acceptFrame_known {n m : Station} {s : State} : ((acceptFrame n s).entry m).isSome = (s.entry m).isSome := by
  rw [acceptFrame_entry]; split
  · rename_i same; rw [same.1]; cases s.entry n <;> rfl
  · rfl

/-- A STATE frame of a station that the roster holds starts no claim: the rest is that of its acceptance. -/
theorem stateAccepted_known {n : Station} {s : State} (other : n ≠ s.station) (known : (s.entry n).isSome = true) :
    (stateAccepted n s).rest = (acceptFrame n s).rest := by
  have entry : (noteEarly s (acceptFrame n s)).entry n = (acceptFrame n s).entry n := by
    simp only [State.entry, noteEarly_claim]
  have held : ((noteEarly s (acceptFrame n s)).entry n).isNone = false := by
    rw [entry, Option.isNone_eq_false_iff, acceptFrame_known, known]
  rw [rest_stateAccepted, claimOnState_known (by simpa using other) held, rest_noteEarly]

/-- One entry of another station that the roster holds: its acceptance, the entry with what follows it, and the end. -/
theorem stateTaken_one {s : State} {n : Station} {payload : List Byte} {e : Entry} (hears : s.hears = true)
    (fits : payloadFits .state payload = true) (other : n ≠ s.station) (read : readEntries payload = [e]) :
    exec (.stateTaken n payload) s =
      .next (finish s (subEvent (fun s => takeEntry n s e) (stateAccepted n s))) := by
  rw [stateTaken_takes hears fits other, read, takeEntries, List.foldl_cons, List.foldl_nil]

end Sys2Proof.Machine
end

section
/-! The CUTTER's STATUS at the conveyor (R69, R85, R88, R89), and the conveyor's sequence (R68 to R74). -/

namespace Sys2Proof.Machine

/-! ## The CUTTER's STATUS (R85, R88, R89) -/

/-- What a CUTTER's STATUS writes of the conveyor's unit: the current advance, then the counts it gives after power-on, or
the discard where its committed count is behind. -/
def Conveyor.takesCutter (u : Conveyor) (p : CutterPart) (present : Bool) : Conveyor :=
  let c := committedCount p.issued p.lotOpen
  let v := { u with advance := some p.advance
                    stray := if u.advance.isNone || u.advance = some p.advance then u.stray else 0 }
  if u.resync then if present then { v with taken := c, retired := c, resync := false } else v
  else if precedes c u.taken then
    { v with records := [], taken := 0, retired := 0, windowOpen := false, lastClose := none }
  else v

theorem takesCutter_sequence (u : Conveyor) (p : CutterPart) (present : Bool) :
    (u.takesCutter p present).state = u.state ∧ (u.takesCutter p present).standing = u.standing := by
  unfold Conveyor.takesCutter; dsimp only; repeat' split
  all_goals exact ⟨rfl, rfl⟩

theorem conveyorTakesCutter_eq (n : Station) (p : CutterPart) (s : State) :
    conveyorTakesCutter n p s = s.withConv fun u => u.takesCutter p (s.presentOf .cutter == some n) := by
  unfold conveyorTakesCutter takeAdvance discardLots Conveyor.takesCutter
  have present : ∀ f : Conveyor → Conveyor, (s.withConv f).presentOf .cutter = s.presentOf .cutter := fun _ => rfl
  simp only [present, State.withConv_conv]
  cases resync : s.conv.resync with
  | true => by_cases h : s.presentOf .cutter = some n <;> simp [h, State.withConv, resync]
  | false =>
    by_cases behind : precedes (committedCount p.issued p.lotOpen) s.conv.taken = true <;>
      simp [State.withConv, resync, behind]

theorem takeStatus_conveyor {s : State} (role : s.isRole .conveyor = true) (n : Station) (x : StatusCommon) (p : CutterPart) :
    takeStatus n ⟨x, .cutter p⟩ s = (storeStatus n ⟨x, .cutter p⟩ s).withConv fun u =>
      u.takesCutter p (s.presentOf .cutter == some n) := by
  have stored : (storeStatus n ⟨x, .cutter p⟩ s).role = some .conveyor := role_of_isRole (by simpa using role)
  unfold takeStatus; dsimp only
  rw [stored]
  exact (conveyorTakesCutter_eq _ _ _).trans (by rw [storeStatus_presentOf])

@[simp] theorem storeStatus_conv (n : Station) (r : StatusRecord) (s : State) : (storeStatus n r s).conv = s.conv := by
  obtain ⟨_, h, -⟩ := storeStatus_eq n r s; rw [h]

/-- The STATUS of the PRESENT CUTTER decides run demand (R69). -/
theorem storeStatus_wantsRun {n : Station} {x : StatusCommon} {p : CutterPart} {s : State}
    (h : s.presentOf .cutter = some n) :
    (storeStatus n ⟨x, .cutter p⟩ s).wantsRun = (p.demand || p.outstanding != 0 || s.conv.standing) := by
  have cutter : (storeStatus n ⟨x, .cutter p⟩ s).presentCutter = some p := by
    simp only [State.presentCutter, storeStatus_presentOf, h, storeStatus_status]
  simp only [State.wantsRun, State.demandShown, cutter, storeStatus_conv]
  rfl

theorem stateAccepted_conv {n : Station} {s : State} (role : s.isRole .conveyor = true) (other : n ≠ s.station)
    (known : (s.entry n).isSome = true) : ∃ loaded, (stateAccepted n s).conv =
      s.conv.synced (acceptFrame n s).wantsRun s.inputs.i0 s.inputs.i1 loaded (sec s.image.runOff) := by
  have held : ((noteEarly s (acceptFrame n s)).entry n).isNone = false := by
    rw [show (noteEarly s (acceptFrame n s)).entry n = (acceptFrame n s).entry n by simp only [State.entry, noteEarly_claim],
      Option.isNone_eq_false_iff, acceptFrame_known, known]
  have accepted := claimOnState_known (s := noteEarly s (acceptFrame n s)) (by simpa using other) held
  have inputs : (noteEarly s (acceptFrame n s)).inputs = s.inputs :=
    (inputs_of_rest (rest_noteEarly _ _)).trans (acceptFrame_inputs n s)
  refine ⟨(acceptFrame n s).chainLoaded, ?_⟩
  rw [stateAccepted, subEvent_convSynced (by rw [accepted]; simpa using role), accepted,
    wantsRun_of_rest (rest_noteEarly s (acceptFrame n s)), chainLoaded_of_rest (rest_noteEarly s (acceptFrame n s)),
    inputs, noteEarly_conv, acceptFrame_conv, noteEarly_image,
    acceptFrame_image]

/-- The conveyor once a STATE frame of the PRESENT CUTTER has been taken: the sequencer follows the acceptance, the STATUS,
and the end of the event. -/
theorem cutterStatus_conv {s : State} {n : Station} {x : StatusCommon} {p : CutterPart} (hears : s.hears = true)
    (role : s.isRole .conveyor = true) (other : n ≠ s.station) (cutter : x.role = Role.code .cutter)
    (present : (acceptFrame n s).presentOf .cutter = some n) :
    ∃ t l₁ l₂ l₃, exec (.stateTaken n (Entry.status ⟨x, .cutter p⟩).bytes) s = .next t ∧
      let wants : Bool := p.demand || p.outstanding != 0 || s.conv.standing
      let heard := s.conv.synced (acceptFrame n s).wantsRun s.inputs.i0 s.inputs.i1 l₁ (sec s.image.runOff)
      let taken := (heard.takesCutter p true).synced wants s.inputs.i0 s.inputs.i1 l₂ (sec s.image.runOff)
      t.conv = taken.synced wants s.inputs.i0 s.inputs.i1 l₃ (sec s.image.runOff) := by
  have known : (s.entry n).isSome = true := by
    rw [← acceptFrame_known (n := n), ← Option.isNone_eq_false_iff]; exact presentOf_known present
  have fits : payloadFits .state (Entry.status ⟨x, .cutter p⟩).bytes = true := by rw [payloadFits, statusBytes_length]; rfl
  obtain ⟨l₁, bConv⟩ := stateAccepted_conv role other known
  have bRest := stateAccepted_known other known
  have next := stateTaken_one hears fits other (readEntries_cutterStatus p cutter)
  generalize stateAccepted n s = b at bConv bRest next
  have bPresent : b.presentOf .cutter = some n := (presentOf_of_claim (claim_of_rest bRest) _).trans present
  have bRole : b.isRole .conveyor = true := (isRole_of_rest bRest _).trans ((acceptFrame_isRole n s _).trans role)
  have bInputs : b.inputs = s.inputs := (inputs_of_rest bRest).trans (acceptFrame_inputs n s)
  have bImage : b.image = s.image := (image_of_rest bRest).trans (acceptFrame_image n s)
  have bStanding : b.conv.standing = s.conv.standing :=
    (convStanding_of_rest bRest).trans (congrArg Conveyor.standing (acceptFrame_conv n s))
  -- the STATUS taken, before what follows it
  have taken : takeEntry n b (.status ⟨x, .cutter p⟩) =
      (storeStatus n ⟨x, .cutter p⟩ b).withConv fun u => u.takesCutter p true := by
    rw [takeEntry, takeStatus_conveyor bRole, bPresent, beq_self_eq_true]
  generalize hv : takeEntry n b (.status ⟨x, .cutter p⟩) = v at taken
  have vRole : v.isRole .conveyor = true := by rw [taken]; exact (storeStatus_isRole _ _ _ _).trans bRole
  have vInputs : v.inputs = s.inputs := by rw [taken]; exact (storeStatus_inputs _ _ _).trans bInputs
  have vImage : v.image = s.image := by rw [taken]; exact (storeStatus_image _ _ _).trans bImage
  have vConv : v.conv = b.conv.takesCutter p true := by rw [taken, State.withConv_conv, storeStatus_conv]
  have vWants : v.wantsRun = (p.demand || p.outstanding != 0 || s.conv.standing) := by
    have standing : v.conv.standing = b.conv.standing := by rw [vConv, (takesCutter_sequence _ _ _).2]
    have stored := storeStatus_wantsRun (x := x) (p := p) bPresent
    have same : v.presentCutter = (storeStatus n ⟨x, .cutter p⟩ b).presentCutter := by rw [taken]; rfl
    rw [← bStanding, ← stored]
    simp only [State.wantsRun, State.demandShown, same, standing, storeStatus_conv]
  have cRest : (subEvent (fun s => takeEntry n s (.status ⟨x, .cutter p⟩)) b).rest = v.rest := by rw [rest_subEvent, hv]
  have cConv := subEvent_convSynced (f := fun s => takeEntry n s (.status ⟨x, .cutter p⟩)) (s := b) (by rw [hv]; exact vRole)
  rw [hv, vWants, vInputs, vImage, vConv, bConv] at cConv
  generalize subEvent (fun s => takeEntry n s (.status ⟨x, .cutter p⟩)) b = c at cRest cConv next
  have cLive : c.live = true := by
    rw [live_of_rest cRest, taken]
    exact (storeStatus_live _ _ _).trans ((live_of_rest bRest).trans ((acceptFrame_live n s).trans (live_of_hears hears)))
  refine ⟨_, l₁, v.chainLoaded, c.chainLoaded, next, ?_⟩
  rw [finish_convSynced cLive ((isRole_of_rest cRest _).trans vRole), cConv, wantsRun_of_rest cRest, vWants,
    inputs_of_rest cRest, vInputs, image_of_rest cRest, vImage]

/-! ## The sequence (R71, R72) -/

/-- An event that takes the sequence into a state which the sequencer then leaves as it is: its time runs. -/
theorem sequence_enters {s : State} {f : State → State} {st : ConvState} (live : s.live = true)
    (role : s.isRole .conveyor = true) (acts : f s = convEnter st s)
    (stays : ∀ demand, st.follows demand s.inputs.i0 s.inputs.i1 = st) :
    ∃ t, event f s = .next t ∧ t.conv.state = st ∧ t.rest = s.rest ∧
      t.conv.warning = (if st = .warning then some Config.warning else none) ∧
      t.conv.beltWindow = (if st = .beltStarting then some Config.beltWindow else none) := by
  obtain ⟨t, next, rest, synced⟩ := convEvent_next live role (acts.trans (convEnter_eq _ _))
  obtain ⟨warning, belt, -, -⟩ := convSynced_stays (s.conv.enters st (sec s.image.runOff)) t.wantsRun s.inputs.i0 s.inputs.i1
    t.chainLoaded (sec s.image.runOff) (stays _)
  refine ⟨t, next, ?_, rest.trans (rest_withConv role _ rfl), ?_, ?_⟩
  · rw [synced, convSynced_state]; exact stays _
  · rw [synced, warning]; rfl
  · rw [synced, belt]; rfl

/-- A change of a proof input, with run demand as it stood. -/
theorem proofChange_conv {s : State} (live : s.live = true) (role : s.isRole .conveyor = true) (k : Fin 4) (b : Bool) :
    ∃ t loaded, event (takeInput .conveyor k b id) s = .next t ∧ t.rest = (s.withInput k b).rest ∧
      t.conv = s.conv.synced s.wantsRun (s.inputs.set k b).i0 (s.inputs.set k b).i1 loaded (sec s.image.runOff) := by
  obtain ⟨t, next, rest, synced⟩ := inputChange_conv live role k b
  have wants : t.wantsRun = s.wantsRun := (wantsRun_of_rest rest).trans (wantsRun_congr (by simp) (by simp) (by simp))
  exact ⟨t, t.chainLoaded, next, rest, by rw [synced, wants]⟩

theorem runOffExpires_eq {s : State} (role : s.isRole .conveyor = true) (h : s.conv.state = .runOff) :
    runOffExpires s = convEnter .stopped s := by simp [runOffExpires, role, h]

theorem warningExpires_eq {s : State} (role : s.isRole .conveyor = true) (h : s.conv.state = .warning) :
    warningExpires s = convEnter .beltStarting s := by simp [warningExpires, role, h]

theorem follows_beltStarting (demand chain : Bool) : ConvState.follows .beltStarting demand false chain = .beltStarting := by
  cases demand <;> cases chain <;> rfl

theorem follows_stopped (demand belt chain : Bool) :
    ConvState.follows .stopped demand belt chain = if demand then .warning else .stopped := by
  cases demand <;> cases chain <;> rfl

/-- RUNNING keeps the belt's run, with or without run demand. -/
theorem follows_running (demand belt chain : Bool) :
    ConvState.follows .running demand belt chain = if demand then .running else .runOff := by
  cases demand <;> cases chain <;> rfl

/-- The sequencer through a STATE frame that changes run demand: it follows the demand held, then twice the new one. -/
def Conveyor.afterStatus (u : Conveyor) (p : CutterPart) (demand belt chain l₁ l₂ l₃ : Bool) (runOff : Ticks) : Conveyor :=
  (((u.synced u.runDemand belt chain l₁ runOff).takesCutter p true).synced demand belt chain l₂ runOff).synced
    demand belt chain l₃ runOff

section
variable {u : Conveyor} {p : CutterPart} {demand belt chain l₁ l₂ l₃ : Bool} {runOff : Ticks}

theorem afterStatus_state : (u.afterStatus p demand belt chain l₁ l₂ l₃ runOff).state =
    ((u.state.follows u.runDemand belt chain).follows demand belt chain).follows demand belt chain := by
  simp only [Conveyor.afterStatus, convSynced_state, (takesCutter_sequence _ _ _).1]

/-- Where the demand held keeps the state, the new one enters another, and that one stays, its time runs. -/
theorem afterStatus_enters {st : ConvState} (stays : u.state.follows u.runDemand belt chain = u.state)
    (goes : u.state.follows demand belt chain = st) (other : st ≠ u.state) (last : st.follows demand belt chain = st) :
    let v := u.afterStatus p demand belt chain l₁ l₂ l₃ runOff
    v.state = st ∧ v.warning = (if st = .warning then some Config.warning else none) ∧
      v.chainWindow = (if st = .chainStarting then some Config.chainWindow else none) ∧
      v.runOff = (if st = .runOff then some runOff else none) := by
  have state : ((u.synced u.runDemand belt chain l₁ runOff).takesCutter p true).state = u.state := by
    rw [(takesCutter_sequence _ _ _).1, convSynced_state, stays]
  obtain ⟨warning, -, chainWindow, ranOff⟩ := convSynced_enters
    ((u.synced u.runDemand belt chain l₁ runOff).takesCutter p true) demand belt chain l₂ runOff (by rw [state, goes])
    (by rw [state]; exact other)
  obtain ⟨warning', -, chainWindow', ranOff'⟩ := convSynced_stays
    (((u.synced u.runDemand belt chain l₁ runOff).takesCutter p true).synced demand belt chain l₂ runOff)
    demand belt chain l₃ runOff (by rw [convSynced_state, state, goes, last])
  refine ⟨by rw [afterStatus_state, stays, goes, last], warning'.trans warning, chainWindow'.trans chainWindow,
    ranOff'.trans ranOff⟩

/-- Run demand starts the stopped sequence by its warning (R71). -/
theorem afterStatus_starts_stopped (stopped : u.state = .stopped) (idle : u.runDemand = false) (wanted : demand = true) :
    let v := u.afterStatus p demand belt chain l₁ l₂ l₃ runOff
    v.state = .warning ∧ v.warning = some Config.warning := by
  obtain ⟨state, warning, -, -⟩ := afterStatus_enters (st := .warning) (u := u) (p := p) (demand := demand) (belt := belt)
    (chain := chain) (l₁ := l₁) (l₂ := l₂) (l₃ := l₃) (runOff := runOff) (by rw [stopped, idle]; exact follows_stopped _ _ _)
    (by rw [stopped, wanted]; exact follows_stopped _ _ _) (by simp [stopped]) (by rw [wanted]; rfl)
  exact ⟨state, warning⟩

/-- Run demand lost in RUNNING lets the belt run off (R72). -/
theorem afterStatus_stops (running : u.state = .running) (wanted : u.runDemand = true) (idle : demand = false) :
    let v := u.afterStatus p demand belt chain l₁ l₂ l₃ runOff
    v.state = .runOff ∧ v.runOff = some runOff := by
  obtain ⟨state, -, -, time⟩ := afterStatus_enters (st := .runOff) (u := u) (p := p) (demand := demand) (belt := belt)
    (chain := chain) (l₁ := l₁) (l₂ := l₂) (l₃ := l₃) (runOff := runOff) (by rw [running, wanted]; exact follows_running _ _ _)
    (by rw [running, idle]; exact follows_running _ _ _) (by simp [running]) (by rw [idle]; rfl)
  exact ⟨state, time⟩

/-- Run demand again while the belt runs off starts the chain, and proof of it ends that at once (R72). -/
theorem afterStatus_resumes (ranOff : u.state = .runOff) (idle : u.runDemand = false) (wanted : demand = true) :
    let v := u.afterStatus p demand belt chain l₁ l₂ l₃ runOff
    v.runOff = none ∧
      if chain then v.state = .running else v.state = .chainStarting ∧ v.chainWindow = some Config.chainWindow := by
  have stays : u.state.follows u.runDemand belt chain = u.state := by rw [ranOff, idle]; cases chain <;> rfl
  cases chain with
  | true =>
    obtain ⟨state, -, -, time⟩ := afterStatus_enters (st := .running) (p := p) (demand := demand) (l₁ := l₁) (l₂ := l₂) (l₃ := l₃)
      (runOff := runOff) stays (by rw [ranOff, wanted]; rfl) (by simp [ranOff]) (by rw [wanted]; rfl)
    exact ⟨time, state⟩
  | false =>
    obtain ⟨state, -, window, time⟩ := afterStatus_enters (st := .chainStarting) (p := p) (demand := demand)
      (l₁ := l₁) (l₂ := l₂) (l₃ := l₃)
      (runOff := runOff) stays (by rw [ranOff, wanted]; rfl) (by simp [ranOff]) (by rw [wanted]; rfl)
    exact ⟨time, state, window⟩

end

/-- Settles O51: the good answer by the meaning of its entry, the sequence by its times and proof, and by the run demand that
the CUTTER's STATUS brings. -/
theorem conveyorStartsAndStopsInSequence : Obligations.ConveyorStartsAndStopsInSequence := by
  intro s live role
  refine ⟨?_, ?_, ?_, ?_, ?_, ?_, ?_⟩
  · intro e high low b parity polled check valid good
    obtain ⟨sensor, claim, handed, held⟩ := takeCharacter_held polled check valid good
    exact ⟨_, (event_live live).trans (congrArg (Host.Outcome.next <| finish s ·) handed),
      answer_conv (s := { s with sensor := sensor, claim := claim }) _ live role held⟩
  · intro warning unproved
    obtain ⟨t, next, state, rest, noWarning, belt⟩ := sequence_enters live role (warningExpires_eq role warning)
      fun demand => by rw [unproved]; exact follows_beltStarting demand _
    exact ⟨t, next, state, belt, noWarning, rest⟩
  · intro starting unproved
    obtain ⟨t, loaded, next, rest, synced⟩ := proofChange_conv live role 0 true
    have goes : s.conv.state.follows s.wantsRun true s.inputs.i1 = .chainStarting := by
      rw [starting, unproved]; cases s.wantsRun <;> rfl
    obtain ⟨-, belt, chain, -⟩ := convSynced_enters s.conv s.wantsRun true s.inputs.i1 loaded (sec s.image.runOff) goes
      (by simp [starting])
    refine ⟨t, next, ?_, ?_, ?_, rest⟩
    · rw [synced, convSynced_state]; exact goes
    · rw [synced]; exact chain
    · rw [synced]; exact belt
  · intro starting wants
    obtain ⟨t, loaded, next, rest, synced⟩ := proofChange_conv live role 1 true
    have goes : s.conv.state.follows s.wantsRun s.inputs.i0 true = .running := by rw [starting, wants]; rfl
    obtain ⟨-, -, chain, -⟩ := convSynced_enters s.conv s.wantsRun s.inputs.i0 true loaded (sec s.image.runOff) goes
      (by simp [starting])
    refine ⟨t, next, ?_, ?_, rest⟩
    · rw [synced, convSynced_state]; exact goes
    · rw [synced]; exact chain
  · intro runOff
    obtain ⟨t, next, rest, synced⟩ := convEvent_next live role ((runOffExpires_eq role runOff).trans (convEnter_eq _ _))
    have same : t.rest = s.rest := rest.trans (rest_withConv role _ rfl)
    have state : t.conv.state = if s.wantsRun then .warning else .stopped := by
      rw [synced, convSynced_state, wantsRun_of_rest same]; exact follows_stopped _ _ _
    refine ⟨t, next, state, ?_, same⟩
    rw [synced]
    cases wants : t.wantsRun with
    | false => exact (convSynced_stays _ _ _ _ _ _ (follows_stopped false _ _)).2.2.2
    | true => exact (convSynced_enters _ _ _ _ _ _ (st := .warning) (follows_stopped true _ _) (by simp [Conveyor.enters])).2.2.2
  · intro running proved
    obtain ⟨t, loaded, next, rest, synced⟩ := proofChange_conv live role 0 false
    refine ⟨t, next, ?_, rest⟩
    rw [synced, convSynced_beltLoss, running, follows_running]
    cases s.wantsRun <;> rfl
  · intro n x p h hears other cutter present demand wants
    obtain ⟨t, l₁, l₂, l₃, next, synced⟩ := cutterStatus_conv (x := x) (p := p)
      (by simp [State.hears, live, hears]) role other cutter present
    rw [demand] at synced
    have after : t.conv = s.conv.afterStatus p wants s.inputs.i0 s.inputs.i1 l₁ l₂ l₃ (sec s.image.runOff) := synced
    have demanded : t.conv.runDemand = wants := by rw [synced]; exact convSynced_runDemand _ _ _ _ _ _
    exact ⟨t, next, demanded, after ▸ afterStatus_starts_stopped, after ▸ afterStatus_stops, after ▸ afterStatus_resumes,
      fun fault => by rw [after, afterStatus_state, fault, follows_fault, follows_fault, follows_fault]⟩

end Sys2Proof.Machine
end

section
/-! A CLAIM taken (R152, R153, R158, R159): the frame heard, the CLAIM's act by line state, and the sender's records discarded. -/

namespace Sys2Proof.Machine

/-! ## The frame heard -/

/-- The own CLAIM reads role, serial, image, joining mark and ready flag. -/
theorem ownClaim_congr {s t : State} (image : t.image = s.image) (station : t.station = s.station) (serial : t.serial = s.serial)
    (joining : t.claim.joining = s.claim.joining) (sensor : t.sensor = s.sensor) : ownClaim t = ownClaim s := by
  simp only [ownClaim, State.roleByte, State.role, State.cfg, image, station, serial, joining, sensor]

@[simp] theorem noteEarly_sensor (pre s : State) : (noteEarly pre s).sensor = s.sensor := by rw [noteEarly_eq]

@[simp] theorem heard_ownClaim (pre : State) (n : Station) (s : State) :
    ownClaim (noteEarly pre (acceptFrame n s)) = ownClaim s :=
  ownClaim_congr (by simp) (by simp) (by simp) (by simp) (by simp)

@[simp] theorem acceptFrame_ownSent (n : Station) (s : State) : (acceptFrame n s).claim.ownSent = s.claim.ownSent := by
  rw [acceptFrame_eq]

theorem heard_serialChanged (pre : State) (n : Station) (s : State) (c : ClaimFrame) :
    (noteEarly pre (acceptFrame n s)).serialChanged n c = s.serialChanged n c := by
  have entry : (noteEarly pre (acceptFrame n s)).entry n = (acceptFrame n s).entry n := by
    simp only [State.entry, noteEarly_claim]
  rw [State.serialChanged, entry, acceptFrame_entry, State.serialChanged]
  split
  · rw [Option.map_map]
    congr 2
    funext e
    simp only [Function.comp_apply]; split <;> rfl
  · rfl

/-- A CLAIM frame heard: what it does, and what follows. -/
theorem claimTaken_next {s : State} (n : Station) (c : ClaimFrame) (hears : s.hears = true) : exec (.claimTaken n c.bytes) s =
    .next (finish s (takeClaim n c (noteEarly s (acceptFrame n s)))) := by
  have fits : payloadFits .claim c.bytes = true := by simp [payloadFits, ClaimFrame.bytes, be16, be32, FrameClass.minLength]
  show event (takeFrame .claim n c.bytes (takeClaimPayload n c.bytes)) s = _
  rw [takeFrame_hears hears fits, takeClaimPayload, readClaim_bytes]

/-- RUN and QUIET stay among themselves as a frame is heard. -/
theorem acceptFrame_runs {s : State} (n : Station) (h : s.line.state = .run ∨ s.line.state = .quiet) :
    (acceptFrame n s).line.state = .run ∨ (acceptFrame n s).line.state = .quiet := by
  rcases acceptFrame_state n s with same | ⟨-, runs⟩
  · rw [same]; exact h
  · exact runs

/-- Every other line state stays as a frame is heard. -/
theorem acceptFrame_stays {s : State} (n : Station) {st : LineState} (h : s.line.state = st) (run : st ≠ .run)
    (quiet : st ≠ .quiet) : (acceptFrame n s).line.state = st := by
  rcases acceptFrame_state n s with same | ⟨runs, -⟩
  · exact same.trans h
  · rw [h] at runs; exact absurd runs (not_or.2 ⟨run, quiet⟩)

/-! ## The act by line state -/

/-- What a CLAIM of another number does, once the sender's records are discarded where they are. -/
def claimActs (n : Station) (c : ClaimFrame) (s : State) : State :=
  match s.line.state with
  | .run | .quiet => enterClaim (some (n, c)) s
  | .claiming => startWindow (if c.joining && (enterCandidate n c s).claim.ownSent then queueClaim (enterCandidate n c s)
      else enterCandidate n c s)
  | .withdrawn => withdrawnTakes n c s
  | _ => s

theorem takeClaim_other {s : State} {n : Station} (c : ClaimFrame) (other : n ≠ s.station) : takeClaim n c s =
    claimActs n c (if c.joining || s.serialChanged n c then discardRecords n s else s) := by
  unfold takeClaim; rw [if_neg other]; rfl

theorem claimActs_runs {s : State} (n : Station) (c : ClaimFrame) (h : s.line.state = .run ∨ s.line.state = .quiet) :
    claimActs n c s = enterClaim (some (n, c)) s := by
  unfold claimActs; rcases h with h | h <;> rw [h]

theorem takeOwnNumber_runs {s : State} {c : ClaimFrame} (value : ¬claimValue c.role c.serial < claimValue s.roleByte s.serial)
    (h : s.line.state = .run ∨ s.line.state = .quiet) : takeOwnNumber c s = enterClaim none s := by
  unfold takeOwnNumber; rw [if_neg value]; rcases h with h | h <;> rw [h]

/-- The candidate a CLAIM makes of another (R152): a new entry, one of the same serial, or one of a smaller value takes the
sender's place. -/
def candidateTakes (n : Station) (c : ClaimFrame) (cand : Tbl (Option CandEntry) 8) : Tbl (Option CandEntry) 8 :=
  match cand.get n with
  | none => cand.set n (some (candOf c))
  | some e =>
    if e.serial = c.serial ∨ claimValue c.role c.serial < claimValue e.role e.serial then cand.set n (some (candOf c)) else cand

theorem enterCandidate_eq {s : State} (n : Station) (c : ClaimFrame) {cand : Tbl (Option CandEntry) 8}
    (h : s.claim.candidate = some cand) :
    enterCandidate n c s = s.withClaim fun u => { u with candidate := some (candidateTakes n c cand) } := by
  have same : s = s.withClaim fun u => { u with candidate := some cand } := by simp only [State.withClaim, ← h]
  unfold enterCandidate candidateTakes; rw [h]; dsimp only
  cases held : cand.get n with
  | none => rfl
  | some e =>
    by_cases serial : e.serial = c.serial
    · simp [serial]
    · by_cases value : claimValue e.role e.serial ≤ claimValue c.role c.serial
      · simpa only [serial, value, not_lt.2 value, bne_iff_ne, ne_eq, not_false_eq_true, decide_true, Bool.and_true, if_true,
          or_self, if_false] using same
      · simp [serial, value, not_le.1 value]

/-- The entry to CLAIMING by a CLAIM of another number: its entry stands in the candidate beside the own (R149). -/
theorem enterClaim_some {s : State} {n : Station} (c : ClaimFrame) (other : n ≠ s.station) :
    enterClaim (some (n, c)) s = { s with
      line := { s.line with state := .claiming, claim := some (ownClaim s) }
      ring := (commitLot s).ring
      claim := { s.claim with
        candidate := some (((Tbl.fill 8 none).set s.station (some (candOf (ownClaim s)))).set n (some (candOf c)))
        watch := none, ownSent := false, window := some Config.claimWindow } } := by
  let own := (Tbl.fill 8 none).set s.station (some (candOf (ownClaim s)))
  have absent : own.get n = none := by rw [Tbl.get_set_ne _ _ other]; simp
  have takes : candidateTakes n c own = own.set n (some (candOf c)) := by unfold candidateTakes; rw [absent]
  have entered : enterClaim (some (n, c)) s = startWindow (queueClaim (enterCandidate n c { s with
      line := { s.line with state := .claiming }
      ring := (commitLot s).ring
      claim := { s.claim with candidate := some own, watch := none, ownSent := false } })) := rfl
  rw [entered, enterCandidate_eq n c rfl, takes]; rfl

end Sys2Proof.Machine
end

section
/-! The sender's records discarded by a joining mark or a changed serial (R158), which no further act of the CLAIM touches. -/

namespace Sys2Proof.Machine

/-! ## What is discarded, by role -/

/-- What R158 may change: the sender's replica, its ready flag, and the records of the units. -/
theorem discardRecords_eq (n : Station) (s : State) : discardRecords n s = { s with
    replicas := s.replicas.set n .empty
    claim := { s.claim with roster := (discardRecords n s).claim.roster }
    cabMap := (discardRecords n s).cabMap
    panel := (discardRecords n s).panel
    conv := (discardRecords n s).conv
    ring := (discardRecords n s).ring
    face := (discardRecords n s).face
    pub := (discardRecords n s).pub } := by
  unfold discardRecords discardLots
  dsimp only; repeat' split
  any_goals rw [setTagRange_eq]
  all_goals rfl

theorem discardRecords_ownClaim (n : Station) (s : State) : ownClaim (discardRecords n s) = ownClaim s := by
  apply ownClaim_congr <;> rw [discardRecords_eq]

/-- The state whose units R158 changes: the replica emptied, the ready flag unknown. -/
def replicaGone (n : Station) (s : State) : State :=
  let s := { s with replicas := s.replicas.set n .empty }
  match s.entry n with
  | some e =>
    if n != s.station then s.withClaim fun u => { u with roster := u.roster.set n (some { e with ready := none }) } else s
  | none => s

theorem replicaGone_eq (n : Station) (s : State) : replicaGone n s = { s with
    replicas := s.replicas.set n .empty, claim := { s.claim with roster := (replicaGone n s).claim.roster } } := by
  unfold replicaGone; dsimp only; repeat' split
  all_goals rfl

theorem replicaGone_role (n : Station) (s : State) : (replicaGone n s).role = s.role := by rw [replicaGone_eq]; rfl
theorem replicaGone_roleOf (n m : Station) (s : State) : (replicaGone n s).roleOf m = s.roleOf m := by rw [replicaGone_eq]; rfl

/-- The records that R158 names, by the roles of the station and of the sender. -/
theorem discardRecords_units (n : Station) (s : State) : discardRecords n s =
    match s.role, s.roleOf n with
    | some .cab, r =>
      let v := { replicaGone n s with cabMap := { (replicaGone n s).cabMap with
        retires := (replicaGone n s).cabMap.retires.filter fun x => x.1 != n } }
      if r == some .cutter then
        { v with cabMap := { v.cabMap with held := true }, panel := { v.panel with tagFirst := false } }
      else v
    | some .conveyor, some .cutter => discardLots (replicaGone n s)
    | some .cutter, some .conveyor => { replicaGone n s with ring := { (replicaGone n s).ring with resync := true } }
    | some .cutter, some .cab =>
      match (replicaGone n s).boundRecord n with
      | some i => setTagRange i .none (replicaGone n s)
      | none => replicaGone n s
    | _, _ => replicaGone n s := by
  rw [← replicaGone_role n s, ← replicaGone_roleOf n n s]; rfl

section
variable {s : State} (n : Station)

/-- A CAB keeps the rows, loses the sender's RETIRE entries, and holds the map of a CUTTER that is gone (R118, R173). -/
theorem discardRecords_cab (role : s.isRole .cab = true) : (discardRecords n s).cabMap.rows = s.cabMap.rows ∧
    (discardRecords n s).cabMap.retires = s.cabMap.retires.filter (·.1 != n) ∧
    (s.roleOf n = some .cutter → (discardRecords n s).cabMap.held = true ∧ (discardRecords n s).panel.tagFirst = false) := by
  have cabMap : (replicaGone n s).cabMap = s.cabMap := by rw [replicaGone_eq]
  rw [discardRecords_units, role_of_isRole role]
  dsimp only
  rw [cabMap]
  by_cases cutter : s.roleOf n = some .cutter
  · simp [cutter]
  · simp [cutter]

/-- The conveyor keeps its RETIRE entries and the resync mark, and loses the lot records of a CUTTER that is gone (R89). -/
theorem discardRecords_conveyor (role : s.isRole .conveyor = true) : (discardRecords n s).conv.retires = s.conv.retires ∧
    (discardRecords n s).conv.resync = s.conv.resync ∧
    (s.roleOf n = some .cutter → (discardRecords n s).conv.records = [] ∧ (discardRecords n s).conv.taken = 0 ∧
      (discardRecords n s).conv.retired = 0 ∧ (discardRecords n s).conv.windowOpen = false) := by
  have conv : (replicaGone n s).conv = s.conv := by rw [replicaGone_eq]
  rw [discardRecords_units, role_of_isRole role]
  cases sender : s.roleOf n with
  | none => simp [conv]
  | some q => cases q <;> simp [discardLots, conv]

theorem discardRecords_resync (role : s.isRole .cutter = true) (conveyor : s.roleOf n = some .conveyor) :
    (discardRecords n s).ring.resync = true := by
  rw [discardRecords_units, role_of_isRole role, conveyor]

/-- The range record bound to a CAB that is gone is emptied, and stays bound (R8). -/
theorem discardRecords_tag (role : s.isRole .cutter = true) (cab : s.roleOf n = some .cab) {i : Fin 2}
    (bound : s.boundRecord n = some i) : (discardRecords n s).face.tags.get i = { bound := some n, range := .none } := by
  have face : (replicaGone n s).face = s.face := by rw [replicaGone_eq]
  have same : (replicaGone n s).boundRecord n = some i := by rw [← bound]; simp only [State.boundRecord, face]
  have own : (s.face.tags.get i).bound = some n := by simpa using List.find?_some bound
  rw [discardRecords_units, role_of_isRole role, cab]
  simp [same, face, own]

end

/-! ## What the rest of the CLAIM's act leaves -/

/-- The records of R158 are the same in both. -/
structure KeepsRecords (s t : State) : Prop where
  replicas : t.replicas = s.replicas
  cabMap : t.cabMap = s.cabMap
  face : t.face = s.face
  tagFirst : t.panel.tagFirst = s.panel.tagFirst
  records : t.conv.records = s.conv.records
  taken : t.conv.taken = s.conv.taken
  retired : t.conv.retired = s.conv.retired
  windowOpen : t.conv.windowOpen = s.conv.windowOpen
  retires : t.conv.retires = s.conv.retires
  resync : t.conv.resync = s.conv.resync
  ringResync : t.ring.resync = s.ring.resync

theorem KeepsRecords.refl (s : State) : KeepsRecords s s := by constructor <;> rfl

theorem KeepsRecords.trans {s t u : State} (h : KeepsRecords s t) (g : KeepsRecords t u) : KeepsRecords s u where
  replicas := g.replicas.trans h.replicas
  cabMap := g.cabMap.trans h.cabMap
  face := g.face.trans h.face
  tagFirst := g.tagFirst.trans h.tagFirst
  records := g.records.trans h.records
  taken := g.taken.trans h.taken
  retired := g.retired.trans h.retired
  windowOpen := g.windowOpen.trans h.windowOpen
  retires := g.retires.trans h.retires
  resync := g.resync.trans h.resync
  ringResync := g.ringResync.trans h.ringResync

theorem ringResync_of_rest {s t : State} (h : t.rest = s.rest) : t.ring.resync = s.ring.resync :=
  show t.ring.rest.resync = s.ring.rest.resync by rw [ring_of_rest h]

theorem tagFirst_of_rest {s t : State} (h : t.rest = s.rest) : t.panel.tagFirst = s.panel.tagFirst :=
  congrArg (·.tagFirst) (panel_of_rest h)

theorem KeepsRecords.of_rest {s t : State} (h : t.rest = s.rest) : KeepsRecords s t where
  replicas := replicas_of_rest h
  cabMap := cabMap_of_rest h
  face := face_of_rest h
  tagFirst := tagFirst_of_rest h
  records := convRecords_of_rest h
  taken := convTaken_of_rest h
  retired := convRetired_of_rest h
  windowOpen := convWindowOpen_of_rest h
  retires := retires_of_rest h
  resync := convResync_of_rest h
  ringResync := ringResync_of_rest h

theorem keepsRecords_enterCandidate (n : Station) (c : ClaimFrame) (s : State) : KeepsRecords s (enterCandidate n c s) := by
  unfold enterCandidate; dsimp only; repeat' split
  all_goals constructor <;> rfl

theorem keepsRecords_applyReasons {s : State} (h : s.isRole .cutter = true) : KeepsRecords s (applyReasons s) :=
  .of_rest (rest_applyReasons h)

theorem keepsRecords_enterInactive (cause : InactiveCause) (s : State) : KeepsRecords s (enterInactive cause s) := by
  unfold enterInactive; dsimp only; split
  · rename_i role
    exact .trans (by constructor <;> rfl) (keepsRecords_applyReasons role)
  · constructor <;> rfl

theorem keepsRecords_claimActs {n : Station} {s : State} (c : ClaimFrame) (other : n ≠ s.station) :
    KeepsRecords s (claimActs n c s) := by
  unfold claimActs
  split
  · rw [enterClaim_some c other]; constructor <;> rfl
  · rw [enterClaim_some c other]; constructor <;> rfl
  · refine (keepsRecords_enterCandidate n c s).trans ?_
    split <;> constructor <;> rfl
  · unfold withdrawnTakes; dsimp only
    split
    · refine .trans ?_ (keepsRecords_enterInactive .role _)
      constructor <;> rfl
    · constructor <;> rfl
  · exact .refl s

end Sys2Proof.Machine
end

section
/-! The cases of a CLAIM taken: own number, CLAIMING, WITHDRAWN, records discarded. -/

namespace Sys2Proof.Machine

/-! ## Entry to INACTIVE -/

theorem enterInactive_slots (cause : InactiveCause) (s : State) :
    (enterInactive cause s).line.claim = none ∧ (enterInactive cause s).line.sending = none := by
  unfold enterInactive; dsimp only; split
  · rw [applyReasons_line]; exact ⟨rfl, rfl⟩
  · exact ⟨rfl, rfl⟩

theorem finish_notLive {pre s : State} (h : s.live = false) : finish pre s = statusSync s := by
  unfold finish; rw [h]; rfl

theorem statusSync_line (s : State) : (statusSync s).line = s.line := by unfold statusSync; split <;> rfl

theorem outputs_notLive {s : State} (h : s.live = false) : s.outputs = (false, false, false, false) := by
  unfold State.outputs; rw [h]; rfl

/-- An event that enters INACTIVE ends with its cause shown, every slot empty and no output. -/
theorem finish_enterInactive (pre : State) (cause : InactiveCause) (s : State) :
    (finish pre (enterInactive cause s)).line.state = .inactive ∧
      (finish pre (enterInactive cause s)).line.cause = some cause ∧
      (finish pre (enterInactive cause s)).line.claim = none ∧ (finish pre (enterInactive cause s)).line.sending = none ∧
      (finish pre (enterInactive cause s)).outputs = (false, false, false, false) ∧
      (finish pre (enterInactive cause s)).status.code = (match cause with | .duplicate => 7 | .role => 8 | _ => 6) := by
  obtain ⟨state, shown⟩ := enterInactive_line cause s
  obtain ⟨claim, sending⟩ := enterInactive_slots cause s
  have line : (finish pre (enterInactive cause s)).line = (enterInactive cause s).line := by
    rw [finish_notLive (by rw [State.live, state]; rfl), statusSync_line]
  have code := finish_statusSound pre (enterInactive cause s)
  rw [State.StatusSound, State.statusCode, line, state, shown] at code
  rw [line]
  refine ⟨state, shown, claim, sending, outputs_notLive (by rw [State.live, line, state]; rfl), ?_⟩
  rw [code]; cases cause <;> rfl

/-! ## The own number (R153) -/

section
variable {s : State} {c : ClaimFrame} (value : ¬claimValue c.role c.serial < claimValue s.roleByte s.serial)
include value

theorem takeOwnNumber_claiming (h : s.line.state = .claiming) :
    takeOwnNumber c s = startWindow (if s.claim.ownSent then queueClaim s else s) := by
  unfold takeOwnNumber; rw [if_neg value, h]

theorem takeOwnNumber_none (run : s.line.state ≠ .run) (quiet : s.line.state ≠ .quiet) (claiming : s.line.state ≠ .claiming) :
    takeOwnNumber c s = s := by
  unfold takeOwnNumber; rw [if_neg value]
  cases state : s.line.state with
  | run => exact absurd state run
  | quiet => exact absurd state quiet
  | claiming => exact absurd state claiming
  | _ => rfl

end

@[simp] theorem heard_roleByte (pre : State) (n : Station) (s : State) :
    (noteEarly pre (acceptFrame n s)).roleByte = s.roleByte := by simp [State.roleByte, State.role, State.cfg]

theorem ownNumber_next {s : State} {c : ClaimFrame} (hears : s.hears = true) : exec (.claimTaken s.station c.bytes) s =
    .next (finish s (takeOwnNumber c (noteEarly s (acceptFrame s.station s)))) := by
  rw [claimTaken_next _ c hears, takeClaim, if_pos (by simp)]

/-- A CLAIM of the own number whose value is no smaller, by line state. -/
theorem ownNumber_taken {s : State} {c : ClaimFrame} (hears : s.hears = true)
    (value : claimValue s.roleByte s.serial ≤ claimValue c.role c.serial) :
    ∃ t, exec (.claimTaken s.station c.bytes) s = .next t ∧ t.replicas = s.replicas ∧
      match s.line.state with
      | .run | .quiet => t.line.state = .claiming ∧ t.claim.window = some (ms 100) ∧ t.line.claim = some (ownClaim s) ∧
          t.claim.candidate = some ((Tbl.fill 8 none).set s.station (some (candOf (ownClaim s))))
      | .claiming => t.line.state = .claiming ∧ t.claim.candidate = s.claim.candidate ∧ t.claim.window = some (ms 100) ∧
          t.line.claim = if s.claim.ownSent then some (ownClaim s) else s.line.claim
      | _ => t.rest = (acceptFrame s.station s).rest := by
  have heard : ¬claimValue c.role c.serial < claimValue (noteEarly s (acceptFrame s.station s)).roleByte
      (noteEarly s (acceptFrame s.station s)).serial := by simpa using value
  have runs (h : s.line.state = .run ∨ s.line.state = .quiet) :
      takeOwnNumber c (noteEarly s (acceptFrame s.station s)) = enterClaim none (noteEarly s (acceptFrame s.station s)) :=
    takeOwnNumber_runs heard (by simpa using acceptFrame_runs _ h)
  refine ⟨_, ownNumber_next hears, ?_⟩
  cases state : s.line.state with
  | run => simp [runs (.inl state), enterClaim_none, Config.claimWindow]
  | quiet => simp [runs (.inr state), enterClaim_none, Config.claimWindow]
  | claiming =>
    have same := acceptFrame_claiming s.station state
    rw [takeOwnNumber_claiming heard (by simpa using same)]
    cases sent : s.claim.ownSent <;> simp [sent, same, startWindow, queueClaim, Config.claimWindow]
  | _ =>
    have same := acceptFrame_stays s.station state nofun nofun
    rw [takeOwnNumber_none heard (by simp [same]) (by simp [same]) (by simp [same])]
    simp

/-! ## CLAIMING (R152) -/

/-- A CLAIM of another number in CLAIMING: the candidate, the window, and the own CLAIM again at a joining mark. -/
theorem claimActs_claiming {s : State} (n : Station) (c : ClaimFrame) {cand : Tbl (Option CandEntry) 8}
    (state : s.line.state = .claiming) (held : s.claim.candidate = some cand) :
    (claimActs n c s).line.state = .claiming ∧ (claimActs n c s).claim.window = some Config.claimWindow ∧
      (claimActs n c s).line.claim =
        (if c.joining = true ∧ s.claim.ownSent = true then some (ownClaim s) else s.line.claim) ∧
      (claimActs n c s).claim.candidate = some (candidateTakes n c cand) := by
  have acts : claimActs n c s = startWindow (if c.joining && (enterCandidate n c s).claim.ownSent
      then queueClaim (enterCandidate n c s) else enterCandidate n c s) := by unfold claimActs; rw [state]
  rw [acts, enterCandidate_eq n c held, State.withClaim_claim]
  by_cases again : c.joining = true ∧ s.claim.ownSent = true
  · simp only [again, Bool.and_self, if_true, and_self]
    exact ⟨state, rfl, rfl, rfl⟩
  · have once : (c.joining && s.claim.ownSent) = false := by rw [← Bool.not_eq_true, Bool.and_eq_true]; exact again
    simp only [once, if_neg again]
    exact ⟨state, rfl, rfl, rfl⟩

/-- The same with the sender's records discarded first, where they are. -/
theorem takeClaim_claims {s : State} {n : Station} {c : ClaimFrame} (other : n ≠ s.station)
    {cand : Tbl (Option CandEntry) 8} (state : s.line.state = .claiming) (held : s.claim.candidate = some cand) :
    (takeClaim n c s).line.state = .claiming ∧ (takeClaim n c s).claim.window = some Config.claimWindow ∧
      (takeClaim n c s).line.claim =
        (if c.joining = true ∧ s.claim.ownSent = true then some (ownClaim s) else s.line.claim) ∧
      (takeClaim n c s).claim.candidate = some (candidateTakes n c cand) := by
  rw [takeClaim_other c other]
  split
  · have acts := claimActs_claiming (s := discardRecords n s) n c (cand := cand) (by rw [discardRecords_line, state])
      (by rw [discardRecords_eq]; exact held)
    have ownSent : (discardRecords n s).claim.ownSent = s.claim.ownSent := by rw [discardRecords_eq]
    rwa [discardRecords_line, discardRecords_ownClaim, ownSent] at acts
  · exact claimActs_claiming n c state held

theorem claiming_taken {s : State} {n : Station} {c : ClaimFrame} (hears : s.hears = true) (other : n ≠ s.station)
    {cand : Tbl (Option CandEntry) 8} (state : s.line.state = .claiming) (held : s.claim.candidate = some cand) :
    ∃ t, exec (.claimTaken n c.bytes) s = .next t ∧ t.line.state = .claiming ∧ t.claim.window = some (ms 100) ∧
      t.line.claim = (if c.joining = true ∧ s.claim.ownSent = true then some (ownClaim s) else s.line.claim) ∧
      t.claim.candidate = some (candidateTakes n c cand) := by
  refine ⟨_, claimTaken_next n c hears, ?_⟩
  have taken := takeClaim_claims (s := noteEarly s (acceptFrame n s)) (n := n) (c := c) (cand := cand) (by simpa using other)
    (by simpa using acceptFrame_claiming n state) (by simpa using held)
  simp only [heard_ownClaim, noteEarly_claim, noteEarly_line, acceptFrame_ownSent, acceptFrame_claimSlot] at taken
  simp only [finish_lineState, finish_claim, finish_claimSlot]
  exact taken

/-! ## WITHDRAWN (R159) -/

/-- The entry of the sender is made of the CLAIM's fields. -/
theorem withdrawnEntry_sender (n : Station) (c : ClaimFrame) (s : State) :
    ((withdrawnEntry n c s).entry n).map (fun e => (e.role, e.serial, e.signature, e.bid, e.claimedReady)) =
      some (c.role, c.serial, c.signature, readBid c.bid, c.ready) := by
  unfold withdrawnEntry; dsimp only
  split <;> simp [State.entry]

/-- The roster that a WITHDRAWN station makes of a CLAIM: every entry is assessed again. -/
def withdrawnRoster (n : Station) (c : ClaimFrame) (s : State) : Tbl (Option RosterEntry) 8 :=
  (withdrawnEntry n c s).claim.roster.mapIdx fun k e => e.map fun e => reassess (withdrawnEntry n c s) n (Fin.ofNat 8 k) e

theorem withdrawnRoster_noteEarly (pre : State) (n : Station) (c : ClaimFrame) (s : State) :
    withdrawnRoster n c (noteEarly pre s) = withdrawnRoster n c s := by rw [noteEarly_eq]; rfl

/-- The station WITHDRAWN with its roster made anew. -/
def withdrawnTaken (n : Station) (c : ClaimFrame) (s : State) : State :=
  s.withClaim fun u => { u with roster := withdrawnRoster n c s }

theorem withdrawnTakes_eq (n : Station) (c : ClaimFrame) (s : State) : withdrawnTakes n c s =
    if ((withdrawnRoster n c s).get s.station).map (·.state) = some .excluded then enterInactive .role (withdrawnTaken n c s)
    else withdrawnTaken n c s := by
  unfold withdrawnTakes; simp only [beq_iff_eq]; rfl

theorem withdrawn_taken {s : State} {n : Station} {c : ClaimFrame} (hears : s.hears = true) (other : n ≠ s.station)
    (state : s.line.state = .withdrawn) (joins : c.joining = false) (same : s.serialChanged n c = false) :
    if ((withdrawnRoster n c (acceptFrame n s)).get s.station).map (·.state) = some .excluded then
      ∃ t, exec (.claimTaken n c.bytes) s = .next t ∧ t.line.state = .inactive ∧ t.line.cause = some .role ∧ t.status.code = 8
    else ∃ t, exec (.claimTaken n c.bytes) s = .next t ∧ t.line.state = .withdrawn ∧
      t.claim.roster = withdrawnRoster n c (acceptFrame n s) ∧ t.claim.r = s.claim.r ∧ t.pub.timer = s.pub.timer ∧
      t.line.sfc = s.line.sfc := by
  have stays := acceptFrame_stays n state nofun nofun
  have next := claimTaken_next n c hears
  rw [takeClaim_other c (by simpa using other), joins, heard_serialChanged, same, Bool.or_self, if_neg nofun, claimActs,
    noteEarly_line, stays] at next
  simp only [withdrawnTakes_eq] at next
  rw [withdrawnRoster_noteEarly, noteEarly_station,
    acceptFrame_station] at next
  split
  · rename_i excluded
    rw [if_pos excluded] at next
    obtain ⟨inactive, cause, -, -, -, code⟩ := finish_enterInactive s .role (withdrawnTaken n c (noteEarly s (acceptFrame n s)))
    exact ⟨_, next, inactive, cause, code⟩
  · rename_i stands
    rw [if_neg stands] at next
    have roster : (withdrawnTaken n c (noteEarly s (acceptFrame n s))).claim.roster = withdrawnRoster n c (acceptFrame n s) :=
      withdrawnRoster_noteEarly s n c (acceptFrame n s)
    refine ⟨_, next, ?_, by rw [finish_claim, roster], ?_, ?_, ?_⟩
    · simp [withdrawnTaken, stays]
    · simp [withdrawnTaken]
    · rw [finish_pubTimer, noteEarly_eq]; simp [withdrawnTaken]
    · simp [withdrawnTaken]

end Sys2Proof.Machine
end

section
/-! A CLAIM with the joining mark or a changed serial, and the obligation about CLAIMs taken. -/

namespace Sys2Proof.Machine

/-! ## The joining mark and a changed serial (R158, R82, R89, R118) -/

@[simp] theorem heard_roleOf (pre : State) (n m : Station) (s : State) :
    (noteEarly pre (acceptFrame n s)).roleOf m = s.roleOf m := by
  simp [State.roleOf]

@[simp] theorem heard_boundRecord (pre : State) (n m : Station) (s : State) :
    (noteEarly pre (acceptFrame n s)).boundRecord m = s.boundRecord m := by simp [State.boundRecord]

@[simp] theorem noteEarly_cabMap (pre s : State) : (noteEarly pre s).cabMap = s.cabMap := by rw [noteEarly_eq]

section
variable {s : State} {n : Station} {c : ClaimFrame}

/-- The CLAIM acts once the sender's records are gone. -/
theorem discarding_next (hears : s.hears = true) (other : n ≠ s.station)
    (discards : c.joining = true ∨ s.serialChanged n c = true) : exec (.claimTaken n c.bytes) s =
    .next (finish s (claimActs n c (discardRecords n (noteEarly s (acceptFrame n s))))) := by
  rw [claimTaken_next n c hears, takeClaim_other c (by simpa using other), heard_serialChanged,
    if_pos (by simpa using discards)]

/-- What was discarded stands at the end of the event. -/
theorem discarding_keeps (other : n ≠ s.station) : KeepsRecords (discardRecords n (noteEarly s (acceptFrame n s)))
    (finish s (claimActs n c (discardRecords n (noteEarly s (acceptFrame n s))))) := by
  refine .trans (keepsRecords_claimActs c ?_) (.of_rest (finish_rest _ _))
  rw [discardRecords_eq]; simpa using other

/-- In RUN and QUIET it enters CLAIMING, the sender's entry beside the own in the candidate (R149). -/
theorem discarding_claims (other : n ≠ s.station) (runs : s.line.state = .run ∨ s.line.state = .quiet) :
    let t := finish s (claimActs n c (discardRecords n (noteEarly s (acceptFrame n s))))
    t.line.state = .claiming ∧ t.claim.window = some (ms 100) ∧ t.claim.watch = none ∧ t.claim.ownSent = false ∧
      t.line.claim = some (ownClaim s) ∧
      t.claim.candidate = some (((Tbl.fill 8 none).set s.station (some (candOf (ownClaim s)))).set n (some (candOf c))) := by
  have own : ownClaim (discardRecords n (noteEarly s (acceptFrame n s))) = ownClaim s := by
    rw [discardRecords_ownClaim, heard_ownClaim]
  have station : (discardRecords n (noteEarly s (acceptFrame n s))).station = s.station := by
    rw [discardRecords_eq]; simp
  have running : (discardRecords n (noteEarly s (acceptFrame n s))).line.state = .run ∨
      (discardRecords n (noteEarly s (acceptFrame n s))).line.state = .quiet := by
    rw [discardRecords_line, noteEarly_line]; exact acceptFrame_runs n runs
  generalize discardRecords n (noteEarly s (acceptFrame n s)) = v at own station running
  rw [claimActs_runs n c running, enterClaim_some c (by rw [station]; exact other), own, station]
  simp only [finish_lineState, finish_claim, finish_claimSlot, and_self, and_true, true_and]
  rfl

end

/-- Settles O24, by the sender's number and the line state; what the joining mark discards is kept by the CLAIM's further act. -/
theorem claimTakenByCase : Obligations.ClaimTakenByCase := by
  intro s c hears
  refine ⟨fun smaller => ?_, ownNumber_taken hears, fun n other => ⟨?_, ?_, fun discards => ?_⟩⟩
  · have next := ownNumber_next (c := c) hears
    rw [takeOwnNumber, if_pos (by simpa using smaller), goDuplicate] at next
    obtain ⟨state, cause, claim, sending, outputs, code⟩ := finish_enterInactive s .duplicate
      ((noteEarly s (acceptFrame s.station s)).withClaim fun u => { u with candidate := none })
    exact ⟨_, next, state, cause, code, outputs, claim, sending⟩
  · intro cand claiming held
    exact claiming_taken hears other claiming held
  · intro withdrawn joins same
    exact ⟨withdrawnEntry_sender n c _, withdrawn_taken hears other withdrawn joins same⟩
  · have kept := discarding_keeps (c := c) other
    refine ⟨_, discarding_next hears other discards, ?_, discarding_claims other, fun cab => ?_,
      fun conveyor => ?_, fun cutter => ?_⟩
    · rw [kept.replicas, discardRecords_eq]; simp
    · have gone := discardRecords_cab (s := noteEarly s (acceptFrame n s)) n (by simpa using cab)
      rw [kept.cabMap, kept.tagFirst]
      simpa using gone
    · have gone := discardRecords_conveyor (s := noteEarly s (acceptFrame n s)) n (by simpa using conveyor)
      rw [kept.retires, kept.resync, kept.records, kept.taken, kept.retired, kept.windowOpen]
      simpa using gone
    · rw [kept.face, kept.ringResync]
      exact ⟨fun sender => discardRecords_resync n (by simpa using cutter) (by simpa using sender),
        fun i bound sender => discardRecords_tag n (by simpa using cutter) (by simpa using sender) (by simpa using bound)⟩

end Sys2Proof.Machine
end

section
/-! Entries of a STATE payload read back, each with what follows it (chapter 12, R168). -/

namespace Sys2Proof.Machine

/-! ## The role part of a STATUS -/

theorem readCutter_append (p : CutterPart) (rest : List Byte) :
    readCutter ((RolePart.cutter p).bytes ++ rest) = some (.cutter p, rest) := by
  obtain ⟨demand, face, lot⟩ := cutterFlags_bits p.lotOpen p.faceComplete p.demand
  simp only [RolePart.bytes, be16, be24, be32, List.cons_append, List.nil_append, readCutter, of16_be16, of24_be24,
    of32_be32, demand, face, lot, setWidth_back (show 11 ≤ 16 by decide), setWidth_back (show 6 ≤ 8 by decide)]

theorem washByte_bits : ∀ (spray : Bool) (wash : BitVec 3),
    (BitVec.ofBool spray ++ (0 : BitVec 4) ++ wash).extractLsb' 0 3 = wash ∧
      (BitVec.ofBool spray ++ (0 : BitVec 4) ++ wash).getLsbD 7 = spray := by decide

theorem readScrubber_append (p : ScrubberPart) (rest : List Byte) :
    readScrubber ((RolePart.scrubber p).bytes ++ rest) = some (.scrubber p, rest) := by
  obtain ⟨wash, spray⟩ := washByte_bits p.spray p.wash
  simp only [RolePart.bytes, be16, List.cons_append, List.nil_append, readScrubber, of16_be16, wash, spray]

theorem resyncByte_bit : ∀ resync : Bool, ((0 : BitVec 7) ++ BitVec.ofBool resync).getLsbD 0 = resync := by decide

theorem readConveyor_append (p : ConveyorPart) (rest : List Byte) :
    readConveyor ((RolePart.conveyor p).bytes ++ rest) = some (.conveyor p, rest) := by
  simp only [RolePart.bytes, be16, be32, List.cons_append, List.nil_append, readConveyor, of16_be16, of32_be32, resyncByte_bit]

theorem readCab_append (p : CabPart) (rest : List Byte) : readCab ((RolePart.cab p).bytes ++ rest) = some (.cab p, rest) := by
  obtain ⟨duty, complete⟩ := claimFlags_bits p.mapComplete p.duty
  simp only [RolePart.bytes, be16, List.cons_append, List.nil_append, readCab, of16_be16, duty, complete]

/-- The part that the role byte names is read back. -/
theorem readPart_append {r : StatusRecord} (fits : statusFits r = true) (rest : List Byte) :
    readPart r.common.role (r.part.bytes ++ rest) = some (r.part, rest) := by
  obtain ⟨x, part⟩ := r
  unfold statusFits at fits; unfold readPart
  dsimp only at fits ⊢
  cases named : Role.ofCode x.role with
  | none =>
    rw [named] at fits
    rw [show part = .none from beq_iff_eq.1 fits]; rfl
  | some q =>
    rw [named] at fits
    match part, q, fits with
    | .cutter p, .cutter, _ => exact readCutter_append p rest
    | .scrubber p, .scrubber, _ => exact readScrubber_append p rest
    | .conveyor p, .conveyor, _ => exact readConveyor_append p rest
    | .cab p, .cab, _ => exact readCab_append p rest

/-! ## Entries -/

theorem readEntry_status {r : StatusRecord} (fits : statusFits r = true) (rest : List Byte) :
    readEntry ((Entry.status r).bytes ++ rest) = some (.status r, rest) := by
  obtain ⟨ready, overflow⟩ := claimFlags_bits r.common.overflow r.common.ready
  have part := readPart_append fits rest
  simp only [Entry.bytes, StatusCommon.bytes, List.cons_append, List.nil_append, readEntry, if_true, readStatus, part,
    Option.map_some, ready, overflow]

theorem readEntry_answer (a : AnswerEntry) : readEntry (Entry.answer a).bytes = some (.answer a, []) := rfl

theorem readEntry_lot (l : LotEntry) : readEntry (Entry.lot l).bytes = some (.lot l, []) := by
  have read : readEntry (Entry.lot l).bytes = readLot (be16 l.number ++ be16 l.advance ++ be16 l.count ++ be16 l.expected ++
    be16 l.span) := rfl
  rw [read]
  simp only [be16, List.cons_append, List.nil_append, readLot, of16_be16]

theorem readEntry_row (e : RowEntry) : readEntry (Entry.row e).bytes = some (.row e, []) := by
  have read : readEntry (Entry.row e).bytes = (readRow e.bytes).map fun (e, r) => (.row e, r) := rfl
  rw [read, readRow_bytes]; rfl

/-! ## Payloads -/

theorem readEntriesUpTo_cons {fuel : Nat} {bytes rest : List Byte} {e : Entry} (h : readEntry bytes = some (e, rest)) :
    readEntriesUpTo (fuel + 1) bytes = e :: readEntriesUpTo fuel rest := by rw [readEntriesUpTo, h]

theorem readEntriesUpTo_nil (fuel : Nat) : readEntriesUpTo fuel [] = [] := by cases fuel <;> rfl

/-- A payload of one entry. -/
theorem readEntries_one {bytes : List Byte} {e : Entry} (h : readEntry bytes = some (e, [])) : readEntries bytes = [e] := by
  cases bytes with
  | nil => cases h
  | cons b bytes => rw [readEntries, List.length_cons, readEntriesUpTo_cons h, readEntriesUpTo_nil]

/-- A payload of a STATUS and one more entry. -/
theorem readEntries_status_one {r : StatusRecord} (fits : statusFits r = true) {bytes : List Byte} {e : Entry}
    (h : readEntry bytes = some (e, [])) : readEntries ((Entry.status r).bytes ++ bytes) = [.status r, e] := by
  have long : ∃ fuel, ((Entry.status r).bytes ++ bytes).length = fuel + 2 :=
    ⟨6 + (r.part.bytes.length + bytes.length), by simp [Entry.bytes, StatusCommon.bytes]; omega⟩
  obtain ⟨fuel, length⟩ := long
  rw [readEntries, length, readEntriesUpTo_cons (readEntry_status fits bytes), readEntriesUpTo_cons h, readEntriesUpTo_nil]

/-- A STATUS has 8 to 31 bytes. -/
theorem statusBytes_bounds (r : StatusRecord) : 8 ≤ (Entry.status r).bytes.length ∧ (Entry.status r).bytes.length ≤ 31 := by
  have part : r.part.bytes.length ≤ 23 := by cases r.part <;> simp [RolePart.bytes, be16, be24, be32]
  simp only [Entry.bytes, StatusCommon.bytes, List.length_append, List.length_cons, List.length_nil]
  omega

theorem stateFits_status (r : StatusRecord) {bytes : List Byte} (h : bytes.length ≤ 33) :
    payloadFits .state ((Entry.status r).bytes ++ bytes) = true := by
  obtain ⟨low, high⟩ := statusBytes_bounds r
  simp only [payloadFits, FrameClass.minLength, List.length_append, Bool.and_eq_true, decide_eq_true_eq]
  omega

theorem lotBytes_fit (l : LotEntry) : payloadFits .state (Entry.lot l).bytes = true := rfl

theorem rowBytes_fit (e : RowEntry) : payloadFits .state (Entry.row e).bytes = true := by
  have cells : (packCells e.cells.toList).length = 8 := by rw [packCells_length, e.cells.size]
  simp [payloadFits, FrameClass.minLength, Entry.bytes, RowEntry.bytes, be16, cells]

end Sys2Proof.Machine
end

section
/-! One entry of a STATE frame taken (R168): what it stores of its sender, and the units it may move. -/

namespace Sys2Proof.Machine

/-! ## What an entry stores of its sender -/

/-- The replica an entry leaves of its sender (R168, R101). -/
def Replica.takes (r : Replica) : Entry → Replica
  | .status x => { r with status := some x, slots := maskSlots x.common.mask r.slots }
  | .notice x => match slotOfByte x.slot with
    | some i => { r with slots := (r.slots.map fun y => if y.map (·.code) = some x.code then none else y).set i (some x) }
    | none => r
  | .tag x => { r with tags := r.tags.set (if x.record then 1 else 0) (some x) }
  | .fault x => { r with fault := some x }
  | _ => r

/-- An entry as far as it is a record of its sender. -/
def entryStored (n : Station) (s : State) : Entry → State
  | .status x => storeStatus n x s
  | e => s.setReplica n ((s.replica n).takes e)

@[simp] theorem setReplica_self (s : State) (n : Station) : s.setReplica n (s.replica n) = s := by
  simp only [State.setReplica, State.replica, Tbl.set_get_self]

theorem takeNotice_eq (n : Station) (x : NoticeEntry) (s : State) :
    takeNotice n x s = s.setReplica n ((s.replica n).takes (.notice x)) := by
  unfold takeNotice Replica.takes; dsimp only
  cases slotOfByte x.slot with
  | none => exact (setReplica_self s n).symm
  | some i => simp only [beq_iff_eq]

theorem entryStored_replicas (n : Station) (s : State) (e : Entry) :
    (entryStored n s e).replicas = s.replicas.set n ((s.replica n).takes e) := by
  cases e with
  | status x =>
    show (storeStatus n x s).replicas = _
    unfold storeStatus; dsimp only; split <;> rfl
  | _ => rfl

/-- Of all but the replicas only the sender's ready flag is stored. -/
theorem entryStored_eq (n : Station) (s : State) (e : Entry) : entryStored n s e = { s with
    replicas := (entryStored n s e).replicas
    claim := { s.claim with roster := (entryStored n s e).claim.roster } } := by
  cases e with
  | status x =>
    show storeStatus n x s = { s with
      replicas := (storeStatus n x s).replicas, claim := { s.claim with roster := (storeStatus n x s).claim.roster } }
    unfold storeStatus; dsimp only; split <;> rfl
  | _ => rfl

/-- A sender that the roster does not hold has no ready flag. -/
theorem entryStored_unknown {n : Station} {s : State} (e : Entry) (unknown : s.entry n = none) :
    (entryStored n s e).claim.roster = s.claim.roster := by
  cases e with
  | status x =>
    have entry : (s.setReplica n { s.replica n with
        status := some x, slots := maskSlots x.common.mask (s.replica n).slots }).entry n = none := unknown
    show (storeStatus n x s).claim.roster = _
    unfold storeStatus; dsimp only; rw [entry]; rfl
  | _ => rfl

/-! ## The units an entry may move -/

/-- `t` is `s` but for units that entries move, the own notices and the TRIP slots. -/
def UnitsOnly (s t : State) : Prop := t = { s with
  cabMap := t.cabMap, recovery := t.recovery, permit := t.permit, ring := t.ring, conv := t.conv, panel := t.panel
  notices := t.notices, line := { s.line with trip := t.line.trip } }

theorem UnitsOnly.refl (s : State) : UnitsOnly s s := rfl

theorem UnitsOnly.trans {s t u : State} (h : UnitsOnly s t) (g : UnitsOnly t u) : UnitsOnly s u := by
  unfold UnitsOnly at *; rw [g, h]

theorem UnitsOnly.of_notices {s t : State} (h : NoticesOnly s t) : UnitsOnly s t := by
  unfold NoticesOnly at h; unfold UnitsOnly; rw [h]

theorem unitsOnly_retryBreach (s : State) : UnitsOnly s (retryBreach s) := by
  unfold retryBreach noteBreachEntered; split
  · refine .trans (.of_notices (noticesOnly_raiseNotice .profileBreach s)) ?_
    split <;> rfl
  · rfl

/-- The ring as a CONVEYOR's STATUS leaves it (R82). -/
def LotRing.takesConveyor (g : LotRing) (p : ConveyorPart) : LotRing :=
  let c := committedCount g.issued (g.lots.find? (·.isOpen)).isSome
  let passed := passedLots p.retired g.lots
  if p.resync then { g with resync := true }
  else if precedes c p.taken || precedes c p.retired then g
  else if precedes g.retiredHeld p.retired then
    { g with lots := g.lots.drop passed.length, takenHeld := p.taken, retiredHeld := p.retired, resync := false
             accountLost := if passed.isEmpty then g.accountLost else g.resync }
  else { g with takenHeld := p.taken, resync := false }

theorem cutterTakesConveyor_eq (p : ConveyorPart) (s : State) :
    cutterTakesConveyor p s = { s with ring := s.ring.takesConveyor p } := by
  unfold cutterTakesConveyor LotRing.takesConveyor State.openLot; dsimp only
  repeat' split
  all_goals rfl

theorem unitsOnly_cutterTakesCab (n : Station) (p : CabPart) (s : State) : UnitsOnly s (cutterTakesCab n p s) := by
  unfold cutterTakesCab; split <;> rfl

theorem unitsOnly_endHeld (n : Station) (p : CutterPart) (s : State) : UnitsOnly s (endHeld n p s) := by
  unfold endHeld; split <;> rfl

/-- A STATUS moves the units beyond the record it stores. -/
theorem unitsOnly_takeStatus (n : Station) (x : StatusRecord) (s : State) : UnitsOnly (storeStatus n x s) (takeStatus n x s) := by
  unfold takeStatus; dsimp only
  split
  · refine .trans ?_ (unitsOnly_retryBreach _)
    split
    · rw [cutterTakesConveyor_eq]; rfl
    · rfl
  · exact .trans (unitsOnly_cutterTakesCab _ _ _) (unitsOnly_retryBreach _)
  · exact unitsOnly_retryBreach _
  · rw [conveyorTakesCutter_eq]; rfl
  · split
    · exact unitsOnly_endHeld _ _ _
    · rfl
  · rfl

theorem unitsOnly_takeAnswer (n : Station) (a : AnswerEntry) (s : State) : UnitsOnly s (takeAnswer n a s) := by
  unfold takeAnswer takePanelAnswer takeRequestAnswer restartRequest; repeat' split
  all_goals rfl

/-- `t` is `s` but for the conveyor, the own notices and the TRIP slots. -/
def LotsOnly (s t : State) : Prop :=
  t = { s with conv := t.conv, notices := t.notices, line := { s.line with trip := t.line.trip } }

theorem LotsOnly.trans {s t u : State} (h : LotsOnly s t) (g : LotsOnly t u) : LotsOnly s u := by
  unfold LotsOnly at *; rw [g, h]

theorem LotsOnly.of_notices {s t : State} (h : NoticesOnly s t) : LotsOnly s t := by
  unfold NoticesOnly at h; unfold LotsOnly; rw [h]

theorem LotsOnly.units {s t : State} (h : LotsOnly s t) : UnitsOnly s t := by
  unfold LotsOnly at h; unfold UnitsOnly; rw [h]

theorem lotsOnly_retireHead (r : LotRec) (queued : List LotRec) (s : State) : LotsOnly s (retireHead r queued s) := by
  unfold retireHead; dsimp only
  refine .trans ?_ (.of_notices (noticesOnly_judgeNotices _))
  unfold outcomeNotices
  split
  · refine .trans ?_ (.of_notices (noticesOnly_raiseNotice _ _)); rfl
  · refine .trans ?_ (.of_notices (noticesOnly_raiseNotice _ _)); rfl
  · rfl
  · rfl

theorem lotsOnly_openWindows (fuel : Nat) (s : State) : LotsOnly s (openWindows fuel s) := by
  induction fuel generalizing s with
  | zero => rfl
  | succ fuel ih =>
    unfold openWindows; repeat' split
    · rfl
    · rfl
    · exact .trans (lotsOnly_retireHead _ _ _) (ih _)
    · rfl

theorem lotsOnly_takeLot (l : LotEntry) (s : State) : LotsOnly s (takeLot l s) := by
  unfold takeLot; split
  · rfl
  · refine .trans ?_ (lotsOnly_openWindows 17 _); rfl

theorem unitsOnly_takeRow (n : Station) (e : RowEntry) (s : State) : UnitsOnly s (takeRow n e s) := by
  unfold takeRow; repeat' split
  all_goals rfl

/-- An entry is stored, and moves units. -/
theorem unitsOnly_takeEntry (n : Station) (s : State) (e : Entry) : UnitsOnly (entryStored n s e) (takeEntry n s e) := by
  have kept : (s.replica n).takes e = s.replica n → (∀ x, e ≠ .status x) → entryStored n s e = s := by
    intro same other
    cases e with
    | status x => exact absurd rfl (other x)
    | _ => exact (congrArg (s.setReplica n) same).trans (setReplica_self s n)
  cases e with
  | status x => exact unitsOnly_takeStatus n x s
  | notice x => rw [takeEntry, takeNotice_eq]; exact .refl _
  | tag x => exact .refl _
  | fault x => exact .refl _
  | answer a => rw [kept rfl nofun]; exact unitsOnly_takeAnswer n a s
  | lot l =>
    rw [kept rfl nofun, takeEntry]; split
    · exact (lotsOnly_takeLot l s).units
    · rfl
  | retire x =>
    rw [kept rfl nofun, takeEntry]; split <;> rfl
  | row x => rw [kept rfl nofun]; exact unitsOnly_takeRow n x s

theorem takeEntry_replicas (n : Station) (s : State) (e : Entry) :
    (takeEntry n s e).replicas = s.replicas.set n ((s.replica n).takes e) := by
  rw [unitsOnly_takeEntry n s e, entryStored_replicas]

end Sys2Proof.Machine
end

section
/-! The entries of a STATE payload in turn, each with what follows it: replicas, RETIRE entries, claim unit, open lot. -/

namespace Sys2Proof

theorem Tbl.set_set {α : Type} {n : Nat} (t : Tbl α n) (i : Fin n) (x y : α) : (t.set i x).set i y = t.set i y :=
  Tbl.ext_get fun j => by
    rw [Tbl.get_set, Tbl.get_set, Tbl.get_set]; split <;> rfl

end Sys2Proof

namespace Sys2Proof.Machine

/-! ## What entries leave -/

/-- The entries of station `n` leave the channels, the face and the line's state, and of the claim unit all but the roster. -/
structure EntriesKeep (n : Station) (s t : State) : Prop where
  image : t.image = s.image
  station : t.station = s.station
  inputs : t.inputs = s.inputs
  sensor : t.sensor = s.sensor
  dust : t.dust = s.dust
  face : t.face = s.face
  lineState : t.line.state = s.line.state
  claimSlot : t.line.claim = s.line.claim
  hfc : t.line.hfc = s.line.hfc
  claim : t.claim = { s.claim with roster := t.claim.roster }
  unknown : s.entry n = none → t.claim.roster = s.claim.roster

theorem EntriesKeep.trans {n : Station} {s t u : State} (h : EntriesKeep n s t) (g : EntriesKeep n t u) : EntriesKeep n s u where
  image := g.image.trans h.image
  station := g.station.trans h.station
  inputs := g.inputs.trans h.inputs
  sensor := g.sensor.trans h.sensor
  dust := g.dust.trans h.dust
  face := g.face.trans h.face
  lineState := g.lineState.trans h.lineState
  claimSlot := g.claimSlot.trans h.claimSlot
  hfc := g.hfc.trans h.hfc
  claim := by rw [g.claim, h.claim]
  unknown := fun none => by
    have same := h.unknown none
    exact (g.unknown (by rw [State.entry, same]; exact none)).trans same

theorem EntriesKeep.of_rest {n : Station} {s t : State} (h : t.rest = s.rest) : EntriesKeep n s t where
  image := image_of_rest h
  station := station_of_rest h
  inputs := inputs_of_rest h
  sensor := sensor_of_rest h
  dust := dust_of_rest h
  face := face_of_rest h
  lineState := lineState_of_rest h
  claimSlot := claimSlot_of_rest h
  hfc := hfc_of_rest h
  claim := by rw [claim_of_rest h]
  unknown := fun _ => by rw [claim_of_rest h]

theorem entriesKeep_takeEntry (n : Station) (s : State) (e : Entry) : EntriesKeep n s (takeEntry n s e) := by
  have moved := unitsOnly_takeEntry n s e
  have stored := entryStored_eq n s e
  have unknown := entryStored_unknown (n := n) (s := s) e
  generalize entryStored n s e = v at moved stored unknown
  rw [UnitsOnly] at moved
  constructor
  case unknown => intro none; rw [moved]; exact unknown none
  all_goals rw [moved]; dsimp only
  all_goals rw [stored]

theorem isRole_of_keep {n : Station} {s t : State} (h : EntriesKeep n s t) (r : Role) : t.isRole r = s.isRole r := by
  simp only [State.isRole, State.role, State.cfg, h.image, h.station]

/-! ## RETIRE entries (R168) -/

/-- The RETIRE entries that a CAB keeps, the latest first. -/
def retiresTake (cab : Bool) (n : Station) (l : List (Station × RetireEntry)) : Entry → List (Station × RetireEntry)
  | .retire x => if cab = true then ((n, x) :: l).take 8 else l
  | _ => l

theorem takeStatus_retires (n : Station) (x : StatusRecord) (s : State) :
    (takeStatus n x s).cabMap.retires = s.cabMap.retires := by
  have stored : (storeStatus n x s).cabMap = s.cabMap := by
    obtain ⟨_, h, -⟩ := storeStatus_eq n x s; rw [h]
  have retried : ∀ v : State, (retryBreach v).cabMap = v.cabMap := fun v => cabMap_of_rest (rest_retryBreach v)
  unfold takeStatus; dsimp only
  split
  · rw [retried]; split
    · rw [cutterTakesConveyor_eq]; exact congrArg _ stored
    · rw [stored]
  · rw [retried]; unfold cutterTakesCab; split <;> exact congrArg _ stored
  · rw [retried, stored]
  · rw [conveyorTakesCutter_eq]; exact congrArg _ stored
  · unfold endHeld; repeat' split
    all_goals exact congrArg (·.retires) stored
  · rw [stored]

theorem takeEntry_retires (n : Station) (s : State) (e : Entry) :
    (takeEntry n s e).cabMap.retires = retiresTake (s.isRole .cab) n s.cabMap.retires e := by
  cases e with
  | status x => exact takeStatus_retires n x s
  | notice x => rw [takeEntry, takeNotice_eq]; rfl
  | answer a =>
    rw [takeEntry]; unfold takeAnswer takePanelAnswer takeRequestAnswer restartRequest; repeat' split
    all_goals rfl
  | lot l =>
    rw [takeEntry]; split
    · rw [lotsOnly_takeLot l s]; rfl
    · rfl
  | retire x => rw [takeEntry, retiresTake]; split <;> rfl
  | tag x => rfl
  | row x =>
    rw [takeEntry]; unfold takeRow; repeat' split
    all_goals rfl
  | fault x => rfl

/-! ## The open lot (R80) -/

theorem storeStatus_ring (n : Station) (x : StatusRecord) (s : State) : (storeStatus n x s).ring = s.ring := by
  obtain ⟨_, h, -⟩ := storeStatus_eq n x s; rw [h]

/-- A STATUS moves the ring as R82 has it, or leaves it. -/
theorem takeStatus_ring (n : Station) (x : StatusRecord) (s : State) :
    (takeStatus n x s).ring = s.ring ∨ ∃ p, (takeStatus n x s).ring = s.ring.takesConveyor p := by
  have stored := storeStatus_ring n x s
  have retried : ∀ v : State, (retryBreach v).ring = v.ring := fun v => (retryBreach_ring v).1
  unfold takeStatus; dsimp only
  split
  · rename_i p _ _
    rw [retried]; split
    · rw [cutterTakesConveyor_eq]; exact .inr ⟨p, by rw [← stored]⟩
    · exact .inl stored
  · rw [retried]; unfold cutterTakesCab; split <;> exact .inl stored
  · rw [retried]; exact .inl stored
  · rw [conveyorTakesCutter_eq]; exact .inl stored
  · unfold endHeld; repeat' split
    all_goals exact .inl stored
  · exact .inl stored

theorem takeEntry_ring (n : Station) (s : State) (e : Entry) :
    (takeEntry n s e).ring = s.ring ∨ ∃ p, (takeEntry n s e).ring = s.ring.takesConveyor p := by
  cases e with
  | status x => exact takeStatus_ring n x s
  | notice x => rw [takeEntry, takeNotice_eq]; exact .inl rfl
  | answer a =>
    rw [takeEntry]; unfold takeAnswer takePanelAnswer takeRequestAnswer restartRequest; repeat' split
    all_goals exact .inl rfl
  | lot l =>
    rw [takeEntry]; split
    · rw [lotsOnly_takeLot l s]; exact .inl rfl
    · exact .inl rfl
  | retire x => rw [takeEntry]; split <;> exact .inl rfl
  | tag x => exact .inl rfl
  | row x =>
    rw [takeEntry]; unfold takeRow; repeat' split
    all_goals exact .inl rfl
  | fault x => exact .inl rfl

/-- No lot opens by a CONVEYOR's STATUS. -/
theorem takesConveyor_closed {g : LotRing} (p : ConveyorPart) (h : ∀ l ∈ g.lots, ¬l.isOpen = true) :
    ∀ l ∈ (g.takesConveyor p).lots, ¬l.isOpen = true := by
  unfold LotRing.takesConveyor; dsimp only; split
  · exact h
  · split
    · exact h
    · split
      · exact fun l hl => h l (List.mem_of_mem_drop hl)
      · exact h

theorem openLot_none {s : State} : s.openLot = none ↔ ∀ l ∈ s.ring.lots, ¬l.isOpen = true := List.find?_eq_none

theorem takeEntry_openLot (n : Station) {s : State} (e : Entry) (h : s.openLot = none) : (takeEntry n s e).openLot = none := by
  rw [openLot_none] at h ⊢
  rcases takeEntry_ring n s e with same | ⟨p, moved⟩
  · rw [same]; exact h
  · rw [moved]; exact takesConveyor_closed p h

/-- The ring of a station that is no CUTTER is part of the rest. -/
theorem ring_of_rest_other {s t : State} (h : t.rest = s.rest) (other : s.isRole .cutter = false) : t.ring = s.ring := by
  have rings := congrArg State.ring h
  simpa only [State.rest, isRole_of_rest h, other, Bool.false_eq_true, if_false] using rings

theorem sync_openLot {s : State} (h : s.openLot = none) : (sync s).openLot = none := by
  cases role : s.isRole .cutter with
  | true =>
    rcases sync_ring role with ring | ⟨-, -, ring⟩
    · rw [State.openLot, ring]; exact h
    · rw [State.openLot, ring]; exact commitLot_openLot s
  | false => rw [State.openLot, ring_of_rest_other (rest_sync s) role]; exact h

theorem subEvent_openLot {f : State → State} {s : State} (h : (f s).openLot = none) : (subEvent f s).openLot = none := by
  have noted : (subEvent f s).ring = (sync (f s)).ring := by rw [subEvent, noteEarly_eq]
  rw [State.openLot, noted, ← State.openLot]; exact sync_openLot h

theorem finish_openLot_none {pre s : State} (live : s.live = true) (h : s.openLot = none) : (finish pre s).openLot = none := by
  cases role : s.isRole .cutter with
  | true => exact finish_openLot live role h
  | false => rw [State.openLot, ring_of_rest_other (finish_rest pre s) role]; exact h

/-! ## The entries in turn -/

theorem takeEntries_cons (n : Station) (e : Entry) (es : List Entry) (s : State) :
    takeEntries n (e :: es) s = takeEntries n es (subEvent (fun s => takeEntry n s e) s) := by
  unfold takeEntries; rw [List.foldl_cons]

theorem takeEntries_nil (n : Station) (s : State) : takeEntries n [] s = s := by unfold takeEntries; rw [List.foldl_nil]

theorem entriesKeep_takeEntries (n : Station) (es : List Entry) (s : State) : EntriesKeep n s (takeEntries n es s) := by
  induction es generalizing s with
  | nil => rw [takeEntries_nil]; exact .of_rest rfl
  | cons e es ih =>
    rw [takeEntries_cons]
    exact ((entriesKeep_takeEntry n s e).trans (.of_rest (rest_subEvent (fun s => takeEntry n s e) s))).trans (ih _)

theorem takeEntries_replicas (n : Station) (es : List Entry) (s : State) :
    (takeEntries n es s).replicas = s.replicas.set n (es.foldl Replica.takes (s.replica n)) := by
  induction es generalizing s with
  | nil => rw [takeEntries_nil]; exact (Tbl.set_get_self s.replicas n).symm
  | cons e es ih =>
    have taken : (subEvent (fun s => takeEntry n s e) s).replicas = s.replicas.set n ((s.replica n).takes e) := by
      rw [replicas_of_rest (rest_subEvent _ _), takeEntry_replicas]
    rw [takeEntries_cons, ih, State.replica, taken, Tbl.get_set_self, Tbl.set_set]; rfl

theorem takeEntries_retires (n : Station) (es : List Entry) (s : State) :
    (takeEntries n es s).cabMap.retires = es.foldl (retiresTake (s.isRole .cab) n) s.cabMap.retires := by
  induction es generalizing s with
  | nil => rw [takeEntries_nil]; rfl
  | cons e es ih =>
    have rest := rest_subEvent (fun s => takeEntry n s e) s
    have role : (subEvent (fun s => takeEntry n s e) s).isRole .cab = s.isRole .cab :=
      (isRole_of_rest rest _).trans (isRole_of_keep (entriesKeep_takeEntry n s e) _)
    rw [takeEntries_cons, ih, role, cabMap_of_rest rest, takeEntry_retires]; rfl

theorem takeEntries_openLot (n : Station) (es : List Entry) {s : State} (h : s.openLot = none) :
    (takeEntries n es s).openLot = none := by
  induction es generalizing s with
  | nil => rw [takeEntries_nil]; exact h
  | cons e es ih => rw [takeEntries_cons]; exact ih (subEvent_openLot (takeEntry_openLot n e h))

end Sys2Proof.Machine
end

section
/-! A STATE frame by its effect on replicas, roster and claim (R149, R156, R168). -/

namespace Sys2Proof.Machine

/-! ## The acceptance (R149, R156) -/

/-- Where a STATE starts no claim the rest is that of its acceptance. -/
theorem stateAccepted_quiet {n : Station} {s : State} (h : claimOnState n (noteEarly s (acceptFrame n s)) =
    noteEarly s (acceptFrame n s)) : (stateAccepted n s).rest = (acceptFrame n s).rest := by
  rw [rest_stateAccepted, h, rest_noteEarly]

/-- A STATE frame starts no claim in CLAIMING, in WITHDRAWN, or where the roster holds another's number. -/
theorem claimOnState_none {n : Station} {s : State} (h : s.line.state = .claiming ∨ s.line.state = .withdrawn ∨
    n ≠ s.station ∧ (s.entry n).isSome = true) : claimOnState n s = s := by
  rcases h with h | h | ⟨other, known⟩
  · simp [claimOnState, h]
  · simp [claimOnState, h]
  · exact claimOnState_known other (by rw [Option.isNone_eq_false_iff]; exact known)

theorem claimOnState_starts {n : Station} {s : State} (runs : s.line.state = .run ∨ s.line.state = .quiet)
    (unknown : n = s.station ∨ s.entry n = none) : claimOnState n s = enterClaim none s := by
  have acts : ((s.line.state == .run || s.line.state == .quiet) && (n == s.station || (s.entry n).isNone)) = true := by
    rw [Bool.and_eq_true]; exact ⟨by simpa using runs, by simpa using unknown⟩
  unfold claimOnState; rw [if_pos acts]

/-- The acceptance leaves all but line and claim unit. -/
theorem stateAccepted_keeps (n : Station) (s : State) : (stateAccepted n s).replicas = s.replicas ∧
    (stateAccepted n s).cabMap = s.cabMap ∧ ∀ r, (stateAccepted n s).isRole r = s.isRole r := by
  have rest := rest_stateAccepted n s
  have claims : ∀ v : State, (claimOnState n v).replicas = v.replicas ∧ (claimOnState n v).cabMap = v.cabMap ∧
      ∀ r, (claimOnState n v).isRole r = v.isRole r := by
    intro v; unfold claimOnState; split
    · rw [enterClaim_none]; exact ⟨rfl, rfl, fun _ => rfl⟩
    · exact ⟨rfl, rfl, fun _ => rfl⟩
  obtain ⟨replicas, cabMap, role⟩ := claims (noteEarly s (acceptFrame n s))
  refine ⟨?_, ?_, fun r => ?_⟩
  · rw [replicas_of_rest rest, replicas]; simp
  · rw [cabMap_of_rest rest, cabMap]; simp
  · rw [isRole_of_rest rest, role]; simp

/-- A frame of the own number, or of one that the roster does not hold, leaves the roster. -/
theorem acceptFrame_roster {n : Station} {s : State} (h : n = s.station ∨ s.entry n = none) :
    (acceptFrame n s).claim.roster = s.claim.roster :=
  Tbl.ext_get fun m => by
    have entry := acceptFrame_entry n m s
    split at entry
    · rename_i heard
      obtain ⟨rfl, other⟩ := heard
      have none := h.resolve_left other
      rw [none] at entry
      exact entry.trans none.symm
    · exact entry

theorem enterClaim_openLot (s : State) : (enterClaim none s).openLot = none := by
  rw [enterClaim_none, State.openLot]; exact commitLot_openLot s

/-- The claim that a STATE starts in RUN and QUIET (R149). -/
theorem stateAccepted_claims {n : Station} {s : State} (runs : s.line.state = .run ∨ s.line.state = .quiet)
    (unknown : n = s.station ∨ s.entry n = none) : (stateAccepted n s).line.state = .claiming ∧
      (stateAccepted n s).line.claim = some (ownClaim s) ∧ (stateAccepted n s).openLot = none ∧
      (stateAccepted n s).claim = { s.claim with
        candidate := some ((Tbl.fill 8 none).set s.station (some (candOf (ownClaim s))))
        window := some (ms 100), watch := none, ownSent := false } := by
  have roster := acceptFrame_roster unknown
  have entry : (noteEarly s (acceptFrame n s)).entry n = s.entry n := by simp only [State.entry, noteEarly_claim, roster]
  have starts : claimOnState n (noteEarly s (acceptFrame n s)) = enterClaim none (noteEarly s (acceptFrame n s)) :=
    claimOnState_starts (by simpa using acceptFrame_runs n runs) (by rw [entry]; simpa using unknown)
  have rest := rest_stateAccepted n s
  have closed : (stateAccepted n s).openLot = none := subEvent_openLot (f := claimOnState n) (by
    rw [starts]; exact enterClaim_openLot _)
  rw [starts] at rest
  refine ⟨by rw [lineState_of_rest rest]; rfl, ?_, closed, ?_⟩
  · rw [claimSlot_of_rest rest, enterClaim_none, heard_ownClaim]
  · rw [claim_of_rest rest, enterClaim_none, heard_ownClaim, noteEarly_station, acceptFrame_station]
    dsimp only
    rw [noteEarly_claim, acceptFrame_eq]
    dsimp only
    rw [roster]; rfl

/-! ## What follows the acceptance -/

/-- The state before the end of the event: the entries of another number taken, none of the own. -/
def stateEntered (n : Station) (payload : List Byte) (s : State) : State :=
  if n = s.station then stateAccepted n s else takeEntries n (readEntries payload) (stateAccepted n s)

theorem stateTaken_entered {s : State} {n : Station} {payload : List Byte} (hears : s.hears = true)
    (fits : payloadFits .state payload = true) :
    exec (.stateTaken n payload) s = .next (finish s (stateEntered n payload s)) := by
  rw [stateTaken_next hears fits, stateEntered, ← stateAccepted_station n s]; rfl

theorem stateEntered_keeps (n : Station) (payload : List Byte) (s : State) :
    EntriesKeep n (stateAccepted n s) (stateEntered n payload s) := by
  unfold stateEntered; split
  · exact .of_rest rfl
  · exact entriesKeep_takeEntries _ _ _

theorem stateEntered_openLot {n : Station} {payload : List Byte} {s : State} (h : (stateAccepted n s).openLot = none) :
    (stateEntered n payload s).openLot = none := by
  unfold stateEntered; split
  · exact h
  · exact takeEntries_openLot _ _ h

/-- A claim that a STATE starts stands at the end of the event. -/
theorem stateTaken_claims {s : State} {n : Station} {payload : List Byte} (runs : s.line.state = .run ∨ s.line.state = .quiet)
    (unknown : n = s.station ∨ s.entry n = none) :
    let t := finish s (stateEntered n payload s)
    t.line.state = .claiming ∧ t.line.claim = some (ownClaim s) ∧ t.openLot = none ∧
      (s.isRole .cutter = true → t.permit.reasons.line = true) ∧
      t.claim = { s.claim with
        candidate := some ((Tbl.fill 8 none).set s.station (some (candOf (ownClaim s))))
        window := some (ms 100), watch := none, ownSent := false } := by
  obtain ⟨state, slot, closed, claim⟩ := stateAccepted_claims runs unknown
  have kept := stateEntered_keeps n payload s
  have enteredState := kept.lineState.trans state
  have live : (stateEntered n payload s).live = true := live_of_claiming enteredState
  dsimp only
  refine ⟨by rw [finish_lineState, enteredState], by rw [finish_claimSlot, kept.claimSlot, slot],
    finish_openLot_none live (stateEntered_openLot closed), fun cutter => ?_, ?_⟩
  · have role := (isRole_of_keep kept .cutter).trans (((stateAccepted_keeps n s).2.2 _).trans cutter)
    rw [(finish_permitStands (pre := s) live role).1, State.reasonsNow, finish_lineState, enteredState]; rfl
  · have roster : (stateEntered n payload s).claim.roster = (stateAccepted n s).claim.roster := by
      rcases unknown with own | none
      · rw [stateEntered, if_pos own]
      · refine kept.unknown ?_
        rw [State.entry, claim]; exact none
    rw [finish_claim, kept.claim, roster, claim]

/-- A STATE that starts no claim leaves the claim in progress, and with it CLAIMING and WITHDRAWN. -/
theorem stateTaken_keepsClaim {s : State} {n : Station} {payload : List Byte} (h : s.line.state = .claiming ∨
    s.line.state = .withdrawn ∨ n ≠ s.station ∧ (s.entry n).isSome = true) :
    let t := finish s (stateEntered n payload s)
    t.line.claim = s.line.claim ∧ t.claim.candidate = s.claim.candidate ∧ t.claim.window = s.claim.window ∧
      (t.line.state = .claiming ↔ s.line.state = .claiming) ∧ (t.line.state = .withdrawn ↔ s.line.state = .withdrawn) := by
  have none : claimOnState n (noteEarly s (acceptFrame n s)) = noteEarly s (acceptFrame n s) := by
    apply claimOnState_none
    rcases h with state | state | ⟨other, known⟩
    · exact .inl (by simpa using acceptFrame_claiming n state)
    · exact .inr (.inl (by simpa using acceptFrame_stays n state nofun nofun))
    · refine .inr (.inr ⟨by simpa using other, ?_⟩)
      rw [State.entry, noteEarly_claim]; exact acceptFrame_known.trans known
  have rest := stateAccepted_quiet none
  have kept := stateEntered_keeps n payload s
  have state : (stateEntered n payload s).line.state = (acceptFrame n s).line.state :=
    kept.lineState.trans (lineState_of_rest rest)
  dsimp only
  rw [finish_claimSlot, finish_claim, finish_lineState, state, kept.claimSlot, kept.claim, claimSlot_of_rest rest,
    claim_of_rest rest]
  refine ⟨acceptFrame_claimSlot n s, acceptFrame_candidate n s, acceptFrame_window n s, ?_⟩
  rcases acceptFrame_state n s with same | ⟨was, is⟩
  · rw [same]; exact ⟨.rfl, .rfl⟩
  · have neither : ∀ st : LineState, st = .run ∨ st = .quiet → st ≠ .claiming ∧ st ≠ .withdrawn := by
      rintro _ (rfl | rfl) <;> exact ⟨nofun, nofun⟩
    exact ⟨iff_of_false (neither _ is).1 (neither _ was).1, iff_of_false (neither _ is).2 (neither _ was).2⟩

/-- The replicas after a payload of another number. -/
theorem stateTaken_replicas {s : State} {n : Station} (payload : List Byte) (other : n ≠ s.station) :
    (finish s (stateEntered n payload s)).replicas =
      s.replicas.set n ((readEntries payload).foldl Replica.takes (s.replica n)) ∧
    (finish s (stateEntered n payload s)).cabMap.retires =
      (readEntries payload).foldl (retiresTake (s.isRole .cab) n) s.cabMap.retires := by
  obtain ⟨replicas, cabMap, role⟩ := stateAccepted_keeps n s
  rw [finish_replicas, finish_cabMap, stateEntered, if_neg other, takeEntries_replicas, takeEntries_retires, State.replica,
    replicas, cabMap, role]
  exact ⟨rfl, rfl⟩

end Sys2Proof.Machine
end

section
/-! A STATE frame of one entry of a station that the roster holds: a STATUS at any station, a CUTTER's STATUS and a LOT at the
conveyor (R84, R85, R88, R89). -/

namespace Sys2Proof.Machine

/-- A STATE frame of one entry: the rest is that of the entry taken, after an acceptance that changes no more than its own. -/
theorem stateTaken_rest {s : State} {n : Station} {payload : List Byte} {e : Entry} (hears : s.hears = true)
    (other : n ≠ s.station) (known : (s.entry n).isSome = true) (fits : payloadFits .state payload = true)
    (read : readEntries payload = [e]) : ∃ b t, b.rest = (acceptFrame n s).rest ∧
      exec (.stateTaken n payload) s = .next t ∧ t.rest = (takeEntry n b e).rest :=
  ⟨_, _, stateAccepted_known other known, stateTaken_one hears fits other read, by rw [finish_rest, rest_subEvent]⟩

/-! ## A STATUS at any station (R156, R168) -/

theorem storeStatus_entry {n : Station} {s : State} {e : RosterEntry} (x : StatusRecord) (h : s.entry n = some e) :
    (storeStatus n x s).entry n = some { e with ready := some x.common.ready } := by
  have stored : (s.setReplica n { s.replica n with
      status := some x, slots := maskSlots x.common.mask (s.replica n).slots }).entry n = some e := h
  unfold storeStatus; dsimp only; rw [stored]
  exact Tbl.get_set_self _ _ _

theorem takeStatus_claim (n : Station) (x : StatusRecord) (s : State) : (takeStatus n x s).claim = (storeStatus n x s).claim := by
  rw [unitsOnly_takeStatus n x s]

/-- The acceptance keeps a roster entry, PRESENT where it counts. -/
theorem acceptFrame_hears {s : State} {n : Station} {e : RosterEntry} (other : n ≠ s.station) (held : s.entry n = some e) :
    ∃ heard, (acceptFrame n s).entry n = some heard ∧
      (e.state = .present ∨ e.state = .silent → heard.state = .present) := by
  have entry := acceptFrame_entry n n s
  rw [if_pos ⟨rfl, other⟩, held, Option.map_some] at entry
  exact ⟨_, entry, fun counts => by rw [if_pos counts]⟩

theorem statusTaken {s : State} {n : Station} {e : RosterEntry} {r : StatusRecord} (hears : s.hears = true)
    (other : n ≠ s.station) (held : s.entry n = some e) (fits : statusFits r = true) :
    ∃ t, exec (.stateTaken n (Entry.status r).bytes) s = .next t ∧ t.line.hfc = s.line.hfc - 1 ∧
      t.replicas = s.replicas.set n { s.replica n with
        status := some r, slots := maskSlots r.common.mask (s.replica n).slots } ∧
      (t.entry n).map (·.ready) = some (some r.common.ready) ∧
      (e.state = .present ∨ e.state = .silent → (t.entry n).map (·.state) = some .present) ∧
      t.face = s.face ∧ t.inputs = s.inputs ∧ t.sensor = s.sensor ∧ t.dust = s.dust := by
  have payload : payloadFits .state (Entry.status r).bytes = true := by
    simpa using stateFits_status r (bytes := []) (by simp)
  have read : readEntries (Entry.status r).bytes = [.status r] :=
    readEntries_one (by simpa using readEntry_status fits [])
  obtain ⟨b, t, bRest, next, rest⟩ := stateTaken_rest hears other (by rw [held]; rfl) payload read
  have kept := (entriesKeep_takeEntry n b (.status r)).trans (.of_rest (n := n) rest)
  obtain ⟨heard, accepted, present⟩ := acceptFrame_hears other held
  have bEntry : b.entry n = some heard := by rw [State.entry, claim_of_rest bRest]; exact accepted
  have entry : t.entry n = some { heard with ready := some r.common.ready } := by
    rw [State.entry, claim_of_rest rest, takeEntry, takeStatus_claim]; exact storeStatus_entry r bEntry
  refine ⟨t, next, ?_, ?_, by rw [entry]; rfl, fun counts => by rw [entry, ← present counts]; rfl, ?_, ?_, ?_, ?_⟩
  · rw [kept.hfc, hfc_of_rest bRest, acceptFrame_eq]
  · rw [replicas_of_rest rest, takeEntry_replicas, State.replica, replicas_of_rest bRest, acceptFrame_replicas]; rfl
  · rw [kept.face, face_of_rest bRest, acceptFrame_face]
  · rw [kept.inputs, inputs_of_rest bRest, acceptFrame_inputs]
  · rw [kept.sensor, sensor_of_rest bRest, acceptFrame_sensor]
  · rw [kept.dust, dust_of_rest bRest, acceptFrame_dust]

/-! ## A CUTTER's STATUS at the conveyor (R85, R88, R89) -/

/-- Advance and stray mass after a CUTTER's STATUS; its belt time and its RETIRE entries stay. -/
theorem takesCutter_fields (u : Conveyor) (p : CutterPart) (present : Bool) :
    (u.takesCutter p present).advance = some p.advance ∧
      (u.takesCutter p present).stray = (if u.advance.isNone ∨ u.advance = some p.advance then u.stray else 0) ∧
      (u.takesCutter p present).retires = u.retires ∧ (u.takesCutter p present).beltTime = u.beltTime := by
  have stray : (if (u.advance.isNone || u.advance = some p.advance) = true then u.stray else 0) =
      if u.advance.isNone ∨ u.advance = some p.advance then u.stray else 0 := by simp
  unfold Conveyor.takesCutter; dsimp only; rw [← stray]; repeat' split
  all_goals exact ⟨rfl, rfl, rfl, rfl⟩

/-- During a resync only the PRESENT CUTTER gives the counts. -/
theorem takesCutter_resync {u : Conveyor} (p : CutterPart) (present : Bool) (resync : u.resync = true) :
    (u.takesCutter p present).records = u.records ∧
      if present = true then (u.takesCutter p present).resync = false ∧
        (u.takesCutter p present).taken = committedCount p.issued p.lotOpen ∧
        (u.takesCutter p present).retired = committedCount p.issued p.lotOpen
      else (u.takesCutter p present).resync = true ∧ (u.takesCutter p present).taken = u.taken ∧
        (u.takesCutter p present).retired = u.retired := by
  unfold Conveyor.takesCutter; dsimp only; rw [if_pos resync]
  cases present with
  | true => exact ⟨rfl, rfl, rfl, rfl⟩
  | false => exact ⟨rfl, resync, rfl, rfl⟩

/-- Outside of a resync a committed count behind the lots taken discards them. -/
theorem takesCutter_counts {u : Conveyor} (p : CutterPart) (present : Bool) (resync : u.resync = false) :
    (u.takesCutter p present).resync = false ∧
      if precedes (committedCount p.issued p.lotOpen) u.taken then (u.takesCutter p present).records = [] ∧
        (u.takesCutter p present).taken = 0 ∧ (u.takesCutter p present).retired = 0 ∧
        (u.takesCutter p present).windowOpen = false
      else (u.takesCutter p present).records = u.records ∧ (u.takesCutter p present).taken = u.taken ∧
        (u.takesCutter p present).retired = u.retired := by
  unfold Conveyor.takesCutter; dsimp only; rw [if_neg (by simp [resync])]
  split
  · exact ⟨resync, rfl, rfl, rfl, rfl⟩
  · exact ⟨resync, rfl, rfl, rfl⟩

theorem takesCutter_rest (u : Conveyor) (p : CutterPart) (present : Bool) :
    (u.takesCutter p present).rest = u.rest.takesCutter p present := by
  have advance : u.rest.advance = u.advance := rfl
  have resync : u.rest.resync = u.resync := rfl
  have taken : u.rest.taken = u.taken := rfl
  unfold Conveyor.takesCutter; dsimp only; rw [advance, resync, taken]; repeat' split
  all_goals rfl

/-- The conveyor's rest after a CUTTER's STATUS is that of the STATUS taken. -/
theorem cutterStatus_convRest {s : State} {n : Station} {x : StatusCommon} (p : CutterPart) (hears : s.hears = true)
    (role : s.isRole .conveyor = true) (other : n ≠ s.station) (known : (s.entry n).isSome = true)
    (cutter : x.role = Role.code .cutter) :
    ∃ t, exec (.stateTaken n (Entry.status ⟨x, .cutter p⟩).bytes) s = .next t ∧
      t.conv.rest = (s.conv.takesCutter p ((acceptFrame n s).presentOf .cutter == some n)).rest := by
  have fits : payloadFits .state (Entry.status ⟨x, .cutter p⟩).bytes = true := by rw [payloadFits, statusBytes_length]; rfl
  obtain ⟨b, t, bRest, next, rest⟩ := stateTaken_rest hears other known fits (readEntries_cutterStatus p cutter)
  have bRole : b.isRole .conveyor = true := (isRole_of_rest bRest _).trans ((acceptFrame_isRole n s _).trans role)
  refine ⟨t, next, ?_⟩
  rw [conv_of_rest rest, takeEntry, takeStatus_conveyor bRole, State.withConv_conv, storeStatus_conv,
    presentOf_of_claim (claim_of_rest bRest), takesCutter_rest, takesCutter_rest, conv_of_rest bRest, acceptFrame_conv]

theorem cutterStatusAtConveyor {s : State} {n : Station} {x : StatusCommon} (p : CutterPart) (hears : s.hears = true)
    (other : n ≠ s.station) (known : (s.entry n).isSome = true) (role : s.isRole .conveyor = true)
    (cutter : x.role = Role.code .cutter) :
    ∃ t, exec (.stateTaken n (Entry.status ⟨x, .cutter p⟩).bytes) s = .next t ∧ t.conv.advance = some p.advance ∧
      t.conv.stray = (if s.conv.advance.isNone ∨ s.conv.advance = some p.advance then s.conv.stray else 0) ∧
      t.conv.retires = s.conv.retires ∧ t.conv.beltTime = s.conv.beltTime ∧
      (s.conv.resync = true → t.conv.records = s.conv.records ∧
        if (acceptFrame n s).presentOf .cutter = some n then t.conv.resync = false ∧
          t.conv.taken = committedCount p.issued p.lotOpen ∧ t.conv.retired = committedCount p.issued p.lotOpen
        else t.conv.resync = true ∧ t.conv.taken = s.conv.taken ∧ t.conv.retired = s.conv.retired) ∧
      (s.conv.resync = false → t.conv.resync = false ∧
        if precedes (committedCount p.issued p.lotOpen) s.conv.taken then t.conv.records = [] ∧ t.conv.taken = 0 ∧
          t.conv.retired = 0 ∧ t.conv.windowOpen = false
        else t.conv.records = s.conv.records ∧ t.conv.taken = s.conv.taken ∧ t.conv.retired = s.conv.retired) := by
  obtain ⟨t, next, same⟩ := cutterStatus_convRest p hears role other known cutter
  have counts := takesCutter_counts (u := s.conv) p ((acceptFrame n s).presentOf .cutter == some n)
  have resyncs := takesCutter_resync (u := s.conv) p ((acceptFrame n s).presentOf .cutter == some n)
  obtain ⟨advance, stray, retires, beltTime⟩ := takesCutter_fields s.conv p ((acceptFrame n s).presentOf .cutter == some n)
  generalize s.conv.takesCutter p ((acceptFrame n s).presentOf .cutter == some n) = u at *
  have hRecords : t.conv.records = u.records := congrArg (·.records) same
  have hResync : t.conv.resync = u.resync := congrArg (·.resync) same
  have hTaken : t.conv.taken = u.taken := congrArg (·.taken) same
  have hRetired : t.conv.retired = u.retired := congrArg (·.retired) same
  have hWindow : t.conv.windowOpen = u.windowOpen := congrArg (·.windowOpen) same
  refine ⟨t, next, (congrArg (·.advance) same).trans advance, (congrArg (·.stray) same).trans stray,
    (congrArg (·.retires) same).trans retires, (congrArg (·.beltTime) same).trans beltTime, fun resync => ?_,
    fun resync => ?_⟩
  · rw [hRecords, hResync, hTaken, hRetired]; simpa only [beq_iff_eq] using resyncs resync
  · rw [hRecords, hResync, hTaken, hRetired, hWindow]; exact counts resync

end Sys2Proof.Machine
end

section
/-! A LOT at the conveyor (R84, R86), a CONVEYOR's STATUS at the CUTTER (R82), a ROW and an ANSWER at a CAB (R124, R173). -/

namespace Sys2Proof.Machine

/-! ## A LOT (R84, R86) -/

/-- Windows that open, and retirements at them, leave the count of lots taken and the stray mass. -/
theorem openWindows_counts (fuel : Nat) (s : State) :
    (openWindows fuel s).conv.taken = s.conv.taken ∧ (openWindows fuel s).conv.stray = s.conv.stray := by
  induction fuel generalizing s with
  | zero => exact ⟨rfl, rfl⟩
  | succ fuel ih =>
    unfold openWindows
    split
    · exact ⟨rfl, rfl⟩
    · rename_i r queued _
      split
      · exact ⟨rfl, rfl⟩
      · split
        · obtain ⟨large, small, conv⟩ := retireHead_conv { r with measured := 0 } queued s
          obtain ⟨taken, stray⟩ := ih (retireHead { r with measured := 0 } queued s)
          rw [conv] at taken stray
          exact ⟨taken, stray⟩
        · exact ⟨rfl, rfl⟩

theorem openWindow_open {s : State} (h : s.conv.windowOpen = true) : openWindow s = s := by
  unfold openWindow openWindows
  cases s.conv.records with
  | nil => rfl
  | cons r queued => simp [h]

/-- A window that is not empty keeps the only record. -/
theorem openWindow_single {s : State} {r : LotRec} (h : s.conv.records = [r]) (closed : s.conv.windowOpen = false)
    (some : s.lotOpening r < s.lotClose r) : (openWindow s).conv.records = [r] := by
  by_cases time : s.lotOpening r ≤ s.conv.beltTime
  · rw [openWindow_opens h closed time some]; exact h
  · have waits : openWindow s = s := by
      unfold openWindow openWindows
      simp [h, Nat.not_le.1 time]
    rw [waits, h]

/-- The record of a LOT taken now. -/
def Conveyor.lotRecord (u : Conveyor) (l : LotEntry) : LotRec := { lot := l, arrival := u.beltTime, measured := 0 }

/-- The next lot, while fewer than 16 are held. -/
def Conveyor.takesLot (u : Conveyor) (l : LotEntry) : Prop := u.resync = false ∧ l.number = u.taken ∧ u.records.length < 16

theorem takeLot_refuses {s : State} {l : LotEntry} (h : ¬s.conv.takesLot l) : takeLot l s = s := by
  unfold takeLot; rw [if_pos]
  by_contra takes
  simp only [Bool.not_eq_true, Bool.or_eq_false_iff, decide_eq_false_iff_not, bne_eq_false_iff_eq, not_le] at takes
  exact h ⟨takes.1.1, takes.1.2, takes.2⟩

/-- The unit with a LOT's record put at the end. -/
def Conveyor.appends (u : Conveyor) (l : LotEntry) : Conveyor :=
  { u with records := u.records ++ [u.lotRecord l], taken := u.taken + 1 }

theorem takeLot_eq {s : State} {l : LotEntry} (h : s.conv.takesLot l) :
    takeLot l s = openWindow (s.withConv fun u => u.appends l) := by
  obtain ⟨resync, next, room⟩ := h
  unfold takeLot; rw [if_neg (by simp [resync, next, room])]; rfl

theorem takeLot_takes {s : State} {l : LotEntry} (h : s.conv.takesLot l) :
    (takeLot l s).conv.taken = s.conv.taken + 1 ∧ (takeLot l s).conv.stray = s.conv.stray ∧
      (s.conv.windowOpen = true → (takeLot l s).conv.records = s.conv.records ++ [s.conv.lotRecord l]) ∧
      (s.conv.windowOpen = false → s.conv.records = [] →
        s.lotOpening (s.conv.lotRecord l) < s.lotClose (s.conv.lotRecord l) →
        (takeLot l s).conv.records = [s.conv.lotRecord l]) := by
  have records : (s.withConv fun u => u.appends l).conv.records = s.conv.records ++ [s.conv.lotRecord l] := rfl
  obtain ⟨taken, stray⟩ := openWindows_counts 17 (s.withConv fun u => u.appends l)
  rw [takeLot_eq h]
  refine ⟨taken, stray, fun opened => ?_, fun closed none some => ?_⟩
  · rw [openWindow_open (s := s.withConv fun u => u.appends l) opened, records]
  · exact openWindow_single (s := s.withConv fun u => u.appends l) (by rw [records, none]; rfl) closed some

theorem lotTaken {s : State} {n : Station} (l : LotEntry) (hears : s.hears = true) (other : n ≠ s.station)
    (known : (s.entry n).isSome = true) (role : s.isRole .conveyor = true) :
    let r : LotRec := { lot := l, arrival := s.conv.beltTime, measured := 0 }
    ∃ t, exec (.stateTaken n (Entry.lot l).bytes) s = .next t ∧
      if (acceptFrame n s).presentOf .cutter = some n ∧ s.conv.resync = false ∧ l.number = s.conv.taken ∧
          s.conv.records.length < 16 then
        t.conv.taken = s.conv.taken + 1 ∧ t.conv.stray = s.conv.stray ∧
          (s.conv.windowOpen = true → t.conv.records = s.conv.records ++ [r]) ∧
          (s.conv.windowOpen = false → s.conv.records = [] → s.lotOpening r < s.lotClose r → t.conv.records = [r])
      else t.rest = (acceptFrame n s).rest := by
  intro r
  obtain ⟨b, t, bRest, next, rest⟩ := stateTaken_rest hears other known (lotBytes_fit l) (readEntries_one (readEntry_lot l))
  have bRole : b.isRole .conveyor = true := (isRole_of_rest bRest _).trans ((acceptFrame_isRole n s _).trans role)
  have present := presentOf_of_claim (claim_of_rest bRest) .cutter
  have conv : (acceptFrame n s).conv = s.conv := acceptFrame_conv n s
  have taken : b.conv.taken = s.conv.taken := conv ▸ convTaken_of_rest bRest
  have stray : b.conv.stray = s.conv.stray := conv ▸ convStray_of_rest bRest
  have records : b.conv.records = s.conv.records := conv ▸ convRecords_of_rest bRest
  have resync : b.conv.resync = s.conv.resync := conv ▸ convResync_of_rest bRest
  have window : b.conv.windowOpen = s.conv.windowOpen := conv ▸ convWindowOpen_of_rest bRest
  have beltTime : b.conv.beltTime = s.conv.beltTime := conv ▸ convBeltTime_of_rest bRest
  have lastClose : b.conv.lastClose = s.conv.lastClose := conv ▸ convLastClose_of_rest bRest
  have image : b.image = s.image := (image_of_rest bRest).trans (acceptFrame_image n s)
  have record : b.conv.lotRecord l = r := by rw [Conveyor.lotRecord, beltTime]
  have opening : b.lotOpening r = s.lotOpening r := by simp only [State.lotOpening, lastClose, image]
  have close : b.lotClose r = s.lotClose r := by simp only [State.lotClose, image]
  have takes : b.conv.takesLot l ↔ s.conv.resync = false ∧ l.number = s.conv.taken ∧ s.conv.records.length < 16 := by
    rw [Conveyor.takesLot, resync, taken, records]
  rw [takeEntry, bRole, present, Bool.true_and] at rest
  refine ⟨t, next, ?_⟩
  split
  · rename_i h
    obtain ⟨here, lot⟩ := h
    rw [here, beq_self_eq_true, if_pos rfl] at rest
    have result := takeLot_takes (takes.2 lot)
    rw [record, opening, close, taken, stray, records, window] at result
    rw [convTaken_of_rest rest, convStray_of_rest rest, convRecords_of_rest rest]
    exact result
  · rename_i h
    rw [rest, ← bRest]
    split
    · rename_i here
      rw [takeLot_refuses fun lot => h ⟨beq_iff_eq.1 here, takes.1 lot⟩]
    · rfl

/-! ## A CONVEYOR's STATUS at the CUTTER (R82) -/

/-- The lots passed are read off their numbers. -/
theorem passedLots_length_congr (r : Word16) {l m : List Lot}
    (h : l.map (fun x => { x with isOpen := false }) = m.map fun x => { x with isOpen := false }) :
    (passedLots r l).length = (passedLots r m).length := by
  have masked : ∀ k : List Lot, (passedLots r k).length = (passedLots r (k.map fun x => { x with isOpen := false })).length := by
    intro k; rw [passedLots, passedLots, List.takeWhile_map, List.length_map]; rfl
  rw [masked l, masked m, h]

section
variable {g v : LotRing} {p : ConveyorPart}

theorem takesConveyor_resyncs (same : v.rest = g.rest) (resync : p.resync = true) :
    (v.takesConveyor p).rest = { g with resync := true }.rest := by
  unfold LotRing.takesConveyor; dsimp only; rw [if_pos resync]
  exact congrArg (fun w : LotRing => { w with resync := true }) same

theorem takesConveyor_refuses (resync : p.resync = false)
    (ahead : precedes (committedCount v.issued (v.lots.find? (·.isOpen)).isSome) p.taken = true ∨
      precedes (committedCount v.issued (v.lots.find? (·.isOpen)).isSome) p.retired = true) : v.takesConveyor p = v := by
  unfold LotRing.takesConveyor; dsimp only
  rw [if_neg (by simp [resync]), if_pos (by simpa using ahead)]

/-- Counts that are not ahead are taken, and the lots before the count of retirements leave the ring. -/
theorem takesConveyor_counts (same : v.rest = g.rest) (resync : p.resync = false)
    (taken : precedes (committedCount v.issued (v.lots.find? (·.isOpen)).isSome) p.taken = false)
    (retired : precedes (committedCount v.issued (v.lots.find? (·.isOpen)).isSome) p.retired = false) :
    (v.takesConveyor p).rest = (if precedes g.retiredHeld p.retired then
      { g with
        lots := g.lots.drop (passedLots p.retired g.lots).length, takenHeld := p.taken, retiredHeld := p.retired, resync := false
        accountLost := if passedLots p.retired g.lots = [] then g.accountLost else g.resync }
      else { g with takenHeld := p.taken, resync := false }).rest := by
  have lots : v.lots.map (fun x => { x with isOpen := false }) = g.lots.map fun x => { x with isOpen := false } :=
    congrArg (·.lots) same
  have length := passedLots_length_congr p.retired lots
  have held : v.retiredHeld = g.retiredHeld := congrArg (·.retiredHeld) same
  have lost : v.accountLost = g.accountLost := congrArg (·.accountLost) same
  have resyncing : v.resync = g.resync := congrArg (·.resync) same
  have none : (passedLots p.retired v.lots).isEmpty = true ↔ passedLots p.retired g.lots = [] := by
    rw [List.isEmpty_iff, ← List.length_eq_zero_iff, length, List.length_eq_zero_iff]
  unfold LotRing.takesConveyor; dsimp only
  rw [if_neg (by simp [resync]), if_neg (by simp [taken, retired])]
  by_cases ahead : precedes g.retiredHeld p.retired = true
  · have drop : (v.lots.drop (passedLots p.retired v.lots).length).map (fun x => { x with isOpen := false }) =
        (g.lots.drop (passedLots p.retired g.lots).length).map fun x => { x with isOpen := false } := by
      rw [List.map_drop, List.map_drop, lots, length]
    have accounts : (if (passedLots p.retired v.lots).isEmpty = true then v.accountLost else v.resync) =
        if passedLots p.retired g.lots = [] then g.accountLost else g.resync := by
      rw [lost, resyncing]; exact if_congr none rfl rfl
    rw [if_pos (held ▸ ahead), if_pos ahead]
    simp only [LotRing.rest, LotRing.mk.injEq, true_and]
    exact ⟨drop, congrArg (·.issued) same, congrArg (·.cutMass) same, accounts, congrArg (·.spanPart) same⟩
  · rw [if_neg (held ▸ ahead), if_neg ahead]
    exact congrArg (fun w : LotRing => { w with takenHeld := p.taken, resync := false }) same

end

/-- The ring at the CUTTER once a STATE frame has been accepted: the permit may have gone off and the open lot with it. -/
theorem stateAccepted_ring {n : Station} {s : State} (role : s.isRole .cutter = true) (other : n ≠ s.station)
    (known : (s.entry n).isSome = true) :
    (stateAccepted n s).ring = s.ring ∨ (stateAccepted n s).ring = (commitLot s).ring := by
  have heard : (noteEarly s (acceptFrame n s)).ring = s.ring := by rw [noteEarly_eq]; exact acceptFrame_ring n s
  have quiet : claimOnState n (noteEarly s (acceptFrame n s)) = noteEarly s (acceptFrame n s) :=
    claimOnState_none (.inr (.inr ⟨by simpa using other, by
      rw [State.entry, noteEarly_claim]; exact acceptFrame_known.trans known⟩))
  have ring : (stateAccepted n s).ring = (sync (noteEarly s (acceptFrame n s))).ring := by
    rw [stateAccepted, subEvent, quiet, noteEarly_eq]
  have follows := sync_ring (s := noteEarly s (acceptFrame n s)) (by simpa using role)
  rw [ring]
  rcases follows with same | ⟨-, -, commits⟩
  · exact .inl (same.trans heard)
  · exact .inr (by rw [commits]; simp only [commitLot, heard])

theorem takeStatus_conveyorRing {s : State} {n : Station} {x : StatusCommon} (p : ConveyorPart)
    (role : s.isRole .cutter = true) (present : s.presentOf .conveyor = some n) :
    (takeStatus n ⟨x, .conveyor p⟩ s).ring = s.ring.takesConveyor p := by
  have stored : (storeStatus n ⟨x, .conveyor p⟩ s).role = some .cutter := role_of_isRole (by simpa using role)
  have here : ((storeStatus n ⟨x, .conveyor p⟩ s).presentOf .conveyor == some n) = true := by
    rw [storeStatus_presentOf, present]; exact beq_self_eq_true _
  unfold takeStatus; dsimp only
  rw [stored]; dsimp only
  rw [(retryBreach_ring _).1, if_pos here, cutterTakesConveyor_eq, ← storeStatus_ring n ⟨x, .conveyor p⟩ s]

/-- The CUTTER's ring after the STATUS of the PRESENT CONVEYOR, before the end of the event lets commits follow. -/
theorem conveyorStatus_ring {s : State} {n : Station} {x : StatusCommon} (p : ConveyorPart) (hears : s.hears = true)
    (other : n ≠ s.station) (known : (s.entry n).isSome = true) (role : s.isRole .cutter = true)
    (conveyor : x.role = Role.code .conveyor) (present : (acceptFrame n s).presentOf .conveyor = some n) :
    ∃ t v, exec (.stateTaken n (Entry.status ⟨x, .conveyor p⟩).bytes) s = .next t ∧
      t.ring.rest = (LotRing.takesConveyor v p).rest ∧
      (v = s.ring ∨ v = (commitLot s).ring) := by
  have named : statusFits ⟨x, .conveyor p⟩ = true := by
    unfold statusFits; dsimp only; rw [conveyor, Role.ofCode_code]; rfl
  have fits : payloadFits .state (Entry.status ⟨x, .conveyor p⟩).bytes = true := by
    simpa using stateFits_status ⟨x, .conveyor p⟩ (bytes := []) (by simp)
  have read : readEntries (Entry.status ⟨x, .conveyor p⟩).bytes = [.status ⟨x, .conveyor p⟩] :=
    readEntries_one (by simpa using readEntry_status named [])
  have bRest := stateAccepted_known other known
  refine ⟨_, (stateAccepted n s).ring, stateTaken_one hears fits other read, ?_, stateAccepted_ring role other known⟩
  rw [ring_of_rest (finish_rest _ _), ring_of_rest (rest_subEvent _ _), takeEntry, takeStatus_conveyorRing p
    ((isRole_of_rest bRest _).trans (by simpa using role)) ((presentOf_of_claim (claim_of_rest bRest) _).trans present)]

theorem commitLot_ringRest (s : State) : (commitLot s).ring.rest = s.ring.rest := by
  simp [commitLot, LotRing.rest, Function.comp_def]

theorem conveyorStatusAtCutter {s : State} {n : Station} {x : StatusCommon} (p : ConveyorPart) (hears : s.hears = true)
    (other : n ≠ s.station) (known : (s.entry n).isSome = true) (role : s.isRole .cutter = true)
    (conveyor : x.role = Role.code .conveyor) (present : (acceptFrame n s).presentOf .conveyor = some n) :
    let passed := passedLots p.retired s.ring.lots
    ∃ t, exec (.stateTaken n (Entry.status ⟨x, .conveyor p⟩).bytes) s = .next t ∧
      (p.resync = true → t.ring.rest = { s.ring with resync := true }.rest) ∧
      (p.resync = false → s.openLot = none → (precedes s.ring.issued p.taken ∨ precedes s.ring.issued p.retired) →
        t.ring.rest = s.ring.rest) ∧
      (p.resync = false → (∀ b, b = s.openLot.isSome ∨ b = false →
          precedes (committedCount s.ring.issued b) p.taken = false ∧
            precedes (committedCount s.ring.issued b) p.retired = false) →
        t.ring.rest = (if precedes s.ring.retiredHeld p.retired then
            { s.ring with
              lots := s.ring.lots.drop passed.length, takenHeld := p.taken, retiredHeld := p.retired, resync := false
              accountLost := if passed = [] then s.ring.accountLost else s.ring.resync }
          else { s.ring with takenHeld := p.taken, resync := false }).rest) := by
  intro passed
  obtain ⟨t, v, next, ring, follows⟩ := conveyorStatus_ring p hears other known role conveyor present
  have same : v.rest = s.ring.rest := by
    rcases follows with same | commits
    · rw [same]
    · rw [commits, commitLot_ringRest]
  have issued : v.issued = s.ring.issued := congrArg (·.issued) same
  have openLot : (v.lots.find? (·.isOpen)).isSome = s.openLot.isSome ∨ (v.lots.find? (·.isOpen)).isSome = false := by
    rcases follows with same | commits
    · exact .inl (by rw [same]; rfl)
    · refine .inr ?_
      rw [commits, show (commitLot s).ring.lots.find? (·.isOpen) = none from commitLot_openLot s]; rfl
  refine ⟨t, next, fun resync => ring.trans (takesConveyor_resyncs same resync), fun counts none ahead => ?_,
    fun counts behind => ?_⟩
  · have closed : (v.lots.find? (·.isOpen)).isSome = false := by
      rcases openLot with as | closed
      · rw [as, none]; rfl
      · exact closed
    rw [ring, takesConveyor_refuses counts (by rw [closed, issued]; exact ahead), same]
  · obtain ⟨taken, retired⟩ := behind _ openLot
    rw [← issued] at taken retired
    exact ring.trans (takesConveyor_counts same counts taken retired)

end Sys2Proof.Machine
end

section
/-! A ROW and an ANSWER at a CAB (R124, R173), and the obligation about the entries of a STATE frame. -/

namespace Sys2Proof.Machine

/-! ## A ROW (R20, R173) -/

/-- The map of a CAB with a row replaced, which is then of the present map. -/
def CabMap.takesRow (m : CabMap) (k : Fin 24) (e : RowEntry) : CabMap :=
  { m with rows := m.rows.set k (some e), old := m.old.set k false }

theorem takeRow_eq {s : State} (n : Station) {e : RowEntry} {k : Fin 24} (role : s.isRole .cab = true)
    (row : e.row = BitVec.ofNat 8 k.val) : takeRow n e s =
      if s.presentOf .cutter = some n then { s with cabMap := s.cabMap.takesRow k e } else s := by
  unfold takeRow
  rw [role, row, rowOfByte_ofNat, Bool.true_and]
  simp only [beq_iff_eq]; rfl

theorem rest_withCabMap (s : State) (m : CabMap) : ({ s with cabMap := m } : State).rest = { s.rest with cabMap := m } := rfl

theorem rowTaken {s : State} {n : Station} {e : RowEntry} {k : Fin 24} (hears : s.hears = true) (other : n ≠ s.station)
    (known : (s.entry n).isSome = true) (role : s.isRole .cab = true) (row : e.row = BitVec.ofNat 8 k.val) :
    ∃ t, exec (.stateTaken n (Entry.row e).bytes) s = .next t ∧
      t.rest = (if (acceptFrame n s).presentOf .cutter = some n then
        { acceptFrame n s with cabMap := (acceptFrame n s).cabMap.takesRow k e } else acceptFrame n s).rest := by
  obtain ⟨b, t, bRest, next, rest⟩ := stateTaken_rest hears other known (rowBytes_fit e) (readEntries_one (readEntry_row e))
  have bRole : b.isRole .cab = true := (isRole_of_rest bRest _).trans ((acceptFrame_isRole n s _).trans role)
  refine ⟨t, next, ?_⟩
  rw [rest, takeEntry, takeRow_eq n bRole row, presentOf_of_claim (claim_of_rest bRest)]
  split
  · exact (rest_withCabMap b _).trans (by rw [bRest, cabMap_of_rest bRest]; rfl)
  · exact bRest

/-! ## An ANSWER (R124) -/

theorem storeStatus_panel (n : Station) (x : StatusRecord) (s : State) : (storeStatus n x s).panel = s.panel := by
  obtain ⟨_, h, -⟩ := storeStatus_eq n x s; rw [h]

/-- A STATUS leaves the panel of a CAB. -/
theorem takeStatus_panel {s : State} (n : Station) (x : StatusRecord) (role : s.isRole .cab = true) :
    (takeStatus n x s).panel = s.panel := by
  have stored : (storeStatus n x s).role = some .cab := role_of_isRole (by simpa using role)
  rw [← storeStatus_panel n x s]
  unfold takeStatus; dsimp only; rw [stored]
  cases x.part with
  | cutter p =>
    dsimp only; split
    · unfold endHeld; split <;> rfl
    · rfl
  | _ => rfl

/-- The panel with an ANSWER to its entry taken. -/
def PanelUnit.takesAnswer (u : PanelUnit) (p : PendingOrder) (a : AnswerEntry) : PanelUnit :=
  { u with
    orders := u.orders.filter fun q => !(q.number == p.number && q.target == p.target)
    status := .answer p.kind p.target a.code, answerMissing := false
    tagFirst := if p.kind == .tagFirst && a.code != AnswerCode.done.code then false else u.tagFirst }

theorem takeAnswer_cab {s : State} {n : Station} {a : AnswerEntry} {p : PendingOrder} (role : s.isRole .cab = true)
    (mine : a.requester = BitVec.ofNat 8 s.station.val)
    (pending : s.panel.orders.find? (fun q => q.number == a.number && q.target == n && q.sent.isSome) = some p) :
    takeAnswer n a s = s.withPanel fun u => u.takesAnswer p a := by
  unfold takeAnswer takePanelAnswer
  rw [if_neg (by simp [mine]), role_of_isRole role, pending]; rfl

theorem answerTaken {s : State} {n : Station} {r : StatusRecord} {a : AnswerEntry} {p : PendingOrder}
    (hears : s.hears = true) (other : n ≠ s.station) (known : (s.entry n).isSome = true) (role : s.isRole .cab = true)
    (fits : statusFits r = true) (mine : a.requester = BitVec.ofNat 8 s.station.val)
    (pending : s.panel.orders.find? (fun q => q.number == a.number && q.target == n && q.sent.isSome) = some p) :
    ∃ t, exec (.stateTaken n ((Entry.status r).bytes ++ (Entry.answer a).bytes)) s = .next t ∧
      t.panel.orders = s.panel.orders.filter (fun q => !(q.number == p.number && q.target == p.target)) ∧
      t.panel.status = .answer p.kind p.target a.code ∧ t.panel.answerMissing = false ∧
      t.panel.tagFirst = (if p.kind = .tagFirst ∧ a.code ≠ AnswerCode.code .done then false else s.panel.tagFirst) ∧
      t.panel.page = s.panel.page ∧ t.panel.counter = s.panel.counter := by
  have payload := stateFits_status r (bytes := (Entry.answer a).bytes) (by simp [Entry.bytes])
  have next := stateTaken_takes hears payload other
  rw [readEntries_status_one fits (readEntry_answer a), takeEntries_cons, takeEntries_cons, takeEntries_nil] at next
  have bRest := stateAccepted_known other known
  generalize stateAccepted n s = b at bRest next
  have bRole : b.isRole .cab = true := (isRole_of_rest bRest _).trans ((acceptFrame_isRole n s _).trans role)
  have cRest := rest_subEvent (fun s => takeEntry n s (.status r)) b
  have cKept := entriesKeep_takeEntry n b (.status r)
  generalize subEvent (fun s => takeEntry n s (.status r)) b = c at cRest next
  have cRole : c.isRole .cab = true := (isRole_of_rest cRest _).trans ((isRole_of_keep cKept _).trans bRole)
  have cStation : c.station = s.station := by
    rw [station_of_rest cRest, cKept.station, station_of_rest bRest, acceptFrame_station]
  have cPanel : { c.panel with offer := none } = { s.panel with offer := none } := by
    have stored := panel_of_rest cRest
    rw [takeEntry, takeStatus_panel n r bRole] at stored
    rw [stored, panel_of_rest bRest, acceptFrame_panel]
  have orders : c.panel.orders = s.panel.orders := congrArg (·.orders) cPanel
  have tagFirst : c.panel.tagFirst = s.panel.tagFirst := congrArg (·.tagFirst) cPanel
  have answered := takeAnswer_cab (n := n) (a := a) (p := p) cRole (by rw [cStation]; exact mine) (by rw [orders]; exact pending)
  have panel := panel_of_rest ((finish_rest s (subEvent (fun s => takeEntry n s (.answer a)) c)).trans (rest_subEvent _ _))
  dsimp only at panel
  rw [takeEntry, answered, State.withPanel_panel] at panel
  generalize finish s (subEvent (fun s => takeEntry n s (.answer a)) c) = t at next panel
  refine ⟨t, next, (congrArg (·.orders) panel).trans (by rw [← orders]; rfl), congrArg (·.status) panel,
    congrArg (·.answerMissing) panel, (congrArg (·.tagFirst) panel).trans ?_,
    (congrArg (·.page) panel).trans (congrArg (·.page) cPanel), (congrArg (·.counter) panel).trans (congrArg (·.counter) cPanel)⟩
  rw [← tagFirst]
  simp [PanelUnit.takesAnswer]

/-- Settles O27: any STATUS by its record; a payload by the fold of its entries; the claim by the acceptance before them; and one
entry at a time by the role that reads it. -/
theorem statusEntryTaken : Obligations.StatusEntryTaken := by
  refine ⟨fun s n e r hears other held fits => statusTaken hears other held fits, fun s n payload hears other fits => ?_,
    fun s n payload hears fits => ?_, fun s n hears other known => ⟨fun x p role cutter => ?_, fun l role => ?_,
      fun x p role conveyor present => ?_, fun e k role row => ?_, fun r a p role fits mine pending => ?_⟩⟩
  · obtain ⟨replicas, retires⟩ := stateTaken_replicas payload other
    exact ⟨_, stateTaken_entered hears fits, replicas, retires⟩
  · refine ⟨_, stateTaken_entered hears fits, fun own => ?_, stateTaken_claims, stateTaken_keepsClaim⟩
    rw [finish_replicas, stateEntered, if_pos own, (stateAccepted_keeps n s).1]
  · exact cutterStatusAtConveyor p hears other known role cutter
  · exact lotTaken l hears other known role
  · exact conveyorStatusAtCutter p hears other known role conveyor present
  · exact rowTaken hears other known role row
  · exact answerTaken hears other known role fits mine pending

end Sys2Proof.Machine
end

section
/-! The acts of the commands keep queue, replicas and candidates in order (R92 to R96, R101): frames and claims. -/

namespace Sys2Proof.Machine

/-- An act leaves queue, replicas and candidates in order. -/
abbrev KeepsLists (f : State → State) : Prop := ∀ s, s.ListsSound → (f s).ListsSound

/-- An order's own rule leaves queue, replicas and candidates in order. -/
abbrev OrderKeepsLists (owner : State → AnswerCode × State) : Prop := ∀ s, s.ListsSound → (owner s).2.ListsSound

theorem keepsLists_foldl {α : Type} {f : State → α → State} (h : ∀ a, KeepsLists fun s => f s a) (l : List α) :
    KeepsLists fun s => l.foldl f s := by
  induction l with
  | nil => exact fun _ hs => hs
  | cons a l ih => exact fun s hs => ih _ (h a s hs)

/-! ## Replicas (R101) -/

theorem Replica.empty_sound : Replica.empty.Sound := by
  intro i j x y hx
  simp [Replica.empty] at hx

/-- A replica some of whose slots are emptied. -/
theorem Replica.Sound.of_slots {r q : Replica} (h : r.Sound)
    (hs : ∀ i x, q.slots.get i = some x → r.slots.get i = some x) : q.Sound :=
  fun i j x y hx hy => h i j x y (hs i x hx) (hs j y hy)

theorem maskSlots_get {mask : Byte} {slots : Tbl (Option NoticeEntry) 8} {i : Fin 8} {x : NoticeEntry}
    (h : (maskSlots mask slots).get i = some x) : slots.get i = some x := by
  rw [maskSlots, Tbl.get_mapIdx] at h
  split at h
  · exact h
  · cases h

/-- An entry of a code takes its slot; another slot of the code is emptied. -/
theorem tripSlots_sound {r : Replica} (h : r.Sound) (e : NoticeEntry) (i : Fin 8) :
    { r with slots := tripSlots e i r.slots }.Sound := by
  have other : ∀ k z, k ≠ i → (tripSlots e i r.slots).get k = some z → r.slots.get k = some z ∧ z.code ≠ e.code := by
    intro k z ne hz
    rw [tripSlots, Tbl.get_set_ne _ _ ne, Tbl.get_map] at hz
    split at hz
    · cases hz
    · rename_i differs
      rw [hz] at differs
      exact ⟨hz, by simpa using differs⟩
  have self : ∀ z, (tripSlots e i r.slots).get i = some z → z = e := by
    intro z hz; rw [tripSlots, Tbl.get_set_self] at hz; exact (Option.some.inj hz).symm
  intro k j x y hx hy code
  by_cases hk : k = i <;> by_cases hj : j = i
  · exact hk.trans hj.symm
  · subst hk; exact absurd (code.symm.trans (congrArg _ (self x hx))) (other j y hj hy).2
  · subst hj; exact absurd (code.trans (congrArg _ (self y hy))) (other k x hk hx).2
  · exact h k j x y (other k x hk hx).1 (other j y hj hy).1 code

theorem State.ListsSound.setReplica {s : State} (h : s.ListsSound) (n : Station) {r : Replica} (hr : r.Sound) :
    (s.setReplica n r).ListsSound := by
  obtain ⟨queue, replicas, cands⟩ := h
  refine ⟨queue, fun k => ?_, cands⟩
  rw [State.replica, State.setReplica_replicas, Tbl.get_set]
  split
  · exact hr
  · exact replicas k

/-- They are read from queue, replicas and the CAB's candidates. -/
theorem State.ListsSound.of_same {s t : State} (h : s.ListsSound) (hn : t.notices = s.notices)
    (hr : t.replicas = s.replicas) (hc : t.cab.cands = s.cab.cands) : t.ListsSound := by
  unfold State.ListsSound State.replica; rw [hn, hr, hc]; exact h

/-! ## Notices -/

/-- The notice operations touch queue and TRIP slots alone. -/
theorem State.ListsSound.of_noticesOnly {s t : State} (h : s.ListsSound) (only : NoticesOnly s t) (hq : t.notices.Sound) :
    t.ListsSound := by
  obtain ⟨-, replicas, cands⟩ := h
  refine ⟨hq, ?_, ?_⟩
  · rw [only]; exact replicas
  · rw [only]; exact cands

theorem keepsLists_raiseNotice (c : NoticeCode) : KeepsLists (raiseNotice c) := fun s h =>
  h.of_noticesOnly (noticesOnly_raiseNotice c s) (raiseNotice_sound c h.1)
theorem keepsLists_judgeNotices : KeepsLists judgeNotices := fun s h =>
  h.of_noticesOnly (noticesOnly_judgeNotices s) (judgeNotices_sound h.1)
theorem keepsLists_noteBreachEntered : KeepsLists noteBreachEntered := by
  intro s h; unfold noteBreachEntered; split <;> exact h
theorem keepsLists_retryBreach : KeepsLists retryBreach := fun _ h => retryBreach_lists h
theorem keepsLists_latchBreach : KeepsLists latchBreach := fun _ h =>
  keepsLists_noteBreachEntered _ (keepsLists_raiseNotice _ _ h)

theorem keepsLists_noteEarly (pre : State) : KeepsLists (noteEarly pre) := by
  intro s h; rw [noteEarly_eq]; exact h

/-- An event within a command ends in a recompute. -/
theorem keepsLists_subEvent {f : State → State} (h : KeepsLists f) : KeepsLists (subEvent f) := fun s hs =>
  keepsLists_noteEarly s _ (sync_displaySound (h s hs)).lists

theorem orderKeepsLists_ackNotice (slot raise : Byte) : OrderKeepsLists (ackNotice slot raise) := by
  intro s h
  refine ⟨ackNotice_sound slot raise h.1, ?_, ?_⟩
  · have same : (ackNotice slot raise s).2.replicas = s.replicas := by
      unfold ackNotice acknowledge; dsimp only; repeat' split
      all_goals rfl
    unfold State.replica; rw [same]; exact h.2.1
  · have same : (ackNotice slot raise s).2.cab = s.cab := by
      unfold ackNotice acknowledge; dsimp only; repeat' split
      all_goals rfl
    rw [same]; exact h.2.2

/-! ## The line -/

theorem keepsLists_followCounts : KeepsLists followCounts := by
  intro s h; unfold followCounts; dsimp only; repeat' split
  all_goals exact h
theorem keepsLists_acceptFrame (n : Station) : KeepsLists (acceptFrame n) := by
  intro s h; rw [acceptFrame_eq]; exact h
theorem keepsLists_rejectFrame (kind : FaultKind) (cls : Option FrameClass) (position : Fin 68) :
    KeepsLists (rejectFrame kind cls position) := fun _ h => keepsLists_followCounts _ h
theorem keepsLists_rejectChars (chars : List LineChar) : KeepsLists (rejectChars chars) := by
  intro s h; unfold rejectChars lineAtGap; dsimp only; split
  · exact h
  · rename_i kind cls position _
    have rejected := keepsLists_rejectFrame kind cls position s h
    split <;> exact rejected
theorem keepsLists_sendError (cls : FrameClass) (position : Fin 68) : KeepsLists (sendError cls position) := by
  intro s h; unfold sendError; dsimp only; split
  · exact h
  · exact keepsLists_followCounts _ h
theorem keepsLists_meetSendError (character : Fin 68) : KeepsLists (meetSendError character) := by
  intro s h; unfold meetSendError; split
  · exact h
  · exact keepsLists_sendError _ _ s h
theorem keepsLists_enterCandidate (n : Station) (c : ClaimFrame) : KeepsLists (enterCandidate n c) := by
  intro s h; unfold enterCandidate; dsimp only; repeat' split
  all_goals exact h
theorem keepsLists_enterClaim (cause : Option (Station × ClaimFrame)) : KeepsLists (enterClaim cause) := by
  intro s h; cases cause with
  | none => exact h
  | some sent => exact keepsLists_enterCandidate sent.1 sent.2 _ h
theorem keepsLists_lineGap : KeepsLists lineGap := by
  intro s h; unfold lineGap countGap; split
  · split
    · exact h
    · split
      · exact keepsLists_enterClaim none _ h
      · exact h
  · exact h
theorem keepsLists_contentionEnds : KeepsLists contentionEnds := by
  intro s h; unfold contentionEnds; split <;> exact h

theorem keepsLists_movePermit : KeepsLists movePermit := by
  intro s h; unfold movePermit; repeat' split
  all_goals exact h
theorem keepsLists_enterInactive (cause : InactiveCause) : KeepsLists (enterInactive cause) := by
  intro s h; unfold enterInactive; dsimp only; split
  · exact keepsLists_movePermit _ h
  · exact h
theorem keepsLists_goDuplicate : KeepsLists goDuplicate := fun _ h => keepsLists_enterInactive .duplicate _ h
theorem keepsLists_loseArbitration (character : Fin 68) : KeepsLists (loseArbitration character) := by
  intro s h; unfold loseArbitration; repeat' split
  · exact h
  · exact keepsLists_sendError _ _ s h
  · exact keepsLists_goDuplicate s h
  · exact h

/-! ## Frames sent whole -/

theorem keepsLists_leaveSlot (f : OutFrame) : KeepsLists (leaveSlot f) := by
  intro s h; unfold leaveSlot placeMapFrame; repeat' split
  all_goals exact h
theorem keepsLists_stateSent (f : StateFrame) : KeepsLists (stateSent f) := by
  intro s h; unfold stateSent; rw [entries_sent]; exact h
theorem keepsLists_reportSent (f : OutFrame) : KeepsLists (reportSent f) := by
  intro s h
  cases f with
  | trip n => exact h
  | claim c => simp only [reportSent, claimSent]; split <;> exact h
  | order o =>
    simp only [reportSent, requestSent]; repeat' split
    all_goals exact h
  | map r => exact h
  | state f => exact keepsLists_stateSent f s h
theorem keepsLists_sentWhole (c : FrameClass) : KeepsLists (sentWhole c) := by
  intro s h; unfold sentWhole; split
  · exact h
  · exact keepsLists_reportSent _ _ (keepsLists_leaveSlot _ _ (keepsLists_followCounts _ h))

/-! ## Claims -/

theorem keepsLists_setTagRange (i : Fin 2) (r : TagRange) : KeepsLists (setTagRange i r) := by
  intro s h; rw [setTagRange_eq]; exact h
theorem keepsLists_discardRecords (n : Station) : KeepsLists (discardRecords n) := by
  intro s h; rw [discardRecords_eq]; exact h.setReplica n Replica.empty_sound
theorem keepsLists_withdrawnTakes (n : Station) (c : ClaimFrame) : KeepsLists (withdrawnTakes n c) := by
  intro s h; unfold withdrawnTakes; dsimp only; split
  · exact keepsLists_enterInactive _ _ h
  · exact h
theorem keepsLists_takeOwnNumber (c : ClaimFrame) : KeepsLists (takeOwnNumber c) := by
  intro s h; unfold takeOwnNumber; repeat' split
  · exact keepsLists_goDuplicate s h
  all_goals exact h
theorem keepsLists_takeClaim (n : Station) (c : ClaimFrame) : KeepsLists (takeClaim n c) := by
  intro s h; unfold takeClaim; split
  · exact keepsLists_takeOwnNumber c s h
  · have discarded : (if c.joining || s.serialChanged n c then discardRecords n s else s).ListsSound := by
      split
      · exact keepsLists_discardRecords n s h
      · exact h
    dsimp only
    generalize (if c.joining || s.serialChanged n c then discardRecords n s else s) = v at discarded
    split
    · exact keepsLists_enterClaim _ v discarded
    · exact keepsLists_enterClaim _ v discarded
    · have entered := keepsLists_enterCandidate n c v discarded
      split <;> exact entered
    · exact keepsLists_withdrawnTakes n c v discarded
    · exact discarded
theorem keepsLists_takeClaimPayload (n : Station) (payload : List Byte) : KeepsLists (takeClaimPayload n payload) := by
  intro s h; unfold takeClaimPayload; split
  · exact keepsLists_takeClaim n _ s h
  · exact h
theorem keepsLists_cutterClose (first : Bool) : KeepsLists (cutterClose first) := by
  intro s h; rw [cutterClose_eq]; exact h.of_same rfl rfl rfl
theorem keepsLists_closeClaim : KeepsLists closeClaim := by
  intro s h
  cases hc : s.claim.candidate with
  | none => unfold closeClaim; rw [hc]; exact h
  | some cand =>
    by_cases excluded : ((closedRoster s cand).get s.station).map (·.state) = some .excluded
    · rw [closeClaim_excluded hc excluded]; exact keepsLists_enterInactive .role s h
    · have closed : (claimCloses s cand).ListsSound := h
      rw [closeClaim_runs hc excluded]; split
      · exact keepsLists_cutterClose _ _ closed
      · exact closed
theorem keepsLists_windowExpires : KeepsLists windowExpires := by
  intro s h; unfold windowExpires; repeat' split
  · exact h
  · exact keepsLists_closeClaim s h
  · exact h
theorem keepsLists_watchExpires : KeepsLists watchExpires := by
  intro s h; unfold watchExpires; split <;> exact h
theorem keepsLists_silenceExpires (n : Station) : KeepsLists (silenceExpires n) := by
  intro s h; unfold silenceExpires; repeat' split
  all_goals exact h

end Sys2Proof.Machine
end

section
/-! The acts of the commands keep queue, replicas and candidates in order: entries, orders, units and panel. -/

namespace Sys2Proof.Machine

/-! ## Entries, TRIP and MAP frames (R168, R172, R176) -/

theorem keepsLists_storeStatus (n : Station) (r : StatusRecord) : KeepsLists (storeStatus n r) := by
  intro s h
  have stored : (s.setReplica n { s.replica n with
      status := some r, slots := maskSlots r.common.mask (s.replica n).slots }).ListsSound :=
    h.setReplica n ((h.2.1 n).of_slots fun _ _ => maskSlots_get)
  unfold storeStatus; dsimp only; split <;> exact stored
theorem keepsLists_takeStatus (n : Station) (r : StatusRecord) : KeepsLists (takeStatus n r) := by
  intro s h
  have stored := keepsLists_storeStatus n r s h
  unfold takeStatus; dsimp only
  generalize storeStatus n r s = v at stored
  split
  · refine retryBreach_lists ?_
    unfold cutterTakesConveyor; dsimp only; repeat' split
    all_goals exact stored
  · refine retryBreach_lists ?_
    unfold cutterTakesCab; split <;> exact stored
  · exact retryBreach_lists stored
  · unfold conveyorTakesCutter; dsimp only; repeat' split
    all_goals exact stored
  · unfold endHeld; repeat' split
    all_goals exact stored
  · exact stored
theorem keepsLists_takeNotice (n : Station) (e : NoticeEntry) : KeepsLists (takeNotice n e) := by
  intro s h; unfold takeNotice; split
  · exact h.setReplica n (tripSlots_sound (h.2.1 n) e _)
  · exact h
theorem keepsLists_takeAnswer (n : Station) (a : AnswerEntry) : KeepsLists (takeAnswer n a) := by
  intro s h; unfold takeAnswer takePanelAnswer takeRequestAnswer; repeat' split
  all_goals exact h
theorem keepsLists_outcomeNotices (o : LotOutcome) : KeepsLists (outcomeNotices o) := by
  intro s h
  cases o with
  | overbreak => exact keepsLists_raiseNotice .overbreakSuspected (setHolds .overbreakSuspected true (s.withConv _)) h
  | short => exact keepsLists_raiseNotice .spoilShort (setHolds .spoilShort true (s.withConv _)) h
  | ok => exact h
  | fall => exact h
theorem keepsLists_retireHead (r : LotRec) (others : List LotRec) : KeepsLists (retireHead r others) :=
  fun _ h => keepsLists_judgeNotices _ (keepsLists_outcomeNotices _ _ h)
theorem keepsLists_openWindows (fuel : Nat) : KeepsLists (openWindows fuel) := by
  induction fuel with
  | zero => exact fun _ h => h
  | succ fuel ih =>
    intro s h; unfold openWindows; repeat' split
    · exact h
    · exact h
    · exact ih _ (keepsLists_retireHead _ _ s h)
    · exact h
theorem keepsLists_takeLot (e : LotEntry) : KeepsLists (takeLot e) := by
  intro s h; unfold takeLot; split
  · exact h
  · exact keepsLists_openWindows 17 _ h
theorem keepsLists_takeRow (n : Station) (e : RowEntry) : KeepsLists (takeRow n e) := by
  intro s h; unfold takeRow; repeat' split
  all_goals exact h
theorem keepsLists_takeEntry (n : Station) (e : Entry) : KeepsLists fun s => takeEntry n s e := by
  intro s h
  cases e with
  | status r => exact keepsLists_takeStatus n r s h
  | notice e => exact keepsLists_takeNotice n e s h
  | answer a => exact keepsLists_takeAnswer n a s h
  | lot l =>
    simp only [takeEntry]; split
    · exact keepsLists_takeLot l s h
    · exact h
  | retire r => simp only [takeEntry]; split <;> exact h
  | tag t => exact h.setReplica n (h.2.1 n)
  | row e => exact keepsLists_takeRow n e s h
  | fault f => exact h.setReplica n (h.2.1 n)
theorem keepsLists_takeState (n : Station) (payload : List Byte) : KeepsLists (takeState n payload) := by
  have onState : KeepsLists (claimOnState n) := by
    intro s h; unfold claimOnState; split <;> exact h
  intro s h
  have accepted := keepsLists_subEvent onState s h
  unfold takeState takeEntries; dsimp only; split
  · exact accepted
  · exact keepsLists_foldl (fun e => keepsLists_subEvent (keepsLists_takeEntry n e)) _ _ accepted
theorem keepsLists_takeTrip (n : Station) (payload : List Byte) : KeepsLists (takeTrip n payload) := by
  intro s h; unfold takeTrip; repeat' split
  · exact h
  · exact keepsLists_takeNotice n _ s h
  · exact h
theorem keepsLists_takeMap (n : Station) (payload : List Byte) : KeepsLists (takeMap n payload) := by
  intro s h; unfold takeMap takeMapRow adoptMap endRecovery; dsimp only; repeat' split
  all_goals exact h.of_same rfl rfl rfl
theorem keepsLists_requestTimesOut : KeepsLists requestTimesOut := by
  intro s h; unfold requestTimesOut; repeat' split
  all_goals exact h
theorem keepsLists_recoveryExpires : KeepsLists recoveryExpires := by
  intro s h; unfold recoveryExpires; split <;> exact h
theorem keepsLists_publicationExpires : KeepsLists publicationExpires := by
  intro s h; unfold publicationExpires; dsimp only; split <;> exact h
theorem keepsLists_placeEarly : KeepsLists placeEarly := by
  intro s h; unfold placeEarly; split <;> exact h

/-! ## Orders (R170) -/

theorem keepsLists_changeRange (a b : Cell) (src dst : CellState) : KeepsLists (changeRange a b src dst) := by
  intro s h; rw [changeRange_eq]; exact h.of_same rfl rfl rfl
theorem orderKeepsLists_faceOrder (breaks : Bool) (n : Station) {rule : Fin 2 → State → AnswerCode × State}
    (hr : ∀ i, OrderKeepsLists (rule i)) : OrderKeepsLists (faceOrder breaks n rule) := by
  intro s h; unfold faceOrder; repeat' split
  · exact h
  · exact h
  · exact h
  · exact hr _ _ (keepsLists_setTagRange _ _ s h)
  · exact hr _ s h

section
variable (args : List Byte) (i : Fin 2) (n : Station)

theorem orderKeepsLists_tagFirstRule : OrderKeepsLists (tagFirstRule args i) := by
  intro s h; unfold tagFirstRule; split <;> exact keepsLists_setTagRange _ _ s h
theorem orderKeepsLists_tagLastRule : OrderKeepsLists (tagLastRule args i) := by
  intro s h; unfold tagLastRule; repeat' split
  all_goals exact keepsLists_setTagRange _ _ s h
theorem orderKeepsLists_releaseRule : OrderKeepsLists (releaseRule i) := by
  intro s h; unfold releaseRule; repeat' split
  · exact keepsLists_setTagRange _ _ s h
  · rename_i a b _ _
    have released := keepsLists_changeRange a b .solid .released s h
    dsimp only; exact keepsLists_setTagRange i .none _ released
  · exact keepsLists_setTagRange _ _ s h
theorem orderKeepsLists_withdrawRule : OrderKeepsLists (withdrawRule i) := by
  intro s h; unfold withdrawRule; split
  · rename_i a b _
    have withdrawn := keepsLists_changeRange a b .released .solid s h
    dsimp only; exact keepsLists_setTagRange i .none _ withdrawn
  · exact keepsLists_setTagRange _ _ s h
theorem orderKeepsLists_protectRule : OrderKeepsLists (protectRule args i) := by
  intro s h; unfold protectRule; dsimp only; repeat' split
  · exact h
  · exact h
  · exact keepsLists_latchBreach _ h
  · exact h
theorem orderKeepsLists_unprotectRule : OrderKeepsLists (unprotectRule args i) := by
  intro s h; unfold unprotectRule; repeat' split
  all_goals exact h
theorem orderKeepsLists_advanceRule : OrderKeepsLists (advanceRule i) := by
  intro s h; unfold advanceRule; split
  · exact keepsLists_setTagRange _ _ _ (keepsLists_setTagRange _ _ _ h)
  · exact h
theorem orderKeepsLists_washNowOrder : OrderKeepsLists (washNowOrder n) := by
  intro s h; unfold washNowOrder; repeat' split
  all_goals exact h
theorem orderKeepsLists_scrubResetOrder : OrderKeepsLists (scrubResetOrder n) := by
  intro s h; unfold scrubResetOrder; repeat' split
  all_goals exact h
theorem orderKeepsLists_conveyOrder (on : Bool) : OrderKeepsLists (conveyOrder on n) := by
  intro s h; unfold conveyOrder; split <;> exact h
theorem orderKeepsLists_conveyResetOrder : OrderKeepsLists (conveyResetOrder n) := by
  intro s h; unfold conveyResetOrder; repeat' split
  all_goals exact h
theorem orderKeepsLists_mapRequestOrder : OrderKeepsLists (mapRequestOrder n) := by
  intro s h; unfold mapRequestOrder placeMapFrame; dsimp only; repeat' split
  all_goals exact h
theorem orderKeepsLists_ackOrder : OrderKeepsLists (ackOrder n args) := by
  intro s h; unfold ackOrder; split
  · exact h
  · exact orderKeepsLists_ackNotice _ _ s h
theorem orderKeepsLists_clearFaultOrder : OrderKeepsLists (clearFaultOrder n) := by
  intro s h; unfold clearFaultOrder; split <;> exact h
theorem orderKeepsLists_relinkOrder : OrderKeepsLists (relinkOrder n) := by
  intro s h; unfold relinkOrder; repeat' split
  all_goals exact h

end

theorem keepsLists_takeOrder {n : Station} {k : Byte} {kind : OrderKind} {args : List Byte}
    {owner : State → AnswerCode × State} (ho : OrderKeepsLists owner) : KeepsLists (takeOrder n k kind args owner) := by
  intro s h
  have accepted := keepsLists_acceptFrame n s h
  unfold takeOrder; dsimp only; repeat' split
  · exact accepted
  · exact accepted
  · exact accepted
  · exact ho _ accepted
theorem keepsLists_takeUnknown (n : Station) (k : Byte) : KeepsLists (takeUnknown n k) := by
  intro s h
  have accepted := keepsLists_acceptFrame n s h
  unfold takeUnknown; dsimp only; split <;> exact accepted

/-! ## Inputs and the CUTTER's units -/

theorem keepsLists_takeInput (r : Role) (k : Fin 4) (active : Bool) {act : State → State} (ha : KeepsLists act) :
    KeepsLists (takeInput r k active act) := by
  intro s h; unfold takeInput; split
  · exact ha _ (h.of_same (by simp) (by simp) (by simp))
  · exact h
theorem keepsLists_atCutter {f : State → State} (hf : KeepsLists f) : KeepsLists (atCutter f) := by
  intro s h; unfold atCutter; split
  · exact hf s h
  · exact h
theorem keepsLists_poseExpires : KeepsLists poseExpires := by
  intro s h; unfold poseExpires; repeat' split
  all_goals exact h
theorem keepsLists_dwellCompletes : KeepsLists dwellCompletes := by
  have opened : KeepsLists openLotIfNone := by
    intro s h; unfold openLotIfNone; split <;> exact h
  have credited : ∀ mass, KeepsLists (creditMass mass) := by
    intro mass s h
    have one := opened s h
    unfold creditMass; dsimp only; split <;> exact one
  intro s h; unfold dwellCompletes; repeat' split
  · exact h
  · exact credited _ _ h
  · exact h
  · exact h
theorem keepsLists_deliverPose (isX : Bool) (v : Word16) : KeepsLists (deliverPose isX v) := by
  have pose : KeepsLists poseEvent := by
    intro s h; unfold poseEvent; extract_lets head _ v
    have moved : v.ListsSound := h
    split
    · exact keepsLists_latchBreach v moved
    · exact retryBreach_lists moved
  intro s h; unfold deliverPose; exact pose _ h
theorem keepsLists_periodStarts : KeepsLists periodStarts := by
  intro s h; unfold periodStarts; split <;> exact h
theorem keepsLists_midLowers : KeepsLists midLowers := by
  intro s h; unfold midLowers; repeat' split
  all_goals exact h
theorem keepsLists_allowanceEnds : KeepsLists allowanceEnds := by
  intro s h; unfold allowanceEnds; split <;> exact h

/-! ## The sequencers -/

theorem keepsLists_abortWash : KeepsLists abortWash := by
  intro s h; unfold abortWash; split <;> exact h
theorem keepsLists_startWindowExpires : KeepsLists startWindowExpires := by
  intro s h; unfold startWindowExpires; split
  · exact keepsLists_abortWash _ h
  · exact h
theorem keepsLists_proofLossExpires : KeepsLists proofLossExpires := by
  intro s h; unfold proofLossExpires; split
  · exact keepsLists_abortWash _ h
  · exact h
theorem keepsLists_runOnExpires : KeepsLists runOnExpires := by
  intro s h; unfold runOnExpires; split
  · exact keepsLists_abortWash _ h
  · exact h
theorem keepsLists_quietReaches : KeepsLists quietReaches := by
  intro s h; unfold quietReaches; split <;> exact h
theorem keepsLists_washTimeExpires : KeepsLists washTimeExpires := by
  intro s h; unfold washTimeExpires; split <;> exact h
theorem keepsLists_settlingExpires : KeepsLists settlingExpires := by
  intro s h; unfold settlingExpires; split <;> exact h
theorem keepsLists_convFault (why : ConvFault) : KeepsLists (convFault why) := by
  intro s h; unfold convFault; split <;> exact h
theorem keepsLists_warningExpires : KeepsLists warningExpires := by
  intro s h; unfold warningExpires; split <;> exact h
theorem keepsLists_beltWindowExpires : KeepsLists beltWindowExpires := by
  intro s h; unfold beltWindowExpires; split
  · exact keepsLists_convFault _ s h
  · exact h
theorem keepsLists_chainWindowExpires : KeepsLists chainWindowExpires := by
  intro s h; unfold chainWindowExpires; split
  · exact keepsLists_convFault _ s h
  · exact h
theorem keepsLists_beltLossExpires : KeepsLists beltLossExpires := by
  intro s h; unfold beltLossExpires; split
  · exact keepsLists_convFault _ s h
  · exact h
theorem keepsLists_chainLossExpires : KeepsLists chainLossExpires := by
  intro s h; unfold chainLossExpires; split
  · exact keepsLists_convFault _ s h
  · exact h
theorem keepsLists_stallExpires : KeepsLists stallExpires := by
  intro s h; unfold stallExpires; split
  · exact keepsLists_convFault _ s h
  · exact h
theorem keepsLists_runOffExpires : KeepsLists runOffExpires := by
  intro s h; unfold runOffExpires; split <;> exact h
theorem keepsLists_beltTick : KeepsLists beltTick := by
  intro s h; unfold beltTick; dsimp only; split <;> exact h
theorem keepsLists_lotWindowOpens : KeepsLists lotWindowOpens := by
  intro s h; unfold lotWindowOpens; split
  · exact keepsLists_openWindows 17 s h
  · exact h
theorem keepsLists_lotRetires : KeepsLists lotRetires := by
  intro s h; unfold lotRetires; repeat' split
  · exact keepsLists_openWindows 17 _ (keepsLists_retireHead _ _ s h)
  · exact h
  · exact h

/-! ## The sensor line -/

theorem keepsLists_handOn (e : Fin 16) (v : Word16) : KeepsLists (handOn e v) := by
  intro s h; unfold handOn deliverDust deliverPressure; dsimp only; repeat' split
  · exact h
  · exact keepsLists_deliverPose _ _ s h
  · exact keepsLists_deliverPose _ _ s h
  all_goals exact h
theorem keepsLists_goodAnswer (e : Fin 16) (v : Word16) : KeepsLists (goodAnswer e v) := by
  have ready : KeepsLists readySync := by
    intro s h; unfold readySync; split <;> exact h
  exact fun _ h => keepsLists_handOn _ _ _ (ready _ h)
theorem keepsLists_failPoll : KeepsLists failPoll := by
  intro s h; unfold failPoll; split <;> exact h
theorem keepsLists_discardAnswer : KeepsLists discardAnswer := fun s h => keepsLists_failPoll s h
theorem keepsLists_takeCharacter (data : Byte) (parity stop : Bool) : KeepsLists (takeCharacter data parity stop) := by
  have assembled : ∀ b, KeepsLists (assemble b) := by
    intro b s h; unfold assemble; repeat' split
    · exact h
    · exact h
    · exact h
    · exact keepsLists_discardAnswer s h
    · exact h
    · exact h
    · exact keepsLists_goodAnswer _ _ s h
    · exact keepsLists_discardAnswer s h
    · exact h
  intro s h; unfold takeCharacter; repeat' split
  · exact assembled _ _ h
  · exact h
  · exact keepsLists_discardAnswer s h
theorem keepsLists_takeBreak : KeepsLists takeBreak := by
  intro s h; unfold takeBreak; dsimp only; repeat' split
  · exact keepsLists_discardAnswer s h
  · exact h
  · exact keepsLists_discardAnswer s h
  · exact h
theorem keepsLists_sendPoll : KeepsLists sendPoll := by
  intro s h; unfold sendPoll; repeat' split
  all_goals exact h
theorem keepsLists_becomeDue (e : Fin 16) : KeepsLists (becomeDue e) := by
  intro s h; unfold becomeDue; split <;> exact h
theorem keepsLists_becomeStale (e : Fin 16) : KeepsLists (becomeStale e) := by
  intro s h; unfold becomeStale; dsimp only; split <;> exact h
theorem keepsLists_answerTimesOut : KeepsLists answerTimesOut := by
  intro s h; unfold answerTimesOut; split
  · exact keepsLists_failPoll s h
  · exact h
theorem keepsLists_gapLimitPasses : KeepsLists gapLimitPasses := by
  intro s h; unfold gapLimitPasses; split
  · exact h
  · exact keepsLists_discardAnswer s h

/-! ## The CAB's times and the panel -/

theorem keepsLists_hornEnds : KeepsLists hornEnds := by
  intro s h; unfold hornEnds; split <;> exact h
theorem keepsLists_pairExpires : KeepsLists pairExpires := by
  intro s h; unfold pairExpires; split <;> exact h
theorem keepsLists_vigWarns : KeepsLists vigWarns := by
  intro s h; unfold vigWarns; repeat' split
  all_goals exact h
theorem keepsLists_vigLapses : KeepsLists vigLapses := by
  intro s h; unfold vigLapses; split <;> exact h
theorem keepsLists_vigilB : KeepsLists vigilB := by
  intro s h; unfold vigilB keyedPair; repeat' split
  all_goals exact h
theorem keepsLists_pendingTimesOut (k : Byte) : KeepsLists (pendingTimesOut k) := by
  intro s h; unfold pendingTimesOut; repeat' split
  all_goals exact h
theorem keepsLists_atCab {f : State → State} (hf : KeepsLists f) : KeepsLists (atCab f) := by
  intro s h; unfold atCab; split
  · exact hf s h
  · exact h
theorem keepsLists_keyWaitEnds : KeepsLists keyWaitEnds := by
  intro s h; unfold keyWaitEnds replyMissing; dsimp only; repeat' split
  all_goals exact h
theorem keepsLists_sendPanelFrame : KeepsLists sendPanelFrame := by
  intro s h; unfold sendPanelFrame; split <;> exact h
theorem orderKeepsLists_composeOrder (kind : OrderKind) (target : Option Station) (args : List Byte) :
    ∀ s, s.ListsSound → (composeOrder kind target args s).2.ListsSound := by
  have own : KeepsLists (executeOwn kind args) := by
    intro s h; unfold executeOwn
    cases kind with
    | ack => exact orderKeepsLists_ackNotice _ _ s h
    | _ => exact h
  intro s h; unfold composeOrder; dsimp only; repeat' split
  · exact own s h
  all_goals exact h
theorem keepsLists_composeTag (kind : OrderKind) (args : List Byte) (step : Bool) :
    KeepsLists (composeTag kind args step) := by
  intro s h
  have composed := orderKeepsLists_composeOrder kind (s.presentOf .cutter) args s h
  unfold composeTag; dsimp only; split <;> exact composed
theorem keepsLists_pageKey {act : Page → State → State} (ha : ∀ p, KeepsLists (act p)) : KeepsLists (pageKey act) := by
  intro s h; unfold pageKey; split
  · exact h
  · exact ha _ s h
theorem keepsLists_faceKey {act : State → State} (ha : KeepsLists act) : KeepsLists (faceKey act) :=
  keepsLists_pageKey fun p s h => by
    split
    · exact ha s h
    · exact h
theorem keepsLists_keyUpDown (down : Bool) (move : Cell → Cell) : KeepsLists (keyUpDown down move) := by
  intro s h; unfold keyUpDown; split <;> exact h
theorem keepsLists_keySelect : KeepsLists keySelect := by
  intro s h; unfold keySelect selectOffer faceSelect openOffer; repeat' split
  · exact orderKeepsLists_composeOrder _ _ _ (closeOffer s) h
  · exact h
  · exact keepsLists_composeTag _ _ _ s h
  · exact keepsLists_composeTag _ _ _ s h
  · exact h
  · exact h
theorem keepsLists_ackSelected : KeepsLists ackSelected := by
  intro s h; unfold ackSelected; split
  · exact orderKeepsLists_composeOrder .ack _ _ s h
  · exact h
theorem keepsLists_clearFirstOut : KeepsLists clearFirstOut := by
  intro s h; unfold clearFirstOut; split
  · exact h
  · split <;> exact h
theorem keepsLists_keyAck : KeepsLists keyAck :=
  keepsLists_pageKey fun p s h => by
    cases p with
    | notices => exact keepsLists_ackSelected s h
    | firstOut => exact keepsLists_clearFirstOut s h
    | _ => exact h
theorem keepsLists_takeKey {act : State → State} (ha : KeepsLists act) : KeepsLists (takeKey act) := by
  intro s h
  have taken := keepsLists_subEvent ha s h
  unfold takeKey; dsimp only
  generalize subEvent act s = v at taken
  split <;> exact taken
theorem keepsLists_pressKey (key : Key) : KeepsLists (pressKey key) := by
  cases key with
  | page => exact keepsLists_takeKey fun _ h => h
  | up => exact keepsLists_takeKey (keepsLists_keyUpDown _ _)
  | down => exact keepsLists_takeKey (keepsLists_keyUpDown _ _)
  | left => exact keepsLists_takeKey (keepsLists_faceKey fun _ h => h)
  | right => exact keepsLists_takeKey (keepsLists_faceKey fun _ h => h)
  | select => exact keepsLists_takeKey keepsLists_keySelect
  | release => exact keepsLists_takeKey (keepsLists_faceKey (keepsLists_composeTag _ _ _))
  | withdraw => exact keepsLists_takeKey (keepsLists_faceKey (keepsLists_composeTag _ _ _))
  | protect => exact keepsLists_takeKey (keepsLists_faceKey fun s h => keepsLists_composeTag _ _ _ s h)
  | advance => exact keepsLists_takeKey (keepsLists_faceKey (keepsLists_composeTag _ _ _))
  | ack => exact keepsLists_takeKey keepsLists_keyAck
  | vigilA => exact keepsLists_subEvent fun _ h => h
  | vigilB => exact keepsLists_subEvent keepsLists_vigilB
theorem keepsLists_takeKeyReport (bytes : List Byte) : KeepsLists (takeKeyReport bytes) := by
  have up : KeepsLists panelUp := fun _ h => h
  intro s h; unfold takeKeyReport; repeat' split
  · refine keepsLists_foldl (fun b v hv => ?_) _ _ (keepsLists_subEvent up s h)
    split
    · exact keepsLists_pressKey _ v hv
    · exact hv
  all_goals exact h

end Sys2Proof.Machine
end

section
/-! The display through every command, every tick and every step (R101 to R103). -/

namespace Sys2Proof.Machine

/-! ## Commands -/

/-- A station whose blocks do not run shows no display. -/
theorem State.ListsSound.displaySound {s : State} (h : s.ListsSound) (hl : s.live = false) : s.DisplaySound :=
  ⟨h.1, h.2.1, h.2.2, fun live => absurd live (by simp [hl])⟩

theorem finish_lists_displaySound {pre s : State} (h : s.ListsSound) : (finish pre s).DisplaySound := by
  cases hl : s.live with
  | true => exact finish_displaySound hl h
  | false =>
    have same : finish pre s = statusSync s := by unfold finish; simp [hl]
    rw [same]
    refine State.ListsSound.displaySound (h.of_same ?_ ?_ ?_) ((live_of_rest (rest_statusSync s)).trans hl)
    · exact statusSync_notices s
    · exact replicas_of_rest (rest_statusSync s)
    · rw [statusSync_cab]

theorem event_displaySound {f : State → State} {s t : State} (hf : KeepsLists f) (h : s.DisplaySound)
    (ht : event f s = .next t) : t.DisplaySound := by
  cases Host.Outcome.next.inj ht; split
  · exact finish_lists_displaySound (hf s h.lists)
  · exact h

theorem keepsLists_ifHeard {f : State → State} (hf : KeepsLists f) : KeepsLists (ifHeard f) := by
  intro s h; unfold ifHeard; split
  · exact h
  · exact hf s h

theorem keepsLists_takeFrame (c : FrameClass) (n : Station) (payload : List Byte) {f : State → State} (hf : KeepsLists f) :
    KeepsLists (takeFrame c n payload f) :=
  keepsLists_ifHeard fun s h => by
    split
    · exact hf _ (keepsLists_noteEarly s _ (keepsLists_acceptFrame n s h))
    · exact keepsLists_rejectFrame .length (some c) 1 s h

theorem keepsLists_unlessRestarted (c : Instr) {f : State → State} (hf : KeepsLists f) :
    KeepsLists (unlessRestarted c f) := by
  intro s h; unfold unlessRestarted; split
  · exact h
  · exact hf s h

theorem orderEvent_displaySound {n : Station} {k : Byte} {kind : OrderKind} {args : List Byte}
    {owner : State → AnswerCode × State} {s t : State} (ho : OrderKeepsLists owner) (h : s.DisplaySound)
    (ht : orderEvent n k kind args owner s = .next t) : t.DisplaySound :=
  event_displaySound (keepsLists_ifHeard fun s h => by
    split
    · exact keepsLists_takeOrder ho s h
    · exact keepsLists_rejectFrame .length (some .order) 1 s h) h ht

/-! ## Start-up -/

/-- Queue, replicas and candidates are empty at power-on. -/
theorem powerOn_lists (serial : Word32) (straps : BitVec 3) (pending : List Instr) :
    (State.powerOn serial straps pending).ListsSound := by
  refine ⟨⟨.nil, fun i => ?_, fun i j x y hx => ?_, fun i x hx => ?_⟩, fun n => ?_, .nil⟩
  · simp [State.powerOn, NoticeQueue.reset]
  · simp [State.powerOn, NoticeQueue.reset] at hx
  · simp [State.powerOn, NoticeQueue.reset] at hx
  · have empty : (State.powerOn serial straps pending).replica n = .empty := by simp [State.replica, State.powerOn]
    rw [empty]; exact Replica.empty_sound

theorem completeRead_displaySound (bytes : List Byte) {s : State} (h : s.DisplaySound) :
    (completeRead bytes s).DisplaySound := by
  unfold completeRead; repeat' split
  · exact finish_lists_displaySound (keepsLists_enterClaim none (loadImage _ s) h.lists)
  · have off : (startFails s).ListsSound := (powerOn_lists s.serial s.straps s.pending).of_same
      (by unfold startFails; dsimp only; rw [statusSync_notices]; rfl)
      (by unfold startFails; dsimp only; rw [replicas_of_rest (rest_statusSync _)]; rfl)
      (by unfold startFails; dsimp only; rw [statusSync_cab]; rfl)
    exact off.displaySound (by unfold startFails; dsimp only; rw [live_of_rest (rest_statusSync _)]; rfl)
  · exact h

/-! ## A tick -/

/-- A tick leaves the roster states, and so which stations the CAB counts. -/
theorem tick_counted (s : State) (n : Station) : ({ s with claim := s.claim.tick } : State).counted n = s.counted n := by
  have states : ({ s with claim := s.claim.tick } : State).entryState n = s.entryState n := by
    simp only [State.entryState, State.entry, ClaimUnit.tick, Tbl.get_map]
    cases s.claim.roster.get n <;> rfl
  unfold State.counted; rw [states]

/-- The tick of the units leaves what the display shows and what it is read from. -/
theorem liveTick_display (s : State) : (liveTick s).notices = s.notices ∧ (liveTick s).replicas = s.replicas ∧
    (liveTick s).cab.cands = s.cab.cands ∧ (liveTick s).cab.list = s.cab.list ∧ (liveTick s).image = s.image ∧
    (liveTick s).station = s.station ∧ (liveTick s).line = s.line ∧ (liveTick s).claim = s.claim.tick := by
  obtain ⟨inputs, pins, debounced, -⟩ := debounceTick_eq s
  unfold liveTick; rw [debounced]; dsimp only; split
  all_goals exact ⟨rfl, rfl, rfl, rfl, rfl, rfl, rfl, rfl⟩

theorem liveTick_displaySound {s : State} (h : s.DisplaySound) : (liveTick s).DisplaySound := by
  obtain ⟨notices, replicas, cands, list, image, station, line, claim⟩ := liveTick_display s
  obtain ⟨queue, reps, distinct, shown⟩ := h
  have replica : (liveTick s).replica = s.replica := by funext n; simp only [State.replica, replicas]
  have counted : (liveTick s).counted = s.counted := by
    funext n
    rw [← tick_counted s n]
    simp only [State.counted, State.entryState, State.entry, claim]
  have now : (liveTick s).candidatesNow = s.candidatesNow := by
    simp only [State.candidatesNow, State.slotEntries, notices, replica, counted, station]
  refine ⟨by rw [notices]; exact queue, by rw [replica]; exact reps, by rw [cands]; exact distinct, fun hl hr => ?_⟩
  have live : s.live = true := by simpa only [State.live, line] using hl
  have cab : s.isRole .cab = true := by simpa only [State.isRole, State.role, State.cfg, image, station] using hr
  rw [cands, list, now]
  exact shown live cab

theorem passTick_displaySound {s : State} (h : s.DisplaySound) : (passTick s).DisplaySound := by
  have part : (partTick s).DisplaySound := h
  unfold passTick; split
  · exact liveTick_displaySound part
  · unfold restTick; split
    · exact part
    · exact part

/-! ## Every command, and every step -/

theorem keepsLists_withSensor (f : SensorUnit → SensorUnit) : KeepsLists fun s => s.withSensor f :=
  fun _ h => h.of_same rfl rfl rfl

/-- A key is an event at a CAB: its acts keep the lists in order. -/
theorem key_displaySound (k : Key) {s t : State} (hs : s.DisplaySound) (h : event (atCab (pressKey k)) s = .next t) :
    t.DisplaySound :=
  event_displaySound (keepsLists_atCab (keepsLists_pressKey k)) hs h

theorem exec_displaySound (c : Instr) {s t : State} (hs : s.DisplaySound) (h : exec c s = .next t) : t.DisplaySound := by
  cases c with
  -- START, RESET and the STATUS pattern
  | powerOn straps =>
    cases Host.Outcome.next.inj h
    exact State.ListsSound.displaySound (powerOn_lists s.serial straps s.pending) rfl
  | resetAssert =>
    cases Host.Outcome.next.inj h
    exact State.ListsSound.displaySound (powerOn_lists s.serial s.straps s.pending) rfl
  | imageReadStart =>
    cases Host.Outcome.next.inj h
    unfold startRead; split <;> exact hs
  | imageReadComplete bytes => cases Host.Outcome.next.inj h; exact completeRead_displaySound bytes hs
  | statusPatternStep => cases Host.Outcome.next.inj h; exact hs
  -- the line
  | lineGap => exact event_displaySound keepsLists_lineGap hs h
  | contentionDelayEnd => exact event_displaySound keepsLists_contentionEnds hs h
  | arbitrationLost character => exact event_displaySound (keepsLists_loseArbitration character) hs h
  | sendError character => exact event_displaySound (keepsLists_meetSendError character) hs h
  | frameRejected chars => exact event_displaySound (keepsLists_ifHeard (keepsLists_rejectChars chars)) hs h
  | stateSentWhole | orderSentWhole | claimSentWhole | mapSentWhole | tripSentWhole =>
    exact event_displaySound (keepsLists_sentWhole _) hs h
  -- frames taken, claim, roster, publication and recovery times
  | claimTaken n payload =>
    exact event_displaySound (keepsLists_takeFrame _ n payload (keepsLists_takeClaimPayload n payload)) hs h
  | claimWindowExpiry => exact event_displaySound (keepsLists_unlessRestarted _ keepsLists_windowExpires) hs h
  | lineSilenceWatchExpiry => exact event_displaySound (keepsLists_unlessRestarted _ keepsLists_watchExpires) hs h
  | silenceTimerExpiry n => exact event_displaySound (keepsLists_unlessRestarted _ (keepsLists_silenceExpires n)) hs h
  | stateTaken n payload => exact event_displaySound (keepsLists_takeFrame _ n payload (keepsLists_takeState n payload)) hs h
  | tripTaken n payload => exact event_displaySound (keepsLists_takeFrame _ n payload (keepsLists_takeTrip n payload)) hs h
  | mapTaken n payload => exact event_displaySound (keepsLists_takeFrame _ n payload (keepsLists_takeMap n payload)) hs h
  | mapRequestTimeout => exact event_displaySound keepsLists_requestTimesOut hs h
  | recoveryExpiry => exact event_displaySound keepsLists_recoveryExpires hs h
  | publicationTimerExpiry => exact event_displaySound keepsLists_publicationExpires hs h
  | earlyStatePlace => exact event_displaySound keepsLists_placeEarly hs h
  -- orders
  | tagFirst n k args =>
    exact orderEvent_displaySound (orderKeepsLists_faceOrder _ n (orderKeepsLists_tagFirstRule args)) hs h
  | tagLast n k args => exact orderEvent_displaySound (orderKeepsLists_faceOrder _ n (orderKeepsLists_tagLastRule args)) hs h
  | release n k => exact orderEvent_displaySound (orderKeepsLists_faceOrder _ n orderKeepsLists_releaseRule) hs h
  | withdraw n k => exact orderEvent_displaySound (orderKeepsLists_faceOrder _ n orderKeepsLists_withdrawRule) hs h
  | protect n k args => exact orderEvent_displaySound (orderKeepsLists_faceOrder _ n (orderKeepsLists_protectRule args)) hs h
  | unprotect n k args =>
    exact orderEvent_displaySound (orderKeepsLists_faceOrder _ n (orderKeepsLists_unprotectRule args)) hs h
  | advance n k => exact orderEvent_displaySound (orderKeepsLists_faceOrder _ n orderKeepsLists_advanceRule) hs h
  | washNow n k => exact orderEvent_displaySound (orderKeepsLists_washNowOrder n) hs h
  | scrubReset n k => exact orderEvent_displaySound (orderKeepsLists_scrubResetOrder n) hs h
  | conveyOn n k => exact orderEvent_displaySound (orderKeepsLists_conveyOrder n true) hs h
  | conveyOff n k => exact orderEvent_displaySound (orderKeepsLists_conveyOrder n false) hs h
  | conveyReset n k => exact orderEvent_displaySound (orderKeepsLists_conveyResetOrder n) hs h
  | mapRequest n k => exact orderEvent_displaySound (orderKeepsLists_mapRequestOrder n) hs h
  | ack n k args => exact orderEvent_displaySound (orderKeepsLists_ackOrder args n) hs h
  | clearFault n k => exact orderEvent_displaySound (orderKeepsLists_clearFaultOrder n) hs h
  | relink n k => exact orderEvent_displaySound (orderKeepsLists_relinkOrder n) hs h
  | orderUnknownKind n k kind => exact event_displaySound (keepsLists_ifHeard (keepsLists_takeUnknown n k)) hs h
  | orderOtherTarget n target => exact event_displaySound (keepsLists_ifHeard (keepsLists_acceptFrame n)) hs h
  -- inputs
  | cutRequestChange | headRunningChange | fanProvenChange | sprayPressureChange | beltProvenChange | chainProvenChange =>
    exact event_displaySound (keepsLists_takeInput _ _ _ fun _ h => h) hs h
  | pullWireChange active =>
    refine event_displaySound (keepsLists_takeInput _ _ _ fun v hv => ?_) hs h
    split
    · exact keepsLists_convFault _ v hv
    · exact hv
  -- the CUTTER's times
  | poseExpiry => exact event_displaySound (keepsLists_atCutter keepsLists_poseExpires) hs h
  | dwellComplete => exact event_displaySound (keepsLists_atCutter keepsLists_dwellCompletes) hs h
  | periodStart => exact event_displaySound keepsLists_periodStarts hs h
  | midPeriodLowering => exact event_displaySound keepsLists_midLowers hs h
  | allowanceExhausted => exact event_displaySound keepsLists_allowanceEnds hs h
  -- the SCRUBBER's times
  | startWindowExpiry => exact event_displaySound keepsLists_startWindowExpires hs h
  | proofLossExpiry => exact event_displaySound keepsLists_proofLossExpires hs h
  | runOnExpiry => exact event_displaySound keepsLists_runOnExpires hs h
  | quietTime10s => exact event_displaySound keepsLists_quietReaches hs h
  | washTimeExpiry => exact event_displaySound keepsLists_washTimeExpires hs h
  | settlingExpiry => exact event_displaySound keepsLists_settlingExpires hs h
  -- the CONVEYOR's times
  | warningExpiry => exact event_displaySound keepsLists_warningExpires hs h
  | beltWindowExpiry => exact event_displaySound keepsLists_beltWindowExpires hs h
  | chainWindowExpiry => exact event_displaySound keepsLists_chainWindowExpires hs h
  | beltLossExpiry => exact event_displaySound keepsLists_beltLossExpires hs h
  | chainLossExpiry => exact event_displaySound keepsLists_chainLossExpires hs h
  | stallExpiry => exact event_displaySound keepsLists_stallExpires hs h
  | runOffExpiry => exact event_displaySound keepsLists_runOffExpires hs h
  | beltTimeTick => exact event_displaySound keepsLists_beltTick hs h
  | lotWindowOpen => exact event_displaySound keepsLists_lotWindowOpens hs h
  | lotRetirement => exact event_displaySound keepsLists_lotRetires hs h
  -- the CAB's times and its panel
  | hornTimeExpiry => exact event_displaySound keepsLists_hornEnds hs h
  | vigilancePeriodExpiry => exact event_displaySound keepsLists_vigWarns hs h
  | graceExpiry => exact event_displaySound keepsLists_vigLapses hs h
  | vigilPairExpiry => exact event_displaySound keepsLists_pairExpires hs h
  | panelFrameSend => exact event_displaySound (keepsLists_atCab keepsLists_sendPanelFrame) hs h
  | keyReport bytes => exact event_displaySound (keepsLists_atCab (keepsLists_takeKeyReport bytes)) hs h
  | keyReportMissing => exact event_displaySound (keepsLists_atCab keepsLists_keyWaitEnds) hs h
  | keyPage => exact key_displaySound .page hs h
  | keyUp => exact key_displaySound .up hs h
  | keyDown => exact key_displaySound .down hs h
  | keyLeft => exact key_displaySound .left hs h
  | keyRight => exact key_displaySound .right hs h
  | keySelect => exact key_displaySound .select hs h
  | keyRelease => exact key_displaySound .release hs h
  | keyWithdraw => exact key_displaySound .withdraw hs h
  | keyProtect => exact key_displaySound .protect hs h
  | keyAdvance => exact key_displaySound .advance hs h
  | keyAck => exact key_displaySound .ack hs h
  | keyVigilA => exact key_displaySound .vigilA hs h
  | keyVigilB => exact key_displaySound .vigilB hs h
  | pendingOrderTimeout k => exact event_displaySound (keepsLists_pendingTimesOut k) hs h
  -- the sensor line
  | channelDue e => exact event_displaySound (keepsLists_becomeDue e) hs h
  | pollSend => exact event_displaySound keepsLists_sendPoll hs h
  | quietWaitEnd => exact event_displaySound (keepsLists_withSensor _) hs h
  | answerTimeout => exact event_displaySound keepsLists_answerTimesOut hs h
  | gapLimitExpiry => exact event_displaySound (keepsLists_unlessRestarted _ keepsLists_gapLimitPasses) hs h
  | sensorCharacter data parity stop => exact event_displaySound (keepsLists_takeCharacter data parity stop) hs h
  | sensorBreak => exact event_displaySound keepsLists_takeBreak hs h
  | valueStale e => exact event_displaySound (keepsLists_unlessRestarted _ (keepsLists_becomeStale e)) hs h

/-- Settles O6: the acts of the commands keep queue, replicas and candidates in order, and the end of an event recomputes the
display from them; a tick leaves all that the display reads. -/
theorem displaySoundKept : Obligations.DisplaySoundKept := by
  intro s t hs h
  unfold step at h; split at h
  · rename_i c queue _
    have popped : ({ s with pending := queue } : State).DisplaySound := hs
    exact exec_displaySound c popped h
  · unfold idle at h; split at h
    · exact exec_displaySound _ hs h
    · cases Host.Outcome.next.inj h; exact passTick_displaySound hs

end Sys2Proof.Machine
end

section
/-! The panel link: keys as their commands take them, panel frames, key reports and missing replies (R126, R127, R200), and
the limit of a sent order (R125). -/

namespace Sys2Proof.Machine

/-- What an act at a CAB becomes: the act, and the end of the event. -/
theorem event_atCab {f : State → State} {s : State} (live : s.live = true) (role : s.isRole .cab = true) :
    event (atCab f) s = .next (finish s (f s)) := by
  rw [event_live live, atCab, if_pos role]

/-! ## The keys -/

/-- Each key's command takes that key. -/
theorem key_command {c : Instr} {k : Key} {s : State} (live : s.live = true) (role : s.isRole .cab = true)
    (hc : (c, k) ∈ [(Instr.keyPage, Key.page), (.keyUp, .up), (.keyDown, .down), (.keyLeft, .left), (.keyRight, .right),
      (.keySelect, .select), (.keyRelease, .release), (.keyWithdraw, .withdraw), (.keyProtect, .protect),
      (.keyAdvance, .advance), (.keyAck, .ack), (.keyVigilA, .vigilA), (.keyVigilB, .vigilB)]) :
    exec c s = .next (finish s (pressKey k s)) := by
  rw [← event_atCab live role]
  simp only [List.mem_cons, Prod.mk.injEq, List.not_mem_nil, or_false] at hc
  rcases hc with h | h | h | h | h | h | h | h | h | h | h | h | h <;> (obtain ⟨rfl, rfl⟩ := h; rfl)

/-! ## The fields of the panel unit that the end of an event leaves -/

section
variable (pre s : State)

/-- The end of an event leaves of the panel unit all but an open offer. -/
theorem finish_panelFields : { (finish pre s).panel with offer := none } = { s.panel with offer := none } :=
  panel_of_rest (finish_rest pre s)

@[simp] theorem finish_panelUp : (finish pre s).panel.up = s.panel.up := congrArg (·.up) (finish_panelFields pre s)
@[simp] theorem finish_panelMissing : (finish pre s).panel.missing = s.panel.missing :=
  congrArg (·.missing) (finish_panelFields pre s)
@[simp] theorem finish_keyWait : (finish pre s).panel.keyWait = s.panel.keyWait :=
  congrArg (·.keyWait) (finish_panelFields pre s)
@[simp] theorem finish_clocking : (finish pre s).panel.clocking = s.panel.clocking :=
  congrArg (·.clocking) (finish_panelFields pre s)
@[simp] theorem finish_panelFrame : (finish pre s).panel.frame = s.panel.frame :=
  congrArg (·.frame) (finish_panelFields pre s)
@[simp] theorem finish_frameTimer : (finish pre s).panel.frameTimer = s.panel.frameTimer :=
  congrArg (·.frameTimer) (finish_panelFields pre s)
@[simp] theorem finish_redraw : (finish pre s).panel.redraw = s.panel.redraw :=
  congrArg (·.redraw) (finish_panelFields pre s)
@[simp] theorem finish_page : (finish pre s).panel.page = s.panel.page :=
  congrArg (·.page) (finish_panelFields pre s)
@[simp] theorem finish_orders : (finish pre s).panel.orders = s.panel.orders :=
  congrArg (·.orders) (finish_panelFields pre s)
@[simp] theorem finish_panelStatus : (finish pre s).panel.status = s.panel.status :=
  congrArg (·.status) (finish_panelFields pre s)
@[simp] theorem finish_answerMissing : (finish pre s).panel.answerMissing = s.panel.answerMissing :=
  congrArg (·.answerMissing) (finish_panelFields pre s)

end

/-! ## Panel frames -/

theorem panelFrameSend_next {s : State} (live : s.live = true) (role : s.isRole .cab = true)
    (timer : s.panel.frameTimer.isSome = true) :
    exec .panelFrameSend s = .next (finish s { s with panel := { s.panel with
      frame := some s.panelFrame, drawn := s.pageLines, redraw := false, frameTimer := some (ms 100)
      keyWait := some (ms 50), clocking := true } }) := by
  refine (event_atCab (f := sendPanelFrame) live role).trans ?_
  rw [sendPanelFrame, if_pos timer]; rfl

/-! ## Key reports (R126, R127) -/

section
variable {s : State} (live : s.live = true) (role : s.isRole .cab = true)
include live role

/-- A report while none is clocked in is none. -/
theorem keyReport_unawaited (bytes : List Byte) (h : s.panel.keyWait = none ∨ s.panel.clocking = false) :
    exec (.keyReport bytes) s = .next (finish s s) := by
  have unawaited : (s.panel.keyWait.isSome && s.panel.clocking) = false := by rcases h with h | h <;> simp [h]
  refine (event_atCab (f := takeKeyReport bytes) live role).trans ?_
  rw [takeKeyReport, unawaited]; rfl

variable (wait : s.panel.keyWait.isSome = true) (clocking : s.panel.clocking = true)
include wait clocking

/-- A report that passes its check: the panel up, and then its keys. -/
theorem keyReport_taken {bytes codes : List Byte} (h : readKeyReport bytes = some codes) :
    exec (.keyReport bytes) s = .next (finish s (takeKeys codes (subEvent panelUp s))) := by
  refine (event_atCab (f := takeKeyReport bytes) live role).trans ?_
  simp [takeKeyReport, wait, clocking, h]

/-- A report that fails its check ends the clocking where it has a lead byte. -/
theorem keyReport_failed {bytes : List Byte} (h : readKeyReport bytes = none) :
    exec (.keyReport bytes) s =
      .next (finish s { s with panel := { s.panel with clocking := !bytes.contains 0xA6 } }) := by
  refine (event_atCab (f := takeKeyReport bytes) live role).trans ?_
  have lead : bytes.any (· == 0xA6) = bytes.contains 0xA6 := List.any_beq'
  simp only [takeKeyReport, wait, clocking, Bool.and_self, if_true, h, lead]
  cases bytes.contains 0xA6
  · have same : ({ s with panel := { s.panel with clocking := true } } : State) = s := by rw [← clocking]
    exact congrArg (fun u => Host.Outcome.next (finish s u)) same.symm
  · rfl

end

/-! ## Missing replies (R127) -/

section
variable {s : State} (live : s.live = true) (role : s.isRole .cab = true)
include live role

theorem keyReportMissing_unawaited (h : s.panel.keyWait = none) : exec .keyReportMissing s = .next (finish s s) := by
  refine (event_atCab (f := keyWaitEnds) live role).trans ?_
  simp [keyWaitEnds, h]

variable (wait : s.panel.keyWait.isSome = true)
include wait

/-- Before the third missing reply in a row, and while the panel is down, the reply is only counted. -/
theorem keyReportMissing_counted (few : s.panel.missing < 2 ∨ s.panel.up = false) :
    exec .keyReportMissing s = .next (finish s { s with panel := { s.panel with
      missing := min 3 (s.panel.missing + 1), keyWait := none, clocking := false } }) := by
  refine (event_atCab (f := keyWaitEnds) live role).trans ?_
  have stays : ¬ (2 ≤ s.panel.missing ∧ s.panel.up = true) := by
    rintro ⟨two, up⟩
    rcases few with few | down
    · omega
    · simp [up] at down
  simp only [keyWaitEnds, wait, if_true, replyMissing]
  simp [stays]
  rfl

/-- The third missing reply in a row takes the panel down. -/
theorem keyReportMissing_down (two : 2 ≤ s.panel.missing) (up : s.panel.up = true) :
    exec .keyReportMissing s = .next (finish s (setReady false { s with
      panel := { s.panel with up := false, offer := none, missing := 3, keyWait := none, clocking := false }
      cab := { s.cab with pair := none } })) := by
  refine (event_atCab (f := keyWaitEnds) live role).trans ?_
  have third : min 3 (s.panel.missing + 1) = 3 := by omega
  simp [keyWaitEnds, wait, replyMissing, third, up, panelDown]

end

/-- No half-taken pair begins at the end of an event. -/
theorem vigSync_pair_none {s : State} (h : s.cab.pair = none) : (vigSync s).cab.pair = none := by
  have kept (v : State) : (vigDemand v).cab.pair = v.cab.pair := by
    unfold vigDemand; dsimp only; repeat' split
    all_goals rfl
  have cleared (now : Bool) : (changeStanding now s).cab.pair = none := by
    unfold changeStanding; dsimp only; split <;> rfl
  unfold vigSync; repeat' split
  · exact (kept s).trans h
  · exact cleared _
  · exact h

theorem displaySync_pair (s : State) : (displaySync s).cab.pair = s.cab.pair := by unfold displaySync; split <;> rfl

theorem finish_pair_none {pre s : State} (live : s.live = true) (role : s.isRole .cab = true) (h : s.cab.pair = none) :
    (finish pre s).cab.pair = none := by
  obtain ⟨v, _, cab, synced⟩ := sync_cab role
  rw [finish_cab live role, synced, displaySync_pair, cab, vigSync_pair_none h]

/-! ## The limit of a sent order (R125) -/

section
variable {s : State} (live : s.live = true)
include live

/-- A limit whose entry is no longer in the table ends nothing. -/
theorem pendingOrderTimeout_unknown {k : Byte}
    (h : s.panel.orders.find? (fun q => q.number == k && q.sent.isSome) = none) :
    exec (.pendingOrderTimeout k) s = .next (finish s s) := by
  refine (event_live live).trans ?_
  rw [pendingTimesOut, h]

/-- An entry whose limit passes leaves the table, and the answer is missing. -/
theorem pendingOrderTimeout_known (role : s.isRole .cab = true) {k : Byte} {p : PendingOrder}
    (h : s.panel.orders.find? (fun q => q.number == k && q.sent.isSome) = some p) :
    exec (.pendingOrderTimeout k) s = .next (finish s { s with panel := { s.panel with
      orders := s.panel.orders.filter fun q => !(q.number == k && q.sent.isSome)
      status := .noAnswer p.kind p.target, answerMissing := true } }) := by
  refine (event_live live).trans ?_
  simp only [pendingTimesOut, h, role, if_true]; rfl

end

/-! ## The link -/

/-- Settles O59: the wave by its rising edges, the keys of a report one after the other, and each event of the link by its act;
the end of an event leaves of the panel unit all but an open offer. -/
theorem panelLinkUpAndDown : Obligations.PanelLinkUpAndDown := by
  refine ⟨fun cycles bytes h => ?_, fun s => rfl, fun b codes s => rfl, fun s live role => ⟨fun c k => key_command live role,
    fun timer => ?_, fun bytes wait clocking h => ?_,
    fun bytes codes wait clocking h => keyReport_taken live role wait clocking h,
    fun bytes wait clocking h => keyReport_failed live role wait clocking h, keyReport_unawaited live role,
    fun wait few => ?_, fun wait two up => ?_, keyReportMissing_unawaited live role,
    fun k h => pendingOrderTimeout_unknown live h, fun p mem h => ?_⟩⟩
  · rw [keyReportRead, sampledBytes, sampledFrom_cycles, h, bytesOfBits_bytesFromTop]
  · refine ⟨_, panelFrameSend_next live role timer, rfl, ?_⟩
    simp only [finish_panelFrame, finish_frameTimer, finish_keyWait, finish_clocking, finish_redraw, finish_panelUp,
      finish_panelMissing, finish_page, and_self]
  · refine ⟨_, keyReport_taken live role wait clocking h, ?_⟩
    have rest := (finish_rest s (subEvent panelUp s)).trans (rest_subEvent panelUp s)
    have panel := panel_of_rest rest
    have sensor := sensor_of_rest rest
    simp only [takeKeys, List.foldl_nil]
    generalize finish s (subEvent panelUp s) = t at panel sensor ⊢
    exact ⟨congrArg (·.up) panel, congrArg (·.missing) panel, congrArg (·.keyWait) panel, congrArg (·.ready) sensor,
      congrArg (·.page) panel, congrArg (·.orders) panel⟩
  · exact ⟨_, keyReportMissing_counted live role wait few, rfl, by simp⟩
  · refine ⟨_, keyReportMissing_down live role wait two up, rfl, by simp, by simp, by simp, ?_, ?_⟩
    · rw [finish_panel_same]
      · rfl
      · exact live
      · exact role
      · exact .inl rfl
    · exact finish_pair_none live role rfl
  · exact ⟨_, pendingOrderTimeout_known live role h, rfl, by simp, by simp, by
      have found := List.find?_some h
      simp only [finish_orders, List.mem_filter, found, Bool.not_true, Bool.false_eq_true, and_false,
        not_false_eq_true], by simp⟩

end Sys2Proof.Machine
end

section
/-! The notice queue's operations one by one (R94 to R97), and the judging where one condition has changed (R93). -/

namespace Sys2Proof.Machine

/-! ## Entering a slot (R94, R100) -/

/-- The notice as which a code is raised. -/
def State.madeNotice (s : State) (c : NoticeCode) : Notice :=
  { code := c, raise := s.notices.counter + 1, state := .active, detail := detailOf c s }

/-- The code stands in the slot, raised anew; of the rest a TRIP slot may have been filled. -/
def EntersSlot (c : NoticeCode) (i : Fin 8) (s t : State) : Prop :=
  t.rest = s.rest ∧ t.notices.slots = s.notices.slots.set i (some (s.madeNotice c)) ∧
    t.notices.counter = s.notices.counter + 1 ∧ t.notices.order = s.notices.order.filter (· != i) ++ [i] ∧
    (t.notices.marks.get i).isSome = true ∧ t.notices.waiting.get c.index = false ∧
    t.line.trip = if c.cls = .trip ∧ s.line.trip.length < 2 then s.line.trip ++ [(s.madeNotice c).entry i] else s.line.trip

theorem enterSlot_trip (i : Fin 8) (c : NoticeCode) (s : State) : (enterSlot i c s).line.trip =
    if c.cls = .trip ∧ s.line.trip.length < 2 then s.line.trip ++ [(s.madeNotice c).entry i] else s.line.trip := by
  have slot : (s.notices.slots.set i (some (s.madeNotice c))).get i = some (s.madeNotice c) := by simp
  unfold enterSlot queueTrip markSlot State.withNotices
  dsimp only
  rw [show ({ code := c, raise := s.notices.counter + 1, state := .active, detail := detailOf c s } : Notice) =
    s.madeNotice c from rfl, slot]
  simp only [show (s.madeNotice c).code = c from rfl, Bool.and_eq_true, beq_iff_eq, decide_eq_true_eq]
  split <;> rfl

theorem entersSlot_enterSlot (i : Fin 8) (c : NoticeCode) (s : State) : EntersSlot c i s (enterSlot i c s) := by
  refine ⟨rest_enterSlot i c s, ?_, ?_, ?_, ?_, ?_, enterSlot_trip i c s⟩ <;> rw [enterSlot_notices]
  · rfl
  · simp
  · simp

/-! ## A raise (R94, R95) -/

section
variable {s : State} {c : NoticeCode} {i : Fin 8}

theorem raiseNotice_renews (slot : s.notices.slotOf c = some i) : raiseNotice c s = enterSlot i c s := by
  unfold raiseNotice; rw [slot]

variable (slot : s.notices.slotOf c = none)
include slot

theorem raiseNotice_enters (free : freeSlot s.notices = some i) : raiseNotice c s = enterSlot i c s := by
  unfold raiseNotice; rw [slot, free]

variable (free : freeSlot s.notices = none)
include free

theorem raiseNotice_displaces (oldest : oldestNote s.notices = some i) (note : c.cls ≠ .note) :
    raiseNotice c s = enterSlot i c (displaceNote i s) := by
  unfold raiseNotice; rw [slot, free, oldest]
  exact if_neg (by simpa using note)

theorem raiseNotice_waits (h : oldestNote s.notices = none ∨ c.cls = .note) : raiseNotice c s = refuseRaise c s := by
  unfold raiseNotice; rw [slot, free]
  rcases h with none | note
  · rw [none]
  · cases oldestNote s.notices with
    | none => rfl
    | some i => exact if_pos (by simpa using note)

end

theorem oldestNote_some {q : NoticeQueue} {i : Fin 8} (h : oldestNote q = some i) :
    ∃ x, q.slots.get i = some x ∧ x.code.cls = .note := by
  have := List.find?_some h
  simpa using this

/-- Displacing a NOTE writes the waiting set and the overflow flag alone. -/
theorem displaceNote_eq {i : Fin 8} {s : State} {x : Notice} (h : s.notices.slots.get i = some x) :
    displaceNote i s = s.withNotices fun q => { q with
      waiting := if q.holds.get x.code.index then q.waiting.set x.code.index true else q.waiting, overflow := true } := by
  unfold displaceNote; rw [h]

theorem entersSlot_displaced {i : Fin 8} {c : NoticeCode} {s : State} {x : Notice} (h : s.notices.slots.get i = some x) :
    EntersSlot c i s (enterSlot i c (displaceNote i s)) := by
  obtain ⟨rest, slots, counter, order, marks, waiting, trip⟩ := entersSlot_enterSlot i c (displaceNote i s)
  rw [displaceNote_eq h] at *
  exact ⟨rest, slots, counter, order, marks, waiting, trip⟩

/-- The code of the NOTE displaced waits where its condition was last judged to hold. -/
theorem waiting_displaced {i : Fin 8} {c : NoticeCode} {s : State} {x : Notice} (h : s.notices.slots.get i = some x)
    (other : x.code ≠ c) (held : s.notices.holds.get x.code.index = true) :
    (enterSlot i c (displaceNote i s)).notices.waiting.get x.code.index = true := by
  have apart : x.code.index ≠ c.index := fun e => other (NoticeCode.index_inj e)
  rw [enterSlot_notices, displaceNote_eq h]
  simp only [State.withNotices, held, if_true, Tbl.get_set, if_neg apart]

/-! ## The code that waits first (R96) -/

/-- The first entry of a list in code order at which a test holds has the lowest code of those. -/
theorem find_lowest {p : NoticeCode → Bool} {l : List NoticeCode} (sorted : l.Pairwise (·.code ≤ ·.code)) {d e : NoticeCode}
    (h : l.find? p = some d) (he : e ∈ l) (pe : p e = true) : d.code ≤ e.code := by
  induction l with
  | nil => cases h
  | cons a l ih =>
    obtain ⟨first, sorted⟩ := List.pairwise_cons.1 sorted
    rw [List.find?_cons] at h
    cases pa : p a with
    | true =>
      rw [pa] at h; cases h
      rcases List.mem_cons.1 he with rfl | he
      · exact BitVec.le_refl _
      · exact first e he
    | false =>
      rw [pa] at h
      rcases List.mem_cons.1 he with rfl | he
      · rw [pa] at pe; cases pe
      · exact ih sorted h he

/-- No code comes before `d` in the order of R96: the higher class first, within a class the lower code. -/
def FirstToEnter (q : NoticeQueue) (d : NoticeCode) : Prop :=
  q.waiting.get d.index = true ∧
    ∀ e : NoticeCode, q.waiting.get e.index = true → d.cls.code < e.cls.code ∨ d.cls = e.cls ∧ d.code ≤ e.code

/-- A test at which all codes of one class pass, and else none, where no code that waits has a higher class. -/
theorem firstToEnter_of_find {q : NoticeQueue} {d : NoticeCode} {p : NoticeCode → Bool}
    (h : (NoticeCode.all.filter fun c => q.waiting.get c.index).find? p = some d)
    (same : ∀ e : NoticeCode, q.waiting.get e.index = true → e.cls = d.cls → p e = true)
    (highest : ∀ e : NoticeCode, q.waiting.get e.index = true → e.cls ≠ d.cls → d.cls.code < e.cls.code) :
    FirstToEnter q d := by
  have sorted : (NoticeCode.all.filter fun c => q.waiting.get c.index).Pairwise (·.code ≤ ·.code) :=
    List.Pairwise.filter _ (by decide : NoticeCode.all.Pairwise (·.code ≤ ·.code))
  refine ⟨by simpa using (List.mem_filter.1 (List.mem_of_find?_eq_some h)).2, fun e he => ?_⟩
  by_cases cls : e.cls = d.cls
  · exact .inr ⟨cls.symm, find_lowest sorted h (List.mem_filter.2 ⟨e.mem_all, he⟩) (same e he cls)⟩
  · exact .inl (highest e he cls)

theorem nextWaiting_first {q : NoticeQueue} {d : NoticeCode} (h : nextWaiting q = some d) : FirstToEnter q d := by
  have absent {k : NoticeClass} (none : (NoticeCode.all.filter fun c => q.waiting.get c.index).find? (·.cls == k) = none)
      (e : NoticeCode) (he : q.waiting.get e.index = true) : e.cls ≠ k := by
    have := List.find?_eq_none.1 none e (List.mem_filter.2 ⟨e.mem_all, he⟩)
    simpa using this
  unfold nextWaiting at h
  dsimp only at h
  split at h
  case h_1 c found =>
    cases h
    have cls : d.cls = .trip := by simpa using List.find?_some found
    refine firstToEnter_of_find found (fun e _ ecls => by rw [ecls, cls]; rfl) fun e _ ecls => ?_
    rw [cls] at ecls ⊢; revert ecls; cases e.cls <;> decide
  case h_2 c noTrip found =>
    cases h
    have cls : d.cls = .warn := by simpa using List.find?_some found
    refine firstToEnter_of_find found (fun e _ ecls => by rw [ecls, cls]; rfl) fun e he ecls => ?_
    have trip := absent noTrip e he
    rw [cls] at ecls ⊢; revert ecls trip; cases e.cls <;> decide
  case h_3 noTrip noWarn =>
    have note (e : NoticeCode) (he : q.waiting.get e.index = true) : e.cls = .note := by
      have trip := absent noTrip e he
      have warn := absent noWarn e he
      revert trip warn; cases e.cls <;> decide
    have found : (NoticeCode.all.filter fun c => q.waiting.get c.index).find? (fun _ => true) = some d := by
      revert h; cases NoticeCode.all.filter fun c => q.waiting.get c.index <;> simp
    have waits : q.waiting.get d.index = true := by
      simpa using (List.mem_filter.1 (List.mem_of_find?_eq_some found)).2
    exact firstToEnter_of_find found (fun _ _ _ => rfl) fun e he ecls => absurd ((note e he).trans (note d waits).symm) ecls

theorem nextWaiting_none {q : NoticeQueue} (h : nextWaiting q = none) (e : NoticeCode) : q.waiting.get e.index = false := by
  unfold nextWaiting at h
  dsimp only at h
  split at h
  · cases h
  · cases h
  · rw [List.head?_eq_none_iff, List.filter_eq_nil_iff] at h
    simpa using h e e.mem_all

theorem nextWaiting_iff (q : NoticeQueue) (d : NoticeCode) : nextWaiting q = some d ↔ FirstToEnter q d := by
  refine ⟨nextWaiting_first, fun ⟨waits, first⟩ => ?_⟩
  cases next : nextWaiting q with
  | none => rw [nextWaiting_none next d] at waits; cases waits
  | some e =>
    obtain ⟨waitsE, firstE⟩ := nextWaiting_first next
    rcases first e waitsE with lt | ⟨cls, le⟩ <;> rcases firstE d waits with lt' | ⟨cls', le'⟩
    · exact absurd lt' (BitVec.not_lt.2 (BitVec.le_of_lt lt))
    · rw [cls'] at lt; exact absurd lt (BitVec.lt_irrefl _)
    · rw [cls] at lt'; exact absurd lt' (BitVec.lt_irrefl _)
    · rw [NoticeCode.code_inj (BitVec.le_antisymm le' le)]

end Sys2Proof.Machine
end

section
/-! The clearing of one notice (R97), and the judging where one condition has changed (R93, R96). -/

namespace Sys2Proof.Machine

/-! ## A clear (R97) -/

/-- A code that stands in no slot leaves the waiting set. -/
theorem clearNotice_waiting {c : NoticeCode} {s : State} (h : s.notices.slotOf c = none) : clearNotice c s =
    { s with notices := { s.notices with waiting := s.notices.waiting.set c.index false } } := by
  unfold clearNotice; rw [h]; rfl

/-- A NOTE, and a notice that is ACKED, leaves the queue. -/
theorem clearNotice_vacates {c : NoticeCode} {s : State} {i : Fin 8} {x : Notice} (slot : s.notices.slotOf c = some i)
    (hx : s.notices.slots.get i = some x) (h : c.cls = .note ∨ x.state = .acked) : clearNotice c s = vacateSlot i s := by
  unfold clearNotice; simp only [slot, hx]
  rw [if_pos (by simpa using h)]

/-- Any other that is ACTIVE becomes CLEARED, and one that is CLEARED stays so. -/
theorem clearNotice_stands {c : NoticeCode} {s : State} {i : Fin 8} {x : Notice} (slot : s.notices.slotOf c = some i)
    (hx : s.notices.slots.get i = some x) (h : ¬ (c.cls = .note ∨ x.state = .acked)) :
    clearNotice c s = if x.state = .active then setNoticeState i x .cleared s else s := by
  unfold clearNotice; simp only [slot, hx]
  rw [if_neg (by simpa using h)]
  simp only [beq_iff_eq]

/-! ## The conditions that have not changed -/

/-- Every condition but that of `c` stands as it was last judged. -/
def OthersJudged (c : NoticeCode) (s : State) : Prop :=
  ∀ k, k ≠ c → k ≠ .profileBreach → s.notices.holds.get k.index = s.condition k

/-- "PROFILE BREACH" stands in a CUTTER's queue only while the head is where it may not be. -/
def BreachStands (s : State) : Prop :=
  s.isRole .cutter = true → s.breachNotice.isSome = true → s.headIllegal = true

theorem OthersJudged.of_only {c : NoticeCode} {s t : State} (h : OthersJudged c s) (only : NoticesOnly s t)
    (holds : ∀ k : NoticeCode, k ≠ c → t.notices.holds.get k.index = s.notices.holds.get k.index) : OthersJudged c t :=
  fun k hk hp => by rw [holds k hk, condition_of_noticesOnly only]; exact h k hk hp

theorem breachNotice_isSome (s : State) :
    s.breachNotice.isSome = true ↔ ∃ i x, s.notices.slots.get i = some x ∧ x.code = .profileBreach := by
  unfold State.breachNotice
  constructor
  · intro h
    cases slot : s.notices.slotOf .profileBreach with
    | none => rw [slot] at h; cases h
    | some i => exact ⟨i, NoticeQueue.slotOf_some slot⟩
  · rintro ⟨i, x, hx, code⟩
    cases slot : s.notices.slotOf .profileBreach with
    | none => exact absurd code (NoticeQueue.slotOf_none slot i x hx)
    | some j =>
      obtain ⟨y, hy, -⟩ := NoticeQueue.slotOf_some slot
      simp [hy]

/-- An entry of a table with one entry replaced. -/
theorem Tbl.get_set_some {α : Type} {n : Nat} {t : Tbl (Option α) n} {i j : Fin n} {o : Option α} {x : α}
    (h : (t.set j o).get i = some x) : i = j ∧ o = some x ∨ t.get i = some x := by
  rw [Tbl.get_set] at h
  split at h
  · rename_i eq; exact .inl ⟨eq, h⟩
  · exact .inr h

/-- What stands in a slot after a clear stood there before, in whatever state. -/
theorem clearNotice_slots {c : NoticeCode} {s : State} {i : Fin 8} {x : Notice}
    (h : (clearNotice c s).notices.slots.get i = some x) :
    ∃ y, s.notices.slots.get i = some y ∧ y.code = x.code ∧ y.detail = x.detail := by
  cases slot : s.notices.slotOf c with
  | none => rw [clearNotice_waiting slot] at h; exact ⟨x, h, rfl, rfl⟩
  | some j =>
    obtain ⟨y, hy, -⟩ := NoticeQueue.slotOf_some slot
    by_cases leaves : c.cls = .note ∨ y.state = .acked
    · rw [clearNotice_vacates slot hy leaves] at h
      rcases Tbl.get_set_some h with ⟨-, gone⟩ | stays
      · cases gone
      · exact ⟨x, stays, rfl, rfl⟩
    · rw [clearNotice_stands slot hy leaves] at h
      split at h
      · rcases Tbl.get_set_some h with ⟨rfl, made⟩ | stays
        · cases made; exact ⟨y, hy, rfl, rfl⟩
        · exact ⟨x, stays, rfl, rfl⟩
      · exact ⟨x, h, rfl, rfl⟩

theorem BreachStands.clear {s : State} (h : BreachStands s) (c : NoticeCode) (b : Bool) :
    BreachStands (setHolds c b (clearNotice c s)) := by
  have only : NoticesOnly s (setHolds c b (clearNotice c s)) := (noticesOnly_clearNotice c s).trans rfl
  intro role breach
  have role' : s.isRole .cutter = true := by rw [only] at role; exact role
  obtain ⟨i, x, hx, code⟩ := (breachNotice_isSome _).1 breach
  obtain ⟨y, hy, same, -⟩ := clearNotice_slots hx
  have illegal := h role' ((breachNotice_isSome s).2 ⟨i, y, hy, same.trans code⟩)
  rw [only]; exact illegal

/-! ## The passes of the judging (R93) -/

theorem noticesOnly_judgedClear (c : NoticeCode) (s : State) : NoticesOnly s (setHolds c false (clearNotice c s)) :=
  (noticesOnly_clearNotice c s).trans rfl

theorem noticesOnly_judgedRaise (c : NoticeCode) (s : State) : NoticesOnly s (setHolds c true (raiseNotice c s)) :=
  (noticesOnly_raiseNotice c s).trans rfl

/-- A code whose condition has not gone false is not cleared. -/
theorem judgeClear_same {s : State} {d : NoticeCode} (breach : BreachStands s)
    (h : d ≠ .profileBreach → s.notices.holds.get d.index = true → s.condition d = true) : judgeClear s d = s := by
  unfold judgeClear
  by_cases hp : d = .profileBreach
  · subst hp
    rw [if_pos (beq_self_eq_true _), if_neg]
    simp only [Bool.and_eq_true, Bool.not_eq_true', not_and]
    exact fun both => by simp [breach both.1 both.2]
  · rw [if_neg (by simpa using hp), if_neg]
    simp only [Bool.and_eq_true, Bool.not_eq_true', not_and]
    exact fun held => by simp [h hp held]

/-- A code whose condition has not gone true is not raised. -/
theorem judgeRaise_same {s : State} {d : NoticeCode}
    (h : d ≠ .profileBreach → s.condition d = true → s.notices.holds.get d.index = true) : judgeRaise s d = s := by
  unfold judgeRaise
  rw [if_neg]
  simp only [Bool.and_eq_true, bne_iff_ne, Bool.not_eq_true']
  rintro ⟨⟨hp, idle⟩, holds⟩
  rw [h hp holds] at idle; cases idle

section
variable {c : NoticeCode} {s : State} (others : OthersJudged c s)
include others

theorem judgeClears_same (breach : BreachStands s) (h : s.notices.holds.get c.index = true → s.condition c = true)
    (l : List NoticeCode) : l.foldl judgeClear s = s := by
  induction l with
  | nil => rfl
  | cons d l ih =>
    rw [List.foldl_cons, judgeClear_same breach, ih]
    intro hp held
    by_cases e : d = c
    · subst e; exact h held
    · rw [← others d e hp]; exact held

theorem judgeRaises_same (h : s.condition c = true → s.notices.holds.get c.index = true) (l : List NoticeCode) :
    l.foldl judgeRaise s = s := by
  induction l with
  | nil => rfl
  | cons d l ih =>
    rw [List.foldl_cons, judgeRaise_same, ih]
    intro hp holds
    by_cases e : d = c
    · subst e; exact h holds
    · rw [others d e hp]; exact holds

variable (hc : c ≠ .profileBreach)
include hc

/-- Where `c` alone has gone false, the pass of clears is that clear. -/
theorem judgeClears_one (breach : BreachStands s) (held : s.notices.holds.get c.index = true) (gone : s.condition c = false)
    {l : List NoticeCode} (hl : c ∈ l) : l.foldl judgeClear s = setHolds c false (clearNotice c s) := by
  induction l with
  | nil => cases hl
  | cons d l ih =>
    rw [List.foldl_cons]
    by_cases e : d = c
    · subst e
      have now : judgeClear s d = setHolds d false (clearNotice d s) := by
        unfold judgeClear
        rw [if_neg (by simpa using hc), if_pos (by simp [held, gone])]
      rw [now]
      refine judgeClears_same (c := d) (others.of_only (noticesOnly_judgedClear d s) fun k hk => ?_)
        (breach.clear d false) (fun held => ?_) l
      · rw [setHolds_get, if_neg hk, clearNotice_holds]
      · rw [setHolds_get, if_pos rfl] at held; cases held
    · rw [judgeClear_same breach fun hp held => by rw [← others d e hp]; exact held]
      exact ih ((List.mem_cons.1 hl).resolve_left fun eq => e eq.symm)

/-- Where `c` alone has gone true, the pass of raises is that raise. -/
theorem judgeRaises_one (idle : s.notices.holds.get c.index = false) (holds : s.condition c = true)
    {l : List NoticeCode} (hl : c ∈ l) : l.foldl judgeRaise s = setHolds c true (raiseNotice c s) := by
  induction l with
  | nil => cases hl
  | cons d l ih =>
    rw [List.foldl_cons]
    by_cases e : d = c
    · subst e
      have now : judgeRaise s d = setHolds d true (raiseNotice d s) := by
        unfold judgeRaise
        rw [if_pos (by simp [hc, idle, holds])]
      rw [now]
      refine judgeRaises_same (c := d) (others.of_only (noticesOnly_judgedRaise d s) fun k hk => ?_)
        (fun _ => ?_) l
      · rw [setHolds_get, if_neg hk, raiseNotice_holds]
      · rw [setHolds_get, if_pos rfl]
    · rw [judgeRaise_same fun hp holds => by rw [others d e hp]; exact holds]
      exact ih ((List.mem_cons.1 hl).resolve_left fun eq => e eq.symm)

end

/-! ## The detail of "STATION SILENT" (R104) -/

theorem setHolds_slotOf (c d : NoticeCode) (b : Bool) (s : State) :
    (setHolds c b s).notices.slotOf d = s.notices.slotOf d := rfl

theorem setHolds_slots (c : NoticeCode) (b : Bool) (s : State) : (setHolds c b s).notices.slots = s.notices.slots := rfl

/-- A queue operation: what it leaves in a slot stood there before, in whatever state, or is raised now. -/
def QueueStep (s t : State) : Prop :=
  NoticesOnly s t ∧ ∀ i x, t.notices.slots.get i = some x →
    (∃ y, s.notices.slots.get i = some y ∧ y.code = x.code ∧ y.detail = x.detail) ∨ x.detail = detailOf x.code s

theorem silentSet_of_noticesOnly {s t : State} (h : NoticesOnly s t) : t.silentSet = s.silentSet := by
  rw [h]; rfl

theorem detailOf_of_noticesOnly {s t : State} (h : NoticesOnly s t) (c : NoticeCode) : detailOf c t = detailOf c s := by
  rw [h]; rfl

theorem QueueStep.of_slots {s t : State} (only : NoticesOnly s t) (slots : t.notices.slots = s.notices.slots) :
    QueueStep s t :=
  ⟨only, fun _ x hx => .inl ⟨x, by rw [← slots]; exact hx, rfl, rfl⟩⟩

theorem QueueStep.trans {s t u : State} (h : QueueStep s t) (g : QueueStep t u) : QueueStep s u := by
  refine ⟨h.1.trans g.1, fun i x hx => ?_⟩
  rcases g.2 i x hx with ⟨y, hy, code, detail⟩ | raised
  · rcases h.2 i y hy with ⟨z, hz, code', detail'⟩ | raised
    · exact .inl ⟨z, hz, code'.trans code, detail'.trans detail⟩
    · rw [code, detail] at raised; exact .inr raised
  · rw [detailOf_of_noticesOnly h.1] at raised; exact .inr raised

theorem queueStep_clear (c : NoticeCode) (s : State) : QueueStep s (clearNotice c s) :=
  ⟨noticesOnly_clearNotice c s, fun _ _ hx => .inl (clearNotice_slots hx)⟩

theorem queueStep_setHolds (c : NoticeCode) (b : Bool) (s : State) : QueueStep s (setHolds c b s) := .of_slots rfl rfl

theorem queueStep_enter (i : Fin 8) (c : NoticeCode) (s : State) : QueueStep s (enterSlot i c s) := by
  refine ⟨noticesOnly_enterSlot i c s, fun j x hx => ?_⟩
  rw [enterSlot_notices] at hx
  rcases Tbl.get_set_some hx with ⟨-, made⟩ | stays
  · cases made; exact .inr rfl
  · exact .inl ⟨x, stays, rfl, rfl⟩

theorem queueStep_displace (i : Fin 8) (s : State) : QueueStep s (displaceNote i s) := by
  unfold displaceNote; split
  · exact .of_slots rfl rfl
  · exact .of_slots rfl rfl

theorem queueStep_raise (c : NoticeCode) (s : State) : QueueStep s (raiseNotice c s) := by
  unfold raiseNotice; split
  · exact queueStep_enter _ c s
  · exact queueStep_enter _ c s
  · split
    · exact .of_slots rfl rfl
    · exact (queueStep_displace _ s).trans (queueStep_enter _ c _)
  · exact .of_slots rfl rfl

theorem queueStep_refill (s : State) : QueueStep s (refill s) := by
  unfold refill
  generalize eight = l
  induction l generalizing s with
  | nil => exact .of_slots rfl rfl
  | cons i l ih =>
    refine QueueStep.trans ?_ (ih _)
    show QueueStep s (if (s.notices.slots.get i).isNone then fillSlot i s else s)
    split
    · unfold fillSlot; split
      · exact queueStep_enter i _ s
      · exact .of_slots rfl rfl
    · exact .of_slots rfl rfl

/-- While the condition holds, "STATION SILENT" carries the stations that are SILENT now. -/
def SilentDetail (s : State) : Prop :=
  s.condition .stationSilent = true → ∀ i x, s.notices.slots.get i = some x → x.code = .stationSilent →
    x.detail = s.silentSet

theorem SilentDetail.step {s t : State} (h : SilentDetail s) (step : QueueStep s t) : SilentDetail t := by
  obtain ⟨only, slots⟩ := step
  intro holds i x hx code
  rw [condition_of_noticesOnly only] at holds
  rw [silentSet_of_noticesOnly only]
  rcases slots i x hx with ⟨y, hy, same, detail⟩ | raised
  · rw [← detail]; exact h holds i y hy (same.trans code)
  · rw [raised, code]; rfl

/-- A detail that is up to date is not written again. -/
theorem updateSilentDetail_same {s : State} (h : s.condition .stationSilent = true → ∀ i x,
    s.notices.slotOf .stationSilent = some i → s.notices.slots.get i = some x → x.detail = s.silentSet) :
    updateSilentDetail s = s := by
  unfold updateSilentDetail
  split
  · rename_i i slot
    split
    · rename_i x hx
      rw [if_neg]
      simp only [Bool.and_eq_true, bne_iff_ne, not_and, not_not]
      exact fun holds => h holds i x slot hx
    · rfl
  · rfl

theorem SilentDetail.same {s : State} (h : SilentDetail s) : updateSilentDetail s = s :=
  updateSilentDetail_same fun holds i x slot hx => by
    obtain ⟨y, hy, code⟩ := NoticeQueue.slotOf_some slot
    rw [hx] at hy; cases hy
    exact h holds i x hx code

/-- Where a code stands or is free to stand, the slot it enters is the one found for it. -/
theorem slotOf_enterSlot {i : Fin 8} {c : NoticeCode} {s : State}
    (h : s.notices.slotOf c = some i ∨ s.notices.slotOf c = none) : (enterSlot i c s).notices.slotOf c = some i := by
  have made : (enterSlot i c s).notices.slots.get i = some (s.madeNotice c) := by
    rw [enterSlot_notices]; exact Tbl.get_set .. |>.trans (if_pos rfl)
  rcases h with stands | absent
  · have slots : (fun j => ((enterSlot i c s).notices.slots.get j).map (·.code) == some c) =
        fun j => (s.notices.slots.get j).map (·.code) == some c := by
      obtain ⟨x, hx, code⟩ := NoticeQueue.slotOf_some stands
      funext j
      rw [enterSlot_notices]
      simp only [Tbl.get_set]
      split
      · rename_i e; subst e; simp [hx, code]
      · rfl
    exact (congrArg (eight.find? ·) slots).trans stands
  · cases found : (enterSlot i c s).notices.slotOf c with
    | none => exact absurd rfl (NoticeQueue.slotOf_none found i _ made)
    | some j =>
      obtain ⟨x, hx, code⟩ := NoticeQueue.slotOf_some found
      rw [enterSlot_notices] at hx
      rcases Tbl.get_set_some hx with ⟨rfl, -⟩ | stood
      · rfl
      · exact absurd code (NoticeQueue.slotOf_none absent j x stood)

/-- "STATION SILENT" raised carries the stations that are SILENT now. -/
theorem raiseSilent_detail {s : State} {i : Fin 8} {x : Notice}
    (slot : (raiseNotice .stationSilent s).notices.slotOf .stationSilent = some i)
    (hx : (raiseNotice .stationSilent s).notices.slots.get i = some x) : x.detail = s.silentSet := by
  have entered {j : Fin 8} {u : State} (only : NoticesOnly s u)
      (h : u.notices.slotOf .stationSilent = some j ∨ u.notices.slotOf .stationSilent = none)
      (slot : (enterSlot j .stationSilent u).notices.slotOf .stationSilent = some i)
      (hx : (enterSlot j .stationSilent u).notices.slots.get i = some x) : x.detail = s.silentSet := by
    rw [slotOf_enterSlot h] at slot
    cases slot
    rw [enterSlot_notices] at hx
    simp only [Tbl.get_set, if_true] at hx
    cases hx
    exact detailOf_of_noticesOnly only .stationSilent
  revert slot hx
  unfold raiseNotice
  split
  · rename_i stands; exact entered (.refl s) (.inl stands)
  · rename_i absent _; exact entered (.refl s) (.inr absent)
  · rename_i j absent _ _
    have displaced : (displaceNote j s).notices.slotOf .stationSilent = none := by
      unfold displaceNote; split <;> exact absent
    exact entered (queueStep_displace j s).1 (.inr displaced)
  · rename_i absent _ _
    have absent : (refuseRaise .stationSilent s).notices.slotOf .stationSilent = none := absent
    intro slot
    rw [absent] at slot; cases slot

/-! ## The judging of one change (R93, R96) -/

section
variable {c : NoticeCode} {s : State} (hc : c ≠ .profileBreach) (others : OthersJudged c s) (breach : BreachStands s)
  (silent : c ≠ .stationSilent → SilentDetail s)
include hc others breach silent

theorem judgeNotices_clears (held : s.notices.holds.get c.index = true) (gone : s.condition c = false) :
    judgeNotices s = refill (setHolds c false (clearNotice c s)) := by
  unfold judgeNotices
  rw [judgeClears_one others hc breach held gone c.mem_all]
  have only := (noticesOnly_judgedClear c s).trans (noticesOnly_refill _)
  have others : OthersJudged c (refill (setHolds c false (clearNotice c s))) := others.of_only only fun k hk => by
    rw [refill_holds, setHolds_get, if_neg hk, clearNotice_holds]
  have detail : updateSilentDetail (refill (setHolds c false (clearNotice c s))) =
      refill (setHolds c false (clearNotice c s)) := by
    by_cases e : c = .stationSilent
    · subst e
      refine updateSilentDetail_same fun holds => ?_
      rw [condition_of_noticesOnly only, gone] at holds; cases holds
    · exact ((silent e).step (((queueStep_clear c s).trans (queueStep_setHolds c false _)).trans (queueStep_refill _))).same
  rw [judgeRaises_same others fun holds => ?_, detail]
  rw [condition_of_noticesOnly only, gone] at holds; cases holds

theorem judgeNotices_raises (idle : s.notices.holds.get c.index = false) (holds : s.condition c = true) :
    judgeNotices s = setHolds c true (raiseNotice c (refill s)) := by
  unfold judgeNotices
  rw [judgeClears_same others breach fun _ => holds]
  have only := noticesOnly_refill s
  have others : OthersJudged c (refill s) := others.of_only only fun k _ => by rw [refill_holds]
  rw [judgeRaises_one others hc (by rw [refill_holds]; exact idle) (by rw [condition_of_noticesOnly only]; exact holds) c.mem_all]
  by_cases e : c = .stationSilent
  · subst e
    refine updateSilentDetail_same fun _ i x slot hx => ?_
    rw [silentSet_of_noticesOnly (noticesOnly_judgedRaise .stationSilent (refill s))]
    rw [setHolds_slotOf] at slot
    rw [setHolds_slots] at hx
    exact raiseSilent_detail (s := refill s) (i := i) slot hx
  · have step : QueueStep s (setHolds c true (raiseNotice c (refill s))) :=
      (queueStep_refill s).trans ((queueStep_raise c (refill s)).trans (queueStep_setHolds c true (raiseNotice c (refill s))))
    exact ((silent e).step step).same

end

end Sys2Proof.Machine
end

section
/-! The conditions as last judged are those of the catalogue, after every command and every tick (R93). -/

namespace Sys2Proof.Machine

/-- Every condition is held as it stands. -/
def ConditionsHeld (s : State) : Prop :=
  ∀ c : NoticeCode, c ≠ .profileBreach → s.notices.holds.get c.index = s.condition c

theorem ConditionsHeld.noticesJudged {s : State} (h : ConditionsHeld s) : s.NoticesJudged :=
  fun _ c hc => by rw [h c hc]; exact condition_iff s c

theorem noticesJudged_iff {s : State} (live : s.live = true) : s.NoticesJudged ↔ ConditionsHeld s := by
  refine ⟨fun h c hc => ?_, fun h => h.noticesJudged⟩
  have := (h live c hc).trans (condition_iff s c).symm
  exact Bool.eq_iff_iff.2 this

theorem noticesJudged_notLive {s : State} (h : s.live = false) : s.NoticesJudged :=
  fun live => absurd live (by simp [h])

/-! ## The end of an event -/

/-- A condition is read from the sequencers, the vigilance check and what the end of an event leaves. -/
theorem condition_of_rest {s t : State} (h : t.rest = s.rest) (scrub : t.scrub = s.scrub) (conv : t.conv = s.conv)
    (cab : t.cab.vig = s.cab.vig) : t.condition = s.condition := by
  have role := isRole_of_rest h
  have state : t.recovery.state = s.recovery.state :=
    show t.recovery.rest.state = s.recovery.rest.state by rw [recovery_of_rest h]
  have acked : t.recovery.lostAcked = s.recovery.lostAcked :=
    show t.recovery.rest.lostAcked = s.recovery.rest.lostAcked by rw [recovery_of_rest h]
  have lost : t.ring.accountLost = s.ring.accountLost :=
    show t.ring.rest.accountLost = s.ring.rest.accountLost by rw [ring_of_rest h]
  have fall : t.atFall = s.atFall := by funext r; simp only [State.atFall, image_of_rest h]
  have up : t.panel.up = s.panel.up := congrArg (·.up) (panel_of_rest h)
  have missing : t.panel.answerMissing = s.panel.answerMissing := congrArg (·.answerMissing) (panel_of_rest h)
  funext c
  cases c <;> simp only [State.condition, role, face_of_rest h, lost, restored_of_rest h, state, acked, scrub, conv, cab,
    inputs_of_rest h, image_of_rest h, up, missing, sfc_of_rest h, hfc_of_rest h, lineState_of_rest h, late_of_rest h,
    dropped_of_rest h, sensor_of_rest h, State.faceComplete, State.faceFalling, fall, State.silentSet,
    claim_of_rest h]

/-- What follows the judging leaves the conditions, and what was judged of them. -/
theorem ConditionsHeld.of_same {s t : State} (hs : ConditionsHeld s) (h : t.rest = s.rest)
    (holds : t.notices.holds = s.notices.holds) (scrub : t.scrub = s.scrub) (conv : t.conv = s.conv)
    (cab : t.cab.vig = s.cab.vig) : ConditionsHeld t := by
  intro c hc
  rw [holds, condition_of_rest h scrub conv cab]
  exact hs c hc

theorem judgeBreach_holds (s : State) : (judgeBreach s).notices.holds = s.notices.holds := by
  unfold judgeBreach; repeat' split
  · rfl
  · exact clearNotice_holds _ s
  · exact raiseNotice_holds _ s
  · rfl

theorem permitSync_holds (s : State) : (permitSync s).notices.holds = s.notices.holds := by
  have moved (v : State) : (movePermit v).notices = v.notices := by
    unfold movePermit; repeat' split
    all_goals rfl
  unfold permitSync; split
  · unfold evaluatePermit applyReasons
    show (movePermit _).notices.holds = _
    rw [moved, ← judgeBreach_holds s]
    unfold releaseBreach noteBreachEntered
    repeat' split
    all_goals rfl
  · rfl

theorem displaySync_vig (s : State) : (displaySync s).cab.vig = s.cab.vig := by unfold displaySync; split <;> rfl

theorem sync_conditionsHeld (s : State) : ConditionsHeld (sync s) := by
  have judged : ConditionsHeld (judgeNotices (unitSync s)) := fun c hc => by
    rw [judgeNotices_holds _ hc, condition_of_noticesOnly (noticesOnly_judgeNotices _)]
  unfold sync
  generalize judgeNotices (unitSync s) = v at judged
  refine judged.of_same (by simp) ?_ ?_ ?_ ?_
  · rw [displaySync_notices, requestSync_notices, permitSync_holds]
  · rw [displaySync_scrub, requestSync_scrub, permitSync_scrub]
  · rw [displaySync_conv, requestSync_conv, permitSync_conv]
  · rw [displaySync_vig, requestSync_cab, permitSync_cab]

theorem finish_conditionsHeld {pre s : State} (live : s.live = true) : ConditionsHeld (finish pre s) := by
  unfold finish; rw [if_pos live]; unfold settle
  have held : ConditionsHeld (retrySync pre (sync s)) := by
    unfold retrySync; split
    · exact sync_conditionsHeld _
    · exact sync_conditionsHeld s
  generalize retrySync pre (sync s) = v at held
  obtain ⟨served, convServed, -⟩ := afterSync_units pre v
  refine held.of_same (by simp) ?_ ?_ ?_ ?_
  · rw [statusSync_notices, State.noteRestarted_notices, beginFrame_notices, earlySync_notices, fillOrderSlot_notices]
  · rw [(statusSync_units _).1, State.noteRestarted_scrub, served]
  · rw [(statusSync_units _).2.1, State.noteRestarted_conv, convServed]
  · rw [statusSync_cab, State.noteRestarted_cab, beginFrame_cab, earlySync_cab, fillOrderSlot_cab]

theorem finish_noticesJudged (pre s : State) : (finish pre s).NoticesJudged := by
  cases live : s.live with
  | true => exact (finish_conditionsHeld live).noticesJudged
  | false => exact noticesJudged_notLive ((finish_live pre s).trans live)

theorem event_noticesJudged {f : State → State} {s t : State} (h : s.NoticesJudged) (ht : event f s = .next t) :
    t.NoticesJudged := by
  cases Host.Outcome.next.inj ht; split
  · exact finish_noticesJudged s (f s)
  · exact h

/-! ## Every command -/

theorem exec_noticesJudged (c : Instr) {s t : State} (h : s.NoticesJudged) (ht : exec c s = .next t) : t.NoticesJudged := by
  cases c with
  | powerOn straps => cases Host.Outcome.next.inj ht; exact noticesJudged_notLive rfl
  | resetAssert => cases Host.Outcome.next.inj ht; exact noticesJudged_notLive rfl
  | imageReadStart =>
    cases Host.Outcome.next.inj ht
    unfold startRead; split <;> exact h
  | imageReadComplete bytes =>
    cases Host.Outcome.next.inj ht
    unfold completeRead; repeat' split
    · exact finish_noticesJudged _ _
    · exact noticesJudged_notLive (live_of_rest (rest_statusSync _))
    · exact h
  | statusPatternStep => cases Host.Outcome.next.inj ht; exact h
  | quietWaitEnd => exact event_noticesJudged (f := fun s => s.withSensor fun u => { u with quietWait := false }) h ht
  | _ => exact event_noticesJudged h ht

/-! ## Every tick, and every step -/

/-- A roster entry that is SILENT. -/
def silentEntry (e : Option RosterEntry) : Bool :=
  match e with
  | some e => e.state == .silent
  | none => false

theorem silentSet_eq (s : State) : s.silentSet = maskOf (s.claim.roster.map silentEntry) := rfl

/-- A tick ends no roster state. -/
theorem tick_silent (u : ClaimUnit) : u.tick.roster.map silentEntry = u.roster.map silentEntry := by
  refine Tbl.ext_get fun n => ?_
  simp only [ClaimUnit.tick, Tbl.get_map]
  cases u.roster.get n <;> rfl

theorem tick_accountLost (g : LotRing) : g.tick.accountLost = g.accountLost := by
  unfold LotRing.tick; repeat' split
  all_goals rfl

theorem channelFault_tick (s : State) :
    s.sensorTick.channels.toList.any (·.state == .fault) = s.sensor.channels.toList.any (·.state == .fault) := by
  simp only [State.sensorTick, Tbl.map, List.any_map]
  rfl

theorem debounceTick_condition (s : State) : (debounceTick s).condition = s.condition := by
  obtain ⟨inputs, pins, debounced, read⟩ := debounceTick_eq s
  funext c
  rw [debounced]
  cases c with
  | pullWire =>
    show (s.isRole .conveyor && inputs.get 2) = (s.isRole .conveyor && s.inputs.get 2)
    cases role : s.isRole .conveyor with
    | false => rfl
    | true => rw [read 2 true (by rw [role_of_isRole role]; rfl)]
  | _ => rfl

/-- No time that passes makes or ends a condition: what a condition reads changes by the command of the time's expiry. -/
theorem liveTick_condition (s : State) : (liveTick s).condition = s.condition := by
  rw [← debounceTick_condition s]
  unfold liveTick; dsimp only
  generalize debounceTick s = v
  funext c
  cases c with
  | stationSilent =>
    have silent (u : State) (claim : u.claim = v.claim.tick) : u.silentSet = v.silentSet := by
      rw [silentSet_eq, silentSet_eq, claim, tick_silent]
    split
    all_goals
      simp only [State.condition]
      rw [silent _ rfl]; rfl
  | channelFault => split <;> exact channelFault_tick v
  | spoilAccountLost =>
    split
    · exact congrArg (fun lost => v.isRole .cutter && lost) (tick_accountLost v.ring)
    all_goals rfl
  | _ => split <;> rfl

theorem passTick_noticesJudged {s : State} (h : s.NoticesJudged) : (passTick s).NoticesJudged := by
  unfold passTick; split
  · rename_i live
    have part : ConditionsHeld (partTick s) := (noticesJudged_iff live).1 h
    refine ConditionsHeld.noticesJudged fun c hc => ?_
    rw [liveTick_condition, ← part c hc, (liveTick_display _).1]
  · rename_i live
    refine noticesJudged_notLive ?_
    unfold restTick; split <;> exact Bool.eq_false_iff.2 live

theorem step_noticesJudged {s t : State} (h : s.NoticesJudged) (ht : step s = .next t) : t.NoticesJudged := by
  unfold step at ht; split at ht
  · rename_i c queue _
    have popped : ({ s with pending := queue } : State).NoticesJudged := h
    exact exec_noticesJudged c popped ht
  · unfold idle at ht; split at ht
    · exact exec_noticesJudged _ h ht
    · cases Host.Outcome.next.inj ht; exact passTick_noticesJudged h

end Sys2Proof.Machine
end

section
/-! The own queue's obligation, from its operations, the judging of one change, and the conditions held at every moment. -/

namespace Sys2Proof.Machine

/-- A raise enters the code's own slot, else the lowest free one, else that of the oldest NOTE; else it waits (R94, R95). -/
theorem raiseNotice_cases (s : State) (c : NoticeCode) :
    match s.notices.slotOf c, freeSlot s.notices, oldestNote s.notices with
    | some i, _, _ | none, some i, _ =>
      EntersSlot c i s (raiseNotice c s) ∧ (raiseNotice c s).notices.overflow = s.notices.overflow
    | none, none, some i =>
      if c.cls = .note then
        (raiseNotice c s).notices = { s.notices with waiting := s.notices.waiting.set c.index true, overflow := true }
      else EntersSlot c i s (raiseNotice c s) ∧ (raiseNotice c s).notices.overflow = true ∧
        ∀ x, s.notices.slots.get i = some x → x.code ≠ c → s.notices.holds.get x.code.index = true →
          (raiseNotice c s).notices.waiting.get x.code.index = true
    | none, none, none =>
      (raiseNotice c s).notices = { s.notices with waiting := s.notices.waiting.set c.index true, overflow := true } ∧
        (raiseNotice c s).line = s.line := by
  have overflow (i : Fin 8) (u : State) : (enterSlot i c u).notices.overflow = u.notices.overflow := by
    rw [enterSlot_notices]
  cases slot : s.notices.slotOf c with
  | some i => rw [raiseNotice_renews slot]; exact ⟨entersSlot_enterSlot i c s, overflow i s⟩
  | none =>
    cases free : freeSlot s.notices with
    | some i => rw [raiseNotice_enters slot free]; exact ⟨entersSlot_enterSlot i c s, overflow i s⟩
    | none =>
      cases oldest : oldestNote s.notices with
      | none => rw [raiseNotice_waits slot free (.inl oldest)]; exact ⟨rfl, rfl⟩
      | some i =>
        obtain ⟨x, hx, -⟩ := oldestNote_some oldest
        show if _ then _ else _
        by_cases note : c.cls = .note
        · rw [if_pos note, raiseNotice_waits slot free (.inr note)]; rfl
        · rw [if_neg note, raiseNotice_displaces slot free oldest note]
          refine ⟨entersSlot_displaced hx, ?_, fun y hy other held => waiting_displaced hy other held⟩
          rw [overflow, displaceNote_eq hx]; rfl

/-- What a clear does, by the notice that stands (R97). -/
theorem clearNotice_cases (s : State) (c : NoticeCode) :
    match (s.notices.slotOf c).map fun i => (i, s.notices.slots.get i) with
    | some (i, some x) =>
      if c.cls = .note ∨ x.state = .acked then clearNotice c s = { s with notices := { s.notices with
          slots := s.notices.slots.set i none, marks := s.notices.marks.set i none
          order := s.notices.order.filter (· != i) } }
      else if x.state = .active then
        ((clearNotice c s).notices.marks.get i).isSome = true ∧ clearNotice c s = { s with notices := { s.notices with
          slots := s.notices.slots.set i (some { x with state := .cleared }), marks := (clearNotice c s).notices.marks } }
      else clearNotice c s = s
    | _ => clearNotice c s =
        { s with notices := { s.notices with waiting := s.notices.waiting.set c.index false } } := by
  cases slot : s.notices.slotOf c with
  | none => exact clearNotice_waiting slot
  | some i =>
    obtain ⟨x, hx, -⟩ := NoticeQueue.slotOf_some slot
    rw [Option.map_some, hx]
    show if _ then _ else _
    by_cases leaves : c.cls = .note ∨ x.state = .acked
    · rw [if_pos leaves, clearNotice_vacates slot hx leaves]; rfl
    · rw [if_neg leaves, clearNotice_stands slot hx leaves]
      split
      · refine ⟨?_, rfl⟩
        simp [setNoticeState, markSlot, State.withNotices]
      · rfl

/-- The lowest free slot takes the code that waits first, and so on (R96). -/
theorem refill_cases (s : State) : match freeSlot s.notices, nextWaiting s.notices with
    | some i, some d => ∃ u, EntersSlot d i s u ∧ u.notices.overflow = s.notices.overflow ∧
        u.notices.holds = s.notices.holds ∧ u.notices.waiting = s.notices.waiting.set d.index false ∧ refill s = refill u
    | _, _ => refill s = s := by
  have filled := refill_eq s
  split
  · rename_i i d free next
    rw [free, next] at filled
    refine ⟨enterSlot i d s, entersSlot_enterSlot i d s, ?_, ?_, ?_, filled⟩ <;> rw [enterSlot_notices]
  · rename_i none
    split at filled
    · rename_i i d free next; exact (none i d free next).elim
    · exact filled

/-- Settles O44: the queue's operations by their cases, the judging by the one condition that has changed, and the conditions
as they stand after every command and every tick. -/
theorem raiseRenewsEntersOrWaits : Obligations.RaiseRenewsEntersOrWaits := by
  refine ⟨fun s c => ⟨rest_raiseNotice c s, raiseNotice_cases s c⟩, nextWaiting_iff, refill_cases,
    fun s c => clearNotice_cases s c, fun s c hc others breach silent => ⟨fun held gone => ?_, fun idle holds => ?_⟩,
    noticesJudged_notLive rfl, fun s t h ht => step_noticesJudged h ht⟩
  · exact judgeNotices_clears hc others breach silent held gone
  · exact judgeNotices_raises hc others breach silent idle holds

end Sys2Proof.Machine
end

section
/-! The vigilance check of a CAB through the end of an event (R108 to R111): what it follows, and where it stays. -/

namespace Sys2Proof.Machine

/-- The CAB unit's vigilance check, the display apart. -/
def CabUnit.check (u : CabUnit) : CabUnit := { u with cands := [], list := [], horn := none, firstOut := none }

theorem displaySync_check (s : State) : (displaySync s).cab.check = s.cab.check := by unfold displaySync; split <;> rfl

/-- What the check is made of. -/
theorem CabUnit.check_fields {u v : CabUnit} (h : u.check = v.check) : u.vig = v.vig ∧ u.period = v.period ∧
    u.grace = v.grace ∧ u.superseded = v.superseded ∧ u.pair = v.pair ∧ u.standing = v.standing ∧ u.demand = v.demand :=
  ⟨congrArg (·.vig) h, congrArg (·.period) h, congrArg (·.grace) h, congrArg (·.superseded) h, congrArg (·.pair) h,
    congrArg (·.standing) h, congrArg (·.demand) h⟩

/-- Standing and demand are those that roster and shared picture give. -/
def VigilanceFollows (s : State) : Prop := s.isVigilanceCab = s.cab.standing ∧ s.demandShown = s.cab.demand

theorem isVigilanceCab_congr {s t : State} (live : t.live = s.live) (image : t.image = s.image)
    (station : t.station = s.station) (present : t.isPresent .cab = s.isPresent .cab) :
    t.isVigilanceCab = s.isVigilanceCab := by
  simp only [State.isVigilanceCab, State.isRole, State.role, State.cfg, live, image, station, present]

theorem isVigilanceCab_of_rest {s t : State} (h : t.rest = s.rest) : t.isVigilanceCab = s.isVigilanceCab :=
  isVigilanceCab_congr (live_of_rest h) (image_of_rest h) (station_of_rest h) (funext (isPresent_of_rest h .cab))

theorem VigilanceFollows.of_rest {s t : State} (follows : VigilanceFollows s) (h : t.rest = s.rest)
    (standing : t.cab.standing = s.cab.standing) (demand : t.cab.demand = s.cab.demand) : VigilanceFollows t :=
  ⟨by rw [isVigilanceCab_of_rest h, standing, follows.1], by rw [demandShown_of_rest h, demand, follows.2]⟩

/-! ## The check follows (R108 to R110) -/

theorem vigSync_same {s : State} (h : VigilanceFollows s) : vigSync s = s := by
  unfold vigSync vigDemand
  rw [if_pos h.1, if_pos h.2, ite_self]

/-- A demand change leaves the standing. -/
theorem vigDemand_follows (s : State) :
    (vigDemand s).cab.standing = s.cab.standing ∧ (vigDemand s).cab.demand = s.demandShown := by
  unfold vigDemand; dsimp only
  split
  · rename_i same; exact ⟨rfl, same.symm⟩
  · repeat' split
    all_goals exact ⟨rfl, rfl⟩

/-- A change of the standing clears a half-taken pair and puts the check to IDLE, or with demand shown to RUNNING from 0. -/
theorem changeStanding_check (now : Bool) (s : State) :
    (changeStanding now s).cab.standing = now ∧ (changeStanding now s).cab.demand = s.demandShown ∧
      (changeStanding now s).cab.pair = none ∧
      if now = true ∧ s.demandShown = true then
        (changeStanding now s).cab.vig = .running ∧ (changeStanding now s).cab.period = some (sec s.image.vigilance) ∧
          (changeStanding now s).cab.grace = none
      else (changeStanding now s).cab.vig = .idle ∧ (changeStanding now s).cab.period = none ∧
        (changeStanding now s).cab.grace = none := by
  unfold changeStanding; dsimp only [State.withCab]
  cases now <;> cases s.demandShown <;> exact ⟨rfl, rfl, rfl, rfl, rfl, rfl⟩

section
variable {s : State} (role : s.isRole .cab = true)
include role

theorem vigSync_changed (h : s.isVigilanceCab ≠ s.cab.standing) : vigSync s = changeStanding s.isVigilanceCab s := by
  unfold vigSync; rw [if_pos role, if_neg h]

theorem vigSync_stands (h : s.isVigilanceCab = s.cab.standing) : vigSync s = vigDemand s := by
  unfold vigSync; rw [if_pos role, if_pos h]

/-- Once it has followed, there is nothing more to follow. -/
theorem vigSync_follows : VigilanceFollows (vigSync s) := by
  have rest := rest_vigSync s
  rw [VigilanceFollows, isVigilanceCab_of_rest rest, demandShown_of_rest rest]
  by_cases standing : s.isVigilanceCab = s.cab.standing
  · rw [vigSync_stands role standing]
    obtain ⟨kept, now⟩ := vigDemand_follows s
    exact ⟨by rw [kept, standing], now.symm⟩
  · rw [vigSync_changed role standing]
    obtain ⟨now, demand, -⟩ := changeStanding_check s.isVigilanceCab s
    exact ⟨now.symm, demand.symm⟩

/-! ## The check at the end of an event -/

theorem sync_check : (sync s).cab.check = (vigSync s).cab.check := by
  obtain ⟨v, _, cab, synced⟩ := sync_cab role
  rw [synced, displaySync_check, cab]

theorem finish_check {pre : State} (live : s.live = true) : (finish pre s).cab.check = (vigSync s).cab.check := by
  rw [finish_cab live role, sync_check role]

/-- An event after which there is nothing to follow leaves the check as it made it. -/
theorem finish_keepsCheck {pre : State} (live : s.live = true) (h : VigilanceFollows s) :
    (finish pre s).cab.check = s.cab.check := by rw [finish_check role live, vigSync_same h]

theorem sync_follows : VigilanceFollows (sync s) := by
  obtain ⟨-, -, -, -, -, standing, demand⟩ := CabUnit.check_fields (sync_check role)
  exact (vigSync_follows role).of_rest ((rest_sync s).trans (rest_vigSync s).symm) standing demand

end

section
variable {f : State → State} {s : State} (role : (f s).isRole .cab = true)
include role

theorem subEvent_check : (subEvent f s).cab.check = (vigSync (f s)).cab.check := by
  rw [subEvent, noteEarly_cab, sync_check role]

theorem subEvent_follows : VigilanceFollows (subEvent f s) :=
  (sync_follows role).of_rest ((rest_subEvent f s).trans (rest_sync (f s)).symm) (by rw [subEvent, noteEarly_cab])
    (by rw [subEvent, noteEarly_cab])

/-- An event within a command leaves nothing for the command's end to follow. -/
theorem finish_subEvent_check {pre : State} (live : (f s).live = true) :
    (finish pre (subEvent f s)).cab.check = (vigSync (f s)).cab.check := by
  have rest := rest_subEvent f s
  rw [finish_keepsCheck ((isRole_of_rest rest .cab).trans role) ((live_of_rest rest).trans live) (subEvent_follows role),
    subEvent_check role]

end

end Sys2Proof.Machine
end

section
/-! The times and the keys of the vigilance check, the CUTTER's demand, and the changes of the standing (R108 to R112). -/

namespace Sys2Proof.Machine

/-! ## An event of the check alone -/

/-- What an event of the check alone makes of the state: its rest, standing and demand stay. -/
def ChecksOnly (s v : State) : Prop :=
  v.rest = s.rest ∧ v.cab.standing = s.cab.standing ∧ v.cab.demand = s.cab.demand

theorem checksOnly_withCab {s : State} (role : s.isRole .cab = true) (f : CabUnit → CabUnit)
    (standing : (f s.cab).standing = s.cab.standing) (demand : (f s.cab).demand = s.cab.demand) :
    ChecksOnly s (s.withCab f) := ⟨rest_withCab role f, standing, demand⟩

theorem ChecksOnly.trans {s u v : State} (h : ChecksOnly s u) (g : ChecksOnly u v) : ChecksOnly s v :=
  ⟨g.1.trans h.1, g.2.1.trans h.2.1, g.2.2.trans h.2.2⟩

section
variable {s v : State} (live : s.live = true) (role : s.isRole .cab = true) (follows : VigilanceFollows s)
include live role follows

/-- The end of such an event leaves the check as the event made it. -/
theorem ChecksOnly.finish {pre : State} (h : ChecksOnly s v) :
    (finish pre v).rest = s.rest ∧ (finish pre v).cab.check = v.cab.check := by
  obtain ⟨rest, standing, demand⟩ := h
  exact ⟨(finish_rest pre v).trans rest, finish_keepsCheck ((isRole_of_rest rest .cab).trans role)
    ((live_of_rest rest).trans live) (follows.of_rest rest standing demand)⟩

/-- A key of the check: its act, and nothing more to follow. -/
theorem ChecksOnly.key {act : State → State} (h : ChecksOnly s (act s)) :
    (Machine.finish s (subEvent act s)).rest = s.rest ∧ (Machine.finish s (subEvent act s)).cab.check = (act s).cab.check := by
  obtain ⟨rest, standing, demand⟩ := h
  refine ⟨(finish_rest s _).trans ((rest_subEvent act s).trans rest), ?_⟩
  rw [finish_subEvent_check ((isRole_of_rest rest .cab).trans role) ((live_of_rest rest).trans live),
    vigSync_same (follows.of_rest rest standing demand)]

end

/-! ## The keyed pair (R109 to R111) -/

theorem keyedPair_checksOnly {s : State} (role : s.isRole .cab = true) : ChecksOnly s (keyedPair s) := by
  have runs : ChecksOnly s (vigRun s) := checksOnly_withCab role _ rfl rfl
  have idles : ChecksOnly s (vigIdle s) := checksOnly_withCab role _ rfl rfl
  have same : ChecksOnly s s := ⟨rfl, rfl, rfl⟩
  unfold keyedPair
  split
  · exact same
  · split
    · exact same
    · exact runs.trans (checksOnly_withCab (s := vigRun s) role _ rfl rfl)
    · exact runs
    · split
      · exact runs
      · exact idles

theorem keyedPair_pair (s : State) : (keyedPair s).cab.pair = s.cab.pair := by
  unfold keyedPair vigRun vigIdle
  repeat' split
  all_goals rfl

/-- What the keyed pair makes of the check of the vigilance CAB. -/
theorem keyedPair_vig {s : State} (standing : s.cab.standing = true) : match s.cab.vig with
    | .idle => (keyedPair s).cab.vig = .idle
    | .running => (keyedPair s).cab.vig = .running ∧ (keyedPair s).cab.period = some (sec s.image.vigilance) ∧
        (keyedPair s).cab.grace = none ∧ (keyedPair s).cab.superseded = true
    | .warned => (keyedPair s).cab.vig = .running ∧ (keyedPair s).cab.period = some (sec s.image.vigilance) ∧
        (keyedPair s).cab.grace = none
    | .lapsed => (keyedPair s).cab.vig = if s.demandShown then .running else .idle := by
  unfold keyedPair
  rw [standing]
  cases vig : s.cab.vig with
  | idle => exact vig
  | running => exact ⟨rfl, rfl, rfl, rfl⟩
  | warned => exact ⟨rfl, rfl, rfl⟩
  | lapsed => cases s.demandShown <;> rfl

/-! ## A change of the standing (R108, R111) -/

/-- An event that leaves the CAB unit, and after which the station is the vigilance CAB where it was not, or the reverse. -/
theorem finish_standing {pre s v : State} (cab : v.cab = s.cab) (image : v.image = s.image) (role : v.isRole .cab = true) :
    let t := finish pre v
    t.live = true → t.isVigilanceCab ≠ s.cab.standing →
      t.cab.standing = t.isVigilanceCab ∧ t.cab.pair = none ∧ t.cab.demand = t.demandShown ∧
      if t.isVigilanceCab = true ∧ t.demandShown = true then
        t.cab.vig = .running ∧ t.cab.period = some (sec s.image.vigilance) ∧ t.cab.grace = none
      else t.cab.vig = .idle ∧ t.cab.period = none ∧ t.cab.grace = none := by
  intro t live changes
  have rest : t.rest = v.rest := finish_rest pre v
  have live : v.live = true := (finish_live pre v).symm.trans live
  have check : t.cab.check = (vigSync v).cab.check := finish_check role live
  rw [isVigilanceCab_of_rest rest, ← cab] at changes
  rw [vigSync_changed role changes] at check
  obtain ⟨vig, period, grace, -, pair, standing, demand⟩ := CabUnit.check_fields check
  obtain ⟨standing', demand', pair', vig'⟩ := changeStanding_check v.isVigilanceCab v
  rw [isVigilanceCab_of_rest rest, demandShown_of_rest rest, vig, period, grace, standing, pair, demand, ← image]
  exact ⟨standing', pair', demand', vig'⟩

/-- An act that leaves the CAB unit where the blocks go on running. -/
abbrev KeepsCab (f : State → State) : Prop :=
  ∀ s, s.isRole .cab = true → (f s).image = s.image ∧ (f s).station = s.station ∧
    ((f s).live = true → (f s).cab = s.cab)

theorem keepsCab_unlessRestarted {c : Instr} {f : State → State} (hf : KeepsCab f) : KeepsCab (unlessRestarted c f) := by
  intro s role; unfold unlessRestarted; split
  · exact ⟨rfl, rfl, fun _ => rfl⟩
  · exact hf s role

theorem keepsCab_silenceExpires (n : Station) : KeepsCab (silenceExpires n) := by
  intro s _; unfold silenceExpires; repeat' split
  all_goals exact ⟨rfl, rfl, fun _ => rfl⟩

theorem keepsCab_heard (n : Station) : KeepsCab (ifHeard (acceptFrame n)) := by
  intro s _; unfold ifHeard; split
  · exact ⟨rfl, rfl, fun _ => rfl⟩
  · exact ⟨acceptFrame_image n s, acceptFrame_station n s, fun _ => acceptFrame_cab n s⟩

/-- A claim close that excludes the station ends in INACTIVE; any other leaves the CAB unit. -/
theorem keepsCab_closeClaim : KeepsCab closeClaim := by
  intro s role
  cases candidate : s.claim.candidate with
  | none => rw [closeClaim, candidate]; exact ⟨rfl, rfl, fun _ => rfl⟩
  | some cand =>
    by_cases excluded : ((closedRoster s cand).get s.station).map (·.state) = some .excluded
    · rw [closeClaim_excluded candidate excluded]
      refine ⟨?_, ?_, fun live => ?_⟩
      · unfold enterInactive; dsimp only; split
        · rename_i cutter; exact absurd (cutter.symm.trans (isRole_eq role)) nofun
        · rfl
      · unfold enterInactive; dsimp only; split
        · rename_i cutter; exact absurd (cutter.symm.trans (isRole_eq role)) nofun
        · rfl
      · rw [State.live, (enterInactive_line .role s).1] at live; cases live
    · rw [closeClaim_runs candidate excluded, if_neg (by rw [isRole_eq role]; decide)]
      exact ⟨rfl, rfl, fun _ => rfl⟩

theorem keepsCab_windowExpires : KeepsCab windowExpires := by
  intro s role; unfold windowExpires; repeat' split
  · exact ⟨rfl, rfl, fun _ => rfl⟩
  · exact keepsCab_closeClaim s role
  · exact ⟨rfl, rfl, fun _ => rfl⟩

theorem event_standing {f : State → State} (keeps : KeepsCab f) {s : State} (live : s.live = true)
    (role : s.isRole .cab = true) : ∃ t, event f s = .next t ∧ (t.live = true → t.isVigilanceCab ≠ s.cab.standing →
      t.cab.standing = t.isVigilanceCab ∧ t.cab.pair = none ∧ t.cab.demand = t.demandShown ∧
      if t.isVigilanceCab = true ∧ t.demandShown = true then
        t.cab.vig = .running ∧ t.cab.period = some (sec s.image.vigilance) ∧ t.cab.grace = none
      else t.cab.vig = .idle ∧ t.cab.period = none ∧ t.cab.grace = none) := by
  obtain ⟨image, station, cab⟩ := keeps s role
  have role : (f s).isRole .cab = true := by simpa only [State.isRole, State.role, State.cfg, image, station] using role
  exact ⟨_, event_live live, fun goes => finish_standing (cab ((finish_live s (f s)).symm.trans goes)) image role goes⟩

/-! ## The CUTTER's demand (R108 to R110) -/

theorem storeStatus_isVigilanceCab (n : Station) (r : StatusRecord) (s : State) :
    (storeStatus n r s).isVigilanceCab = s.isVigilanceCab := by
  obtain ⟨claim, stored, same⟩ := storeStatus_eq n r s
  refine isVigilanceCab_congr (storeStatus_live n r s) (storeStatus_image n r s) (by rw [stored]) (funext fun m => ?_)
  have entry : (storeStatus n r s).entry m = claim.roster.get m := by rw [stored]; rfl
  have fields := same m
  rw [← entry] at fields
  simp only [State.isPresent, entryIs_eq, fields]

/-- A CUTTER's STATUS at a CAB is stored, and may end the held standing of the map (R173). -/
theorem takeStatus_cab {s : State} (role : s.isRole .cab = true) (n : Station) (x : StatusCommon) (p : CutterPart) :
    ∃ m, takeStatus n ⟨x, .cutter p⟩ s = { storeStatus n ⟨x, .cutter p⟩ s with cabMap := m } := by
  have stored : (storeStatus n ⟨x, .cutter p⟩ s).role = some .cab := role_of_isRole (by simpa using role)
  unfold takeStatus; dsimp only; rw [stored]; dsimp only
  split
  · unfold endHeld; dsimp only; split
    · exact ⟨_, rfl⟩
    · exact ⟨_, rfl⟩
  · exact ⟨_, rfl⟩

/-- A demand change at a CAB that keeps its standing (R109, R110). -/
theorem vigDemand_vig {s : State} (h : s.demandShown ≠ s.cab.demand) :
    (s.cab.standing = true → s.demandShown = true → s.cab.vig = .idle →
      (vigDemand s).cab.vig = .running ∧ (vigDemand s).cab.period = some (sec s.image.vigilance)) ∧
    (s.cab.standing = true → s.demandShown = false → s.cab.vig = .running ∨ s.cab.vig = .warned →
      (vigDemand s).cab.vig = .idle ∧ (vigDemand s).cab.period = none ∧ (vigDemand s).cab.grace = none) ∧
    (s.cab.standing = false ∨ s.cab.vig = .lapsed → (vigDemand s).cab.vig = s.cab.vig) := by
  unfold vigDemand
  rw [if_neg h]
  refine ⟨fun standing shown vig => ?_, fun standing shown vig => ?_, fun h => ?_⟩
  · simp only [State.withCab, standing, shown, vig]; exact ⟨rfl, rfl⟩
  · rcases vig with vig | vig <;> (simp only [State.withCab, standing, shown, vig]; exact ⟨rfl, rfl, rfl⟩)
  · rcases h with away | lapsed
    · simp [State.withCab, away]
    · simp only [State.withCab, lapsed]; split <;> simp

section
variable {s : State} {n : Station} {x : StatusCommon} (p : CutterPart) (live : s.live = true) (role : s.isRole .cab = true)
  (waits : s.line.awaitsGap = false) (other : n ≠ s.station) (code : x.role = Role.code .cutter)
  (present : (acceptFrame n s).presentOf .cutter = some n) (standing : (acceptFrame n s).isVigilanceCab = s.cab.standing)
  (shown : (acceptFrame n s).demandShown = s.cab.demand)
include role other present standing shown

/-- The acceptance of a CUTTER's STATE that changes neither standing nor demand leaves the check. -/
theorem stateAccepted_check : (stateAccepted n s).rest = (acceptFrame n s).rest ∧
    (stateAccepted n s).cab.check = s.cab.check := by
  have known : (s.entry n).isSome = true := by
    rw [← acceptFrame_known (n := n)]
    exact Option.isNone_eq_false_iff.1 (presentOf_known present)
  have rest := stateAccepted_known other known
  refine ⟨rest, ?_⟩
  have noted : (noteEarly s (acceptFrame n s)).rest = (acceptFrame n s).rest := rest_noteEarly s _
  have claims : claimOnState n (noteEarly s (acceptFrame n s)) = noteEarly s (acceptFrame n s) :=
    claimOnState_none (.inr (.inr ⟨by simpa using other, by
      rw [State.entry, noteEarly_claim]; exact acceptFrame_known.trans known⟩))
  have follows : VigilanceFollows (noteEarly s (acceptFrame n s)) :=
    VigilanceFollows.of_rest (s := acceptFrame n s) ⟨by rw [standing, acceptFrame_cab], by rw [shown, acceptFrame_cab]⟩ noted
      (by rw [noteEarly_cab]) (by rw [noteEarly_cab])
  rw [stateAccepted, subEvent_check (by rw [claims]; simpa using role), claims, vigSync_same follows, noteEarly_cab,
    acceptFrame_cab]

include live waits code

/-- The STATUS of the PRESENT CUTTER that changes demand shown: the check as the demand change makes it. -/
theorem demandTaken :
    ∃ t b, exec (.stateTaken n (Entry.status ⟨x, .cutter p⟩).bytes) s = .next t ∧
      t.cab.check = (vigDemand b).cab.check ∧ b.cab.check = s.cab.check ∧ b.demandShown = p.demand ∧ b.image = s.image := by
  obtain ⟨rest, check⟩ := stateAccepted_check role other present standing shown
  have hears : s.hears = true := by simp [State.hears, live, waits]
  have fits : payloadFits .state (Entry.status ⟨x, .cutter p⟩).bytes = true := by
    simp [payloadFits, statusBytes_length, FrameClass.minLength]
  have next := stateTaken_one hears fits other (readEntries_cutterStatus p code)
  generalize stateAccepted n s = a at rest check next
  have aRole : a.isRole .cab = true := (isRole_of_rest rest .cab).trans ((acceptFrame_isRole n s .cab).trans role)
  have aLive : a.live = true := (live_of_rest rest).trans ((acceptFrame_live n s).trans live)
  have aPresent : a.presentOf .cutter = some n := (presentOf_of_claim (claim_of_rest rest) .cutter).trans present
  have aStanding : a.isVigilanceCab = s.cab.standing := (isVigilanceCab_of_rest rest).trans standing
  obtain ⟨m, taken⟩ := takeStatus_cab aRole n x p
  obtain ⟨claim, stored, -⟩ := storeStatus_eq n ⟨x, .cutter p⟩ a
  have entered : takeEntry n a (.status ⟨x, .cutter p⟩) = { storeStatus n ⟨x, .cutter p⟩ a with cabMap := m } := taken
  have bCab : (takeEntry n a (.status ⟨x, .cutter p⟩)).cab = a.cab := by rw [entered, stored]
  have bRole : (takeEntry n a (.status ⟨x, .cutter p⟩)).isRole .cab = true := by
    rw [entered]; exact (storeStatus_isRole n _ a .cab).trans aRole
  have bLive : (takeEntry n a (.status ⟨x, .cutter p⟩)).live = true := by
    rw [entered]; exact (storeStatus_live n _ a).trans aLive
  have bShown : (takeEntry n a (.status ⟨x, .cutter p⟩)).demandShown = p.demand := by
    rw [entered]; exact storeStatus_demandShown aPresent
  have bImage : (takeEntry n a (.status ⟨x, .cutter p⟩)).image = s.image := by
    rw [entered]; exact (storeStatus_image n _ a).trans ((image_of_rest rest).trans (acceptFrame_image n s))
  have bStanding : (takeEntry n a (.status ⟨x, .cutter p⟩)).isVigilanceCab =
      (takeEntry n a (.status ⟨x, .cutter p⟩)).cab.standing := by
    rw [bCab, (CabUnit.check_fields check).2.2.2.2.2.1, ← aStanding, entered]
    exact storeStatus_isVigilanceCab n _ a
  refine ⟨_, takeEntry n a (.status ⟨x, .cutter p⟩), next, ?_, by rw [bCab, check], bShown, bImage⟩
  rw [finish_subEvent_check (f := fun s => takeEntry n s (.status ⟨x, .cutter p⟩)) bRole bLive,
    vigSync_stands bRole bStanding]

end

end Sys2Proof.Machine
end

section
/-! The obligation of the vigilance check: its times, its keys, and what it follows (R108 to R112). -/

namespace Sys2Proof.Machine

/-! ## The times (R109, R112) -/

section
variable {s : State} (live : s.live = true) (role : s.isRole .cab = true) (follows : VigilanceFollows s)
include live role follows

theorem periodExpiry_warns (vig : s.cab.vig = .running) (superseded : s.cab.superseded = false) :
    ∃ t, exec .vigilancePeriodExpiry s = .next t ∧ t.cab.vig = .warned ∧ t.cab.grace = some (sec 10) ∧
      t.cab.period = none ∧ t.hornOn = true ∧ t.rest = s.rest := by
  have acts : vigWarns s = s.withCab fun u => { u with vig := .warned, period := none, grace := some Config.grace } := by
    simp [vigWarns, role, vig, superseded]
  have next : exec .vigilancePeriodExpiry s = .next (finish s (vigWarns s)) := event_live live
  have only : ChecksOnly s (vigWarns s) := by rw [acts]; exact checksOnly_withCab role _ rfl rfl
  obtain ⟨rest, check⟩ := only.finish (pre := s) live role follows
  generalize finish s (vigWarns s) = t at rest check next
  rw [acts] at check
  obtain ⟨vig, period, grace, -⟩ := CabUnit.check_fields check
  exact ⟨t, next, vig, grace, period, by rw [State.hornOn, vig]; simp [State.withCab], rest⟩

/-- The expiry of a period that a keyed pair has restarted at this moment gives no warning (R112). -/
theorem periodExpiry_superseded (superseded : s.cab.superseded = true) :
    ∃ t, exec .vigilancePeriodExpiry s = .next t ∧ t.cab.vig = s.cab.vig ∧ t.cab.period = s.cab.period ∧
      t.rest = s.rest := by
  have acts : vigWarns s = s.withCab fun u => { u with superseded := false } := by simp [vigWarns, role, superseded]
  have next : exec .vigilancePeriodExpiry s = .next (finish s (vigWarns s)) := event_live live
  have only : ChecksOnly s (vigWarns s) := by rw [acts]; exact checksOnly_withCab role _ rfl rfl
  obtain ⟨rest, check⟩ := only.finish (pre := s) live role follows
  generalize finish s (vigWarns s) = t at rest check next
  rw [acts] at check
  obtain ⟨vig, period, -⟩ := CabUnit.check_fields check
  exact ⟨t, next, vig, period, rest⟩

theorem graceExpiry_lapses (vig : s.cab.vig = .warned) :
    ∃ t, exec .graceExpiry s = .next t ∧ t.cab.vig = .lapsed ∧ t.cab.grace = none ∧ t.hornOn = true ∧
      t.rest = s.rest := by
  have acts : vigLapses s = s.withCab fun u => { u with vig := .lapsed, grace := none } := by simp [vigLapses, role, vig]
  have next : exec .graceExpiry s = .next (finish s (vigLapses s)) := event_live live
  have only : ChecksOnly s (vigLapses s) := by rw [acts]; exact checksOnly_withCab role _ rfl rfl
  obtain ⟨rest, check⟩ := only.finish (pre := s) live role follows
  generalize finish s (vigLapses s) = t at rest check next
  rw [acts] at check
  obtain ⟨vig, -, grace, -⟩ := CabUnit.check_fields check
  exact ⟨t, next, vig, grace, by rw [State.hornOn, vig]; simp [State.withCab], rest⟩

/-! ## The keys (R111) -/

theorem keyVigilA_half : ∃ t, exec .keyVigilA s = .next t ∧
    t.cab.pair = (if s.cab.pair.isSome then none else some (sec 2)) ∧ t.cab.vig = s.cab.vig ∧
    t.panel.page = s.panel.page ∧ t.rest = s.rest := by
  have only : ChecksOnly s (vigilA s) := checksOnly_withCab role _ rfl rfl
  obtain ⟨rest, check⟩ := only.key live role follows
  obtain ⟨vig, -, -, -, pair, -⟩ := CabUnit.check_fields check
  have next : exec .keyVigilA s = .next (finish s (subEvent vigilA s)) := event_atCab (f := pressKey .vigilA) live role
  generalize finish s (subEvent vigilA s) = t at rest vig pair next
  exact ⟨t, next, pair, vig, congrArg (·.page) (panel_of_rest rest), rest⟩

theorem keyVigilB_alone (pair : s.cab.pair = none) : ∃ t, exec .keyVigilB s = .next t ∧ t.cab.vig = s.cab.vig ∧
    t.cab.pair = none ∧ t.rest = s.rest := by
  have acts : vigilB s = s := by simp [vigilB, pair]
  have only : ChecksOnly s (vigilB s) := by rw [acts]; exact ⟨rfl, rfl, rfl⟩
  obtain ⟨rest, check⟩ := only.key live role follows
  have next : exec .keyVigilB s = .next (finish s (subEvent vigilB s)) := event_atCab (f := pressKey .vigilB) live role
  generalize finish s (subEvent vigilB s) = t at rest check next
  rw [acts] at check
  obtain ⟨vig, -, -, -, same, -⟩ := CabUnit.check_fields check
  exact ⟨t, next, vig, same.trans pair, rest⟩

/-- VIGIL_B after VIGIL_A is the keyed pair. -/
theorem keyVigilB_paired (pair : s.cab.pair.isSome = true) (standing : s.cab.standing = true) :
    ∃ t, exec .keyVigilB s = .next t ∧ t.cab.pair = none ∧ t.rest = s.rest ∧
      match s.cab.vig with
      | .idle => t.cab.vig = .idle
      | .running => t.cab.vig = .running ∧ t.cab.period = some (sec s.image.vigilance) ∧ t.cab.grace = none ∧
          ∃ u, exec .vigilancePeriodExpiry t = .next u ∧ u.cab.vig = .running ∧ u.cab.period = t.cab.period ∧
            u.rest = s.rest
      | .warned => t.cab.vig = .running ∧ t.cab.period = some (sec s.image.vigilance) ∧ t.cab.grace = none
      | .lapsed => t.cab.vig = (if s.demandShown then .running else .idle) := by
  have halfRole : (s.withCab fun u => { u with pair := none }).isRole .cab = true := role
  have acts : vigilB s = keyedPair (s.withCab fun u => { u with pair := none }) := by simp [vigilB, pair]
  have only : ChecksOnly s (vigilB s) := by
    rw [acts]; exact (checksOnly_withCab role _ rfl rfl).trans (keyedPair_checksOnly halfRole)
  obtain ⟨rest, check⟩ := only.key live role follows
  have next : exec .keyVigilB s = .next (finish s (subEvent vigilB s)) := event_atCab (f := pressKey .vigilB) live role
  generalize finish s (subEvent vigilB s) = t at rest check next
  rw [acts] at check
  obtain ⟨vig, period, grace, superseded, cleared, stands, shown⟩ := CabUnit.check_fields check
  have keyed := keyedPair_vig (s := s.withCab fun u => { u with pair := none }) standing
  refine ⟨t, next, cleared.trans (keyedPair_pair _), rest, ?_⟩
  have same : (s.withCab fun u => { u with pair := none }).cab.vig = s.cab.vig := rfl
  rw [same] at keyed
  cases was : s.cab.vig with
  | idle => rw [was] at keyed; exact vig.trans keyed
  | running =>
    rw [was] at keyed
    obtain ⟨runs, full, graceless, marked⟩ := keyed
    obtain ⟨-, standing', demand'⟩ := acts ▸ only
    have tFollows : VigilanceFollows t := follows.of_rest rest (stands.trans standing') (shown.trans demand')
    obtain ⟨u, uNext, uVig, uPeriod, uRest⟩ := periodExpiry_superseded ((live_of_rest rest).trans live)
      ((isRole_of_rest rest .cab).trans role) tFollows (superseded.trans marked)
    exact ⟨vig.trans runs, period.trans full, grace.trans graceless, u, uNext, uVig.trans (vig.trans runs), uPeriod,
      uRest.trans rest⟩
  | warned =>
    rw [was] at keyed
    obtain ⟨runs, full, graceless⟩ := keyed
    exact ⟨vig.trans runs, period.trans full, grace.trans graceless⟩
  | lapsed => rw [was] at keyed; exact vig.trans keyed

end

/-! ## The obligation -/

/-- Settles O54: the times and the keys act on the check alone and leave nothing to follow; a demand change and a change of the
standing are what the check follows at the end of the event. -/
theorem vigilanceTimesAndPair : Obligations.VigilanceTimesAndPair := by
  intro s live role
  refine ⟨fun standing shown => ?_, ?_, fun n x p waits other code present shown standing changes => ?_,
    fun n target c mem => ?_, ?_⟩
  · have follows : VigilanceFollows s := ⟨standing, shown⟩
    exact ⟨periodExpiry_warns live role follows, graceExpiry_lapses live role follows, keyVigilA_half live role follows,
      keyVigilB_paired live role follows, keyVigilB_alone live role follows⟩
  · have acts : pairExpires s = s.withCab fun u => { u with pair := none } := if_pos role
    refine ⟨_, event_live live, ?_, ?_⟩
    · rw [acts]; exact finish_pair_none (s := s.withCab fun u => { u with pair := none }) live role rfl
    · rw [finish_rest, acts]; exact rest_withCab role _
  · obtain ⟨t, b, next, check, same, demand, image⟩ := demandTaken p live role waits other code present standing shown
    obtain ⟨vig, period, grace, -, -, stands, shows⟩ := CabUnit.check_fields check
    obtain ⟨vigB, -, -, -, -, standsB, showsB⟩ := CabUnit.check_fields same
    obtain ⟨kept, now⟩ := vigDemand_follows b
    have differs : b.demandShown ≠ b.cab.demand := by rw [demand, showsB, changes]; cases p.demand <;> decide
    obtain ⟨runs, idles, stays⟩ := vigDemand_vig differs
    rw [demand, standsB, vigB] at runs idles
    rw [standsB, vigB] at stays
    refine ⟨t, next, (shows.trans now).trans demand, (stands.trans kept).trans standsB, fun duty on idle => ?_,
      fun duty off watched => ?_, fun away => vig.trans (stays away)⟩
    · obtain ⟨v, full⟩ := runs duty on idle
      exact ⟨vig.trans v, period.trans (full.trans (by rw [image]))⟩
    · obtain ⟨v, none, graceless⟩ := idles duty off watched
      exact ⟨vig.trans v, period.trans none, grace.trans graceless⟩
  · simp only [List.mem_cons, List.not_mem_nil, or_false] at mem
    rcases mem with rfl | rfl | rfl
    · exact event_standing (keepsCab_unlessRestarted (keepsCab_silenceExpires n)) live role
    · exact event_standing (keepsCab_heard n) live role
    · exact event_standing (keepsCab_unlessRestarted keepsCab_windowExpires) live role
  · have acts : hornEnds s = s.withCab fun u => { u with horn := none } := if_pos role
    refine ⟨_, event_live live, ?_, ?_⟩
    · rw [finish_rest, acts]; exact rest_withCab role _
    · rw [acts]
      exact (finish_hornAndCapture (s := s.withCab fun u => { u with horn := none }) live role).1

end Sys2Proof.Machine
end

section
/-! The queue once judged: a further judging of the same conditions does nothing (R93, R96, R104). -/

namespace Sys2Proof.Machine

/-! ## No code enters -/

/-- No slot is empty, or no code waits. -/
def NothingEnters (q : NoticeQueue) : Prop :=
  (∀ i, (q.slots.get i).isNone = false) ∨ ∀ c : NoticeCode, q.waiting.get c.index = false

theorem freeSlot_none {q : NoticeQueue} : freeSlot q = none ↔ ∀ i, (q.slots.get i).isNone = false := by
  unfold freeSlot
  rw [List.find?_eq_none]
  exact ⟨fun h i => Bool.eq_false_iff.2 (h i (mem_eight i)), fun h i _ => Bool.eq_false_iff.1 (h i)⟩

theorem nextWaiting_none_iff {q : NoticeQueue} : nextWaiting q = none ↔ ∀ c : NoticeCode, q.waiting.get c.index = false := by
  refine ⟨nextWaiting_none, fun h => ?_⟩
  cases next : nextWaiting q with
  | none => rfl
  | some c => have waits := nextWaiting_waits next; rw [h c] at waits; cases waits

theorem refill_same {s : State} (h : NothingEnters s.notices) : refill s = s := by
  have filled := refill_eq s
  rcases h with full | idle
  · rw [freeSlot_none.2 full] at filled; exact filled
  · rw [nextWaiting_none_iff.2 idle] at filled
    cases free : freeSlot s.notices with
    | none => rw [free] at filled; exact filled
    | some i => rw [free] at filled; exact filled

theorem enterSlot_waiting (i : Fin 8) (c d : NoticeCode) (s : State) (h : s.notices.waiting.get d.index = false) :
    (enterSlot i c s).notices.waiting.get d.index = false := by
  rw [enterSlot_notices]
  simp only [Tbl.get_set]
  split
  · rfl
  · exact h

/-- A code that enters empties no slot and lets no further code wait. -/
theorem NothingEnters.enter {s : State} (h : NothingEnters s.notices) (i : Fin 8) (c : NoticeCode) :
    NothingEnters (enterSlot i c s).notices := by
  refine h.imp (fun full j => ?_) fun idle d => enterSlot_waiting i c d s (idle d)
  rw [enterSlot_isNone]; split
  · rfl
  · exact full j

theorem NothingEnters.raise {s : State} (h : NothingEnters s.notices) (c : NoticeCode) :
    NothingEnters (raiseNotice c s).notices := by
  cases slot : s.notices.slotOf c with
  | some i => rw [raiseNotice_renews slot]; exact h.enter i c
  | none =>
    cases free : freeSlot s.notices with
    | some i => rw [raiseNotice_enters slot free]; exact h.enter i c
    | none =>
      have full := freeSlot_none.1 free
      cases oldest : oldestNote s.notices with
      | none => rw [raiseNotice_waits slot free (.inl oldest)]; exact .inl full
      | some i =>
        by_cases note : c.cls = .note
        · rw [raiseNotice_waits slot free (.inr note)]; exact .inl full
        · obtain ⟨x, hx, -⟩ := oldestNote_some oldest
          have displaced : NothingEnters (displaceNote i s).notices := by rw [displaceNote_eq hx]; exact .inl full
          rw [raiseNotice_displaces slot free oldest note]
          exact displaced.enter i c

/-- The refill of the slots in turn: those not yet reached are all that can be empty while a code waits. -/
theorem nothingEnters_refills (l : List (Fin 8)) {s : State}
    (h : (∀ i, (s.notices.slots.get i).isNone = true → i ∈ l) ∨
      ∀ c : NoticeCode, s.notices.waiting.get c.index = false) :
    NothingEnters (l.foldl (fun s i => if (s.notices.slots.get i).isNone then fillSlot i s else s) s).notices := by
  induction l generalizing s with
  | nil => exact h.imp_left fun none i => Bool.eq_false_iff.2 fun free => by cases none i free
  | cons i l ih =>
    rw [List.foldl_cons]
    refine ih ?_
    rcases h with later | idle
    · by_cases free : (s.notices.slots.get i).isNone = true
      · rw [if_pos free]
        unfold fillSlot
        cases next : nextWaiting s.notices with
        | none => exact .inr (nextWaiting_none next)
        | some c =>
          refine .inl fun j empty => ?_
          rw [enterSlot_isNone] at empty
          split at empty
          · cases empty
          · rename_i apart; exact (List.mem_cons.1 (later j empty)).resolve_left apart
      · rw [if_neg free]
        refine .inl fun j empty => (List.mem_cons.1 (later j empty)).resolve_left ?_
        rintro rfl; exact free empty
    · have none : fillSlot i s = s := by unfold fillSlot; rw [nextWaiting_none_iff.2 idle]
      rw [none, ite_self]; exact .inr idle

theorem nothingEnters_refill (s : State) : NothingEnters (refill s).notices :=
  nothingEnters_refills eight (.inl fun i _ => mem_eight i)

theorem nothingEnters_raises (l : List NoticeCode) {s : State} (h : NothingEnters s.notices) :
    NothingEnters (l.foldl judgeRaise s).notices := by
  induction l generalizing s with
  | nil => exact h
  | cons c l ih =>
    rw [List.foldl_cons]
    refine ih ?_
    unfold judgeRaise; split
    · exact h.raise c
    · exact h

/-- "STATION SILENT" carries, where it stands while its condition holds, the stations that are SILENT now. -/
def SilentWritten (s : State) : Prop := s.condition .stationSilent = true → ∀ i x,
  s.notices.slotOf .stationSilent = some i → s.notices.slots.get i = some x → x.detail = s.silentSet

/-- A notice rewritten in its slot keeps the slot found for each code. -/
theorem slotOf_rewritten {q : NoticeQueue} {i : Fin 8} {x y : Notice} (hx : q.slots.get i = some x) (hy : y.code = x.code)
    (m : Tbl (Option Nat) 8) (c : NoticeCode) :
    ({ q with slots := q.slots.set i (some y), marks := m } : NoticeQueue).slotOf c = q.slotOf c := by
  refine congrArg (eight.find? ·) (funext fun j => ?_)
  simp only [Tbl.get_set]
  split
  · rename_i e; subst e; simp [hx, hy]
  · rfl

/-- Writing the detail leaves which slots are occupied and the waiting set, and the detail written. -/
theorem updateSilentDetail_writes (s : State) : (∀ i, ((updateSilentDetail s).notices.slots.get i).isNone =
      (s.notices.slots.get i).isNone) ∧ (updateSilentDetail s).notices.waiting = s.notices.waiting ∧
    SilentWritten (updateSilentDetail s) := by
  by_cases written : SilentWritten s
  · rw [updateSilentDetail_same written]; exact ⟨fun _ => rfl, rfl, written⟩
  · simp only [SilentWritten, not_forall] at written
    obtain ⟨holds, i, x, slot, hx, old⟩ := written
    have writes : updateSilentDetail s = markSlot i (s.withNotices fun q =>
        { q with slots := q.slots.set i (some { x with detail := s.silentSet }) }) := by
      simp [updateSilentDetail, slot, hx, holds, old]
    rw [writes]
    refine ⟨fun j => ?_, rfl, fun _ j y slot' hy => ?_⟩
    · simp only [markSlot, State.withNotices, Tbl.get_set]
      split
      · rename_i eq; rw [eq, hx]; rfl
      · rfl
    · have same := (slotOf_rewritten (y := { x with detail := s.silentSet }) hx rfl (s.notices.marks.set i (some s.pub.builds))
        .stationSilent).symm.trans slot'
      rw [slot] at same; cases same
      simp only [markSlot, State.withNotices, Tbl.get_set, if_true] at hy
      cases hy; rfl

/-- Once judged, nothing enters and the detail is written. -/
theorem judgeNotices_settles (s : State) : NothingEnters (judgeNotices s).notices ∧ SilentWritten (judgeNotices s) := by
  unfold judgeNotices
  have judged := nothingEnters_raises NoticeCode.all (nothingEnters_refill (NoticeCode.all.foldl judgeClear s))
  generalize NoticeCode.all.foldl judgeRaise (refill (NoticeCode.all.foldl judgeClear s)) = v at judged ⊢
  obtain ⟨slots, waiting, written⟩ := updateSilentDetail_writes v
  exact ⟨judged.imp (fun full i => (slots i).trans (full i)) fun idle c => by rw [waiting]; exact idle c, written⟩

/-- A judging of conditions that stand as judged, with nothing to enter and the detail written, does nothing. -/
theorem judgeNotices_same {s : State} (held : ConditionsHeld s) (breach : BreachStands s) (none : NothingEnters s.notices)
    (written : SilentWritten s) : judgeNotices s = s := by
  have others : OthersJudged .lineQuiet s := fun k _ hk => held k hk
  have same := held .lineQuiet nofun
  unfold judgeNotices
  rw [judgeClears_same others breach fun holds => same ▸ holds, refill_same none,
    judgeRaises_same others fun holds => same.symm ▸ holds, updateSilentDetail_same written]

end Sys2Proof.Machine
end

section
/-! The sync of a CAB done again, and a request for an early STATE noted within a command (R163). -/

namespace Sys2Proof.Machine

/-! ## Done again -/

/-- Check, conditions and queue are such that another sync of a CAB leaves them. -/
def CabSettled (s : State) : Prop :=
  VigilanceFollows s ∧ ConditionsHeld s ∧ NothingEnters s.notices ∧ SilentWritten s

theorem permitSync_other {s : State} (h : s.isRole .cutter = false) : permitSync s = s := by unfold permitSync; rw [h]; rfl

theorem requestSync_other {s : State} (h : s.isRole .cutter = false) : requestSync s = s := by unfold requestSync; rw [h]; rfl

/-- The stages of the sync that a CAB has. -/
theorem sync_cab_eq {s : State} (role : s.isRole .cab = true) :
    sync s = displaySync (judgeNotices (offerSync (vigSync s))) := by
  have rest : (judgeNotices (offerSync (vigSync s))).rest = s.rest := by simp
  have judged := (isRole_of_rest rest .cutter).trans (isRole_eq role)
  have scrub : scrubSync s = s := scrubSync_other s (isRole_eq role)
  have conv : convSync s = s := convSync_other s (isRole_eq role)
  unfold sync unitSync
  rw [scrub, conv, permitSync_other judged, requestSync_other judged]

section
variable {s : State} (role : s.isRole .cab = true)
include role

theorem sync_cabSettled : CabSettled (sync s) := by
  refine ⟨sync_follows role, sync_conditionsHeld s, ?_⟩
  rw [sync_cab_eq role]
  obtain ⟨none, written⟩ := judgeNotices_settles (offerSync (vigSync s))
  generalize judgeNotices (offerSync (vigSync s)) = v at none written
  have rest := rest_displaySync v
  have same := condition_of_rest rest (displaySync_scrub v) (displaySync_conv v) (displaySync_vig v)
  have silent : (displaySync v).silentSet = v.silentSet := by simp only [State.silentSet, claim_of_rest rest]
  unfold SilentWritten
  rw [displaySync_notices, same, silent]
  exact ⟨none, written⟩

/-- With no LINE offer open another sync recomputes the display alone. -/
theorem sync_of_settled (settled : CabSettled s) (closed : s.panel.offer = none) : sync s = displaySync s := by
  obtain ⟨follows, held, none, written⟩ := settled
  have breach : BreachStands s := fun cutter => absurd (cutter.symm.trans (isRole_eq role)) nofun
  have offer : offerSync s = s := by unfold offerSync; rw [closed]
  rw [sync_cab_eq role, vigSync_same follows, offer, judgeNotices_same held breach none written]

/-- With no LINE offer open the panel stays as the event made it. -/
theorem sync_panel_same (closed : s.panel.offer = none) : (sync s).panel = s.panel := by
  rw [sync_cab_eq role, displaySync_panel, judgeNotices_panel]
  unfold offerSync
  rw [vigSync_panel, closed]
  exact vigSync_panel s

theorem sync_hornAndCapture : HornAndCapture s.cab (sync s).cab := by
  obtain ⟨v, hv, cab, synced⟩ := sync_cab role
  obtain ⟨list, horn, firstOut⟩ := vigSync_display s
  have shown := displaySync_hornAndCapture ((isRole_of_rest hv .cab).trans role)
  rw [synced]
  unfold HornAndCapture at shown ⊢
  rwa [cab, list, horn, firstOut] at shown

end

/-! ## The mark of an early request -/

/-- The state with the mark of an early request as given. -/
def State.withAsked (b : Bool) (s : State) : State := { s with pub := { s.pub with asked := b } }

theorem displaySync_withAsked (b : Bool) (s : State) : displaySync (s.withAsked b) = (displaySync s).withAsked b := by
  unfold displaySync
  rw [show (s.withAsked b).isRole .cab = s.isRole .cab from rfl]
  split <;> rfl

theorem fillOrderSlot_withAsked (b : Bool) (s : State) :
    fillOrderSlot (s.withAsked b) = (fillOrderSlot s).withAsked b := by
  unfold fillOrderSlot
  rw [show (s.withAsked b).isRole .cab = s.isRole .cab from rfl, show (s.withAsked b).line = s.line from rfl,
    show (s.withAsked b).panel = s.panel from rfl]
  repeat' split
  all_goals rfl

theorem CabSettled.withAsked {s : State} (h : CabSettled s) (b : Bool) : CabSettled (s.withAsked b) := by
  obtain ⟨follows, held, none, written⟩ := h
  have same : (s.withAsked b).condition = s.condition := by funext c; cases c <;> rfl
  refine ⟨follows, fun c hc => ?_, none, ?_⟩
  · rw [same]; exact held c hc
  · unfold SilentWritten
    rw [same]; exact written

/-- The latest STATUS of a role held is read from replicas, roster and image. -/
theorem record_of_rest {s t : State} (h : t.rest = s.rest) : t.record = s.record := by
  have replica : t.replica = s.replica := by funext n; simp only [State.replica, replicas_of_rest h]
  have state : t.entryState = s.entryState := by funext n; simp only [State.entryState, State.entry, claim_of_rest h]
  have is : t.entryIs = s.entryIs := by funext r st n; simp only [State.entryIs, State.entry, claim_of_rest h]
  have present : t.isPresent = s.isPresent := by funext r n; exact isPresent_of_rest h r n
  have roleOf : t.roleOf = s.roleOf := by funext n; simp only [State.roleOf, image_of_rest h]
  have held : t.hasRecord = s.hasRecord := by funext r n; simp only [State.hasRecord, replica]
  have stale : t.stale = s.stale := by funext n; simp only [State.stale, state]
  funext r
  simp only [State.record, State.recordStation, replica, is, present, roleOf, held, stale, station_of_rest h]

theorem mapComplete_of_rest {s t : State} (h : t.rest = s.rest) : t.mapComplete = s.mapComplete := by
  have cutter : t.cutterRecord = s.cutterRecord := by unfold State.cutterRecord; rw [record_of_rest h]
  simp only [State.mapComplete, cabMap_of_rest h, cutter]

/-- The early fields of a CAB's STATUS: its check, the mask and overflow flag of its queue, and what no event's end touches. -/
theorem earlyStatus_of_rest {s t : State} (role : s.isRole .cab = true) (h : t.rest = s.rest)
    (notices : t.notices = s.notices) (vig : t.cab.vig = s.cab.vig) : t.ownStatus.early = s.ownStatus.early := by
  have isCab : s.role = some .cab := role_of_isRole role
  have isCab' : t.role = some .cab := role_of_isRole ((isRole_of_rest h .cab).trans role)
  simp only [State.ownStatus, StatusRecord.early, isCab, isCab', State.ownCabPart, lineState_of_rest h, sensor_of_rest h,
    notices, vig, mapComplete_of_rest h, State.cfg, image_of_rest h, station_of_rest h]

/-- A request noted within a command is one that the end of the command makes, the early fields being as they then were. -/
theorem finish_noteEarly {pre u : State} (live : u.live = true) (role : u.isRole .cab = true) (settled : CabSettled u)
    (closed : u.panel.offer = none) : finish pre (noteEarly pre u) = finish pre u := by
  unfold noteEarly
  by_cases due : earlyDue pre u = true
  · rw [if_pos due]
    show finish pre (u.withAsked true) = finish pre u
    have again : sync (u.withAsked true) = (displaySync u).withAsked true :=
      (sync_of_settled (s := u.withAsked true) role (settled.withAsked true) closed).trans (displaySync_withAsked true u)
    have rest : (fillOrderSlot (displaySync u)).rest = u.rest := by simp
    have early : (fillOrderSlot (displaySync u)).ownStatus.early = u.ownStatus.early :=
      earlyStatus_of_rest role rest (by rw [fillOrderSlot_notices, displaySync_notices])
        (by rw [fillOrderSlot_cab, displaySync_vig])
    have still : earlyDue pre (fillOrderSlot (displaySync u)) = true := by
      rw [← due]; unfold earlyDue; rw [early, answers_of_rest rest]
    have request : earlySync pre ((fillOrderSlot (displaySync u)).withAsked true) =
        earlySync pre (fillOrderSlot (displaySync u)) := by
      unfold earlySync
      rw [still, show ((fillOrderSlot (displaySync u)).withAsked true).pub.asked = true from rfl, Bool.or_true, Bool.true_or]
      rfl
    have other (v : State) (h : v.isRole .cab = true) : v.isRole .cutter = false := isRole_eq h
    rw [finish_other pre (u.withAsked true) live (other (u.withAsked true) role), finish_other pre u live (other u role), again,
      sync_of_settled role settled closed, fillOrderSlot_withAsked, request]
  · rw [if_neg due]

end Sys2Proof.Machine
end

section
/-! The ACK key: the line selected on NOTICES, and the record on FIRST OUT (R107, R115, R116, R119, R122). -/

namespace Sys2Proof.Machine

/-! ## The act -/

section
variable {s : State} (closed : s.panel.offer = none)
include closed

theorem keyAck_notices {l : SnapLine} (page : s.panel.page = .notices)
    (selected : s.panel.snapshot[s.panel.selection]? = some l) :
    keyAck s = composePlain .ack (some l.owner) [l.slot, l.raise] s := by
  simp [keyAck, pageKey, closed, page, ackSelected, selected]

theorem keyAck_firstOut (page : s.panel.page = .firstOut) : keyAck s = clearFirstOut s := by
  simp [keyAck, pageKey, closed, page]

end

/-- An ACK of another PRESENT station's notice takes a place of the pending order table (R115, R116). -/
theorem composeAck_enters {s : State} {n : Station} (args : List Byte) (other : n ≠ s.station)
    (present : s.entryState n = some .present) (free : s.panel.orders.length < 4) :
    composePlain .ack (some n) args s = s.withPanel fun u => { u with
      counter := s.panel.counter + 1, orders := u.orders ++ [⟨s.panel.counter + 1, n, .ack, args, none⟩] } := by
  have room : ¬ 4 ≤ s.panel.orders.length := by omega
  have found : (some n).filter (fun n => s.entryState n == some .present) = some n := by simp [Option.filter, present]
  simp [composePlain, composeOrder, other, found, room]

theorem ackNotice_keeps (slot raise : Byte) (s : State) : (ackNotice slot raise s).2.panel = s.panel ∧
    (ackNotice slot raise s).2.image = s.image ∧ (ackNotice slot raise s).2.station = s.station := by
  unfold ackNotice acknowledge; dsimp only
  repeat' split
  all_goals exact ⟨rfl, rfl, rfl⟩

/-- An ACK of the CAB's own notice is executed at once (R116). -/
theorem composeAck_own (slot raise : Byte) (s : State) : composePlain .ack (some s.station) [slot, raise] s =
    { (ackNotice slot raise s).2 with panel := { s.panel with
        status := .answer .ack s.station (ackNotice slot raise s).1.code, answerMissing := false } } := by
  have acts : composePlain .ack (some s.station) [slot, raise] s = executeOwn .ack [slot, raise] s := by
    simp [composePlain, composeOrder]
  rw [acts, ← (ackNotice_keeps slot raise s).1]
  rfl

theorem clearFirstOut_refused {s : State} {f : FirstOut} (held : s.cab.firstOut = some f)
    (active : (s.firstOutCand f).map (·.entry.state) = some NoticeState.active.code) :
    clearFirstOut s = { s with panel := { s.panel with status := .active } } := by
  simp [clearFirstOut, held, active]

theorem clearFirstOut_clears {s : State} {f : FirstOut} (held : s.cab.firstOut = some f)
    (other : (s.firstOutCand f).map (·.entry.state) ≠ some NoticeState.active.code) :
    clearFirstOut s = { s with cab := { s.cab with firstOut := none } } := by
  unfold clearFirstOut
  rw [held]
  exact if_neg (by simpa using other)

/-! ## The key -/

section
variable {s t : State} (h : t.rest = s.rest)
include h

theorem page_of_rest : t.panel.page = s.panel.page := congrArg (·.page) (panel_of_rest h)
theorem counter_of_rest : t.panel.counter = s.panel.counter := congrArg (·.counter) (panel_of_rest h)
theorem orders_of_rest : t.panel.orders = s.panel.orders := congrArg (·.orders) (panel_of_rest h)
theorem panelStatus_of_rest : t.panel.status = s.panel.status := congrArg (·.status) (panel_of_rest h)
theorem answerMissing_of_rest : t.panel.answerMissing = s.panel.answerMissing := congrArg (·.answerMissing) (panel_of_rest h)

end

theorem finish_counter (pre s : State) : (finish pre s).panel.counter = s.panel.counter := counter_of_rest (finish_rest pre s)

theorem keyAck_next {s : State} (live : s.live = true) (role : s.isRole .cab = true) :
    exec .keyAck s = .next (finish s (takeKey keyAck s)) := event_atCab (f := pressKey .ack) live role

theorem subEvent_congr {f g : State → State} {s : State} (h : f s = g s) : subEvent f s = subEvent g s := by
  unfold subEvent; rw [h]

theorem takeKey_notices {act : State → State} {s : State} (page : s.panel.page = .notices) :
    takeKey act s = takeSnapshot (subEvent act s) := by
  simp [takeKey, page]

theorem takeKey_elsewhere {act : State → State} {s : State} (page : s.panel.page ≠ .notices)
    (stays : (act s).panel.page = s.panel.page) : takeKey act s = subEvent act s := by
  have after : (subEvent act s).panel.page = s.panel.page := (page_of_rest (rest_subEvent act s)).trans stays
  simp [takeKey, page, after]

/-- A new snapshot writes snapshot and selection alone. -/
theorem takeSnapshot_panel (s : State) : ∃ lines selection, takeSnapshot s =
    { s with panel := { s.panel with snapshot := lines, selection := selection } } := ⟨_, _, rfl⟩

/-- A CAB's rest with another panel. -/
theorem rest_withPanel {s : State} (role : s.isRole .cab = true) (p : PanelUnit) :
    ({ s with panel := p } : State).rest = { s.rest with panel := { p with offer := none } } := by
  have same (r : Role) : ({ s with panel := p } : State).isRole r = s.isRole r := rfl
  simp only [State.rest, same, role, if_true]

/-- The panel after a key on NOTICES: counter, orders and status as the act left them. -/
theorem finish_noticesKey (act : State → State) (s : State) :
    (finish s (takeSnapshot (subEvent act s))).panel.counter = (act s).panel.counter ∧
    (finish s (takeSnapshot (subEvent act s))).panel.orders = (act s).panel.orders ∧
    (finish s (takeSnapshot (subEvent act s))).panel.status = (act s).panel.status ∧
    (finish s (takeSnapshot (subEvent act s))).panel.answerMissing = (act s).panel.answerMissing := by
  have rest := rest_subEvent act s
  obtain ⟨lines, selection, taken⟩ := takeSnapshot_panel (subEvent act s)
  rw [finish_counter, finish_orders, finish_panelStatus, finish_answerMissing, taken]
  generalize subEvent act s = u at rest ⊢
  have counter := counter_of_rest rest
  have orders := orders_of_rest rest
  have status := panelStatus_of_rest rest
  have missing := answerMissing_of_rest rest
  exact ⟨counter, orders, status, missing⟩

/-- The rest after a key on NOTICES is that of its act, the panel apart. -/
theorem rest_noticesKey {act : State → State} {s v : State} {p : PanelUnit} (role : v.isRole .cab = true)
    (acts : act s = { v with panel := p }) : (finish s (takeSnapshot (subEvent act s))).rest =
      ({ v with panel := (finish s (takeSnapshot (subEvent act s))).panel } : State).rest := by
  obtain ⟨lines, selection, taken⟩ := takeSnapshot_panel (subEvent act s)
  have rest := finish_rest s (takeSnapshot (subEvent act s))
  have ended := finish_panelFields s (takeSnapshot (subEvent act s))
  have acted : (subEvent act s).rest = ({ v with panel := p } : State).rest := (rest_subEvent act s).trans (by rw [acts])
  generalize finish s (takeSnapshot (subEvent act s)) = t at rest ended ⊢
  rw [taken] at rest ended
  generalize subEvent act s = u at rest ended acted
  have uRole : u.isRole .cab = true := (isRole_of_rest acted .cab).trans role
  rw [rest_withPanel uRole, acted, rest_withPanel role] at rest
  rw [rest_withPanel role, rest]
  dsimp only at ended
  rw [ended]

/-! ## What follows the key on FIRST OUT (R106) -/

theorem HornAndCapture.holds {old new : CabUnit} {f : FirstOut} (h : HornAndCapture old new) (held : old.firstOut = some f) :
    new.firstOut = some f := by rw [h.2, held]

theorem HornAndCapture.empty {old new : CabUnit} (h : HornAndCapture old new) (held : old.firstOut = none)
    (none : tripEvents old.list new.list = []) : new.firstOut = .none := by rw [h.2, held, none]

theorem noteEarly_panel (pre s : State) : (noteEarly pre s).panel = s.panel := by rw [noteEarly_eq]

/-- With no LINE offer open a key's act alone is seen in the panel, and a first-out record that it leaves stands. -/
theorem firstOutEvent {f : State → State} {s : State} (live : (f s).live = true) (role : (f s).isRole .cab = true)
    (closed : (f s).panel.offer = none) : (finish s (subEvent f s)).panel = (f s).panel ∧
      ∀ r, (f s).cab.firstOut = some r → (finish s (subEvent f s)).cab.firstOut = some r := by
  have rest := rest_subEvent f s
  have uLive := (live_of_rest rest).trans live
  have uRole := (isRole_of_rest rest .cab).trans role
  have panel : (subEvent f s).panel = (f s).panel := by
    rw [subEvent, noteEarly_panel, sync_panel_same role closed]
  have cab : (subEvent f s).cab = (sync (f s)).cab := by rw [subEvent, noteEarly_cab]
  refine ⟨(finish_panel_same uLive uRole (.inl (by rw [panel]; exact closed))).trans panel, fun r held => ?_⟩
  exact (finish_hornAndCapture uLive uRole).holds (by rw [cab]; exact (sync_hornAndCapture role).holds held)

/-! ## The obligation -/

section
variable {s : State} (live : s.live = true) (role : s.isRole .cab = true) (closed : s.panel.offer = none)
include live role closed

theorem keyAck_composes {l : SnapLine} (page : s.panel.page = .notices)
    (selected : s.panel.snapshot[s.panel.selection]? = some l) (other : l.owner ≠ s.station)
    (present : s.entryState l.owner = some .present) (free : s.panel.orders.length < 4) :
    ∃ t, exec .keyAck s = .next t ∧ t.panel.counter = s.panel.counter + 1 ∧
      t.panel.orders = s.panel.orders ++ [⟨s.panel.counter + 1, l.owner, .ack, [l.slot, l.raise], none⟩] := by
  have acts := (keyAck_notices closed page selected).trans (composeAck_enters [l.slot, l.raise] other present free)
  have next := keyAck_next live role
  rw [takeKey_notices page] at next
  obtain ⟨counter, orders, -⟩ := finish_noticesKey keyAck s
  rw [acts] at counter orders
  exact ⟨_, next, counter, orders⟩

theorem keyAck_own {l : SnapLine} (page : s.panel.page = .notices)
    (selected : s.panel.snapshot[s.panel.selection]? = some l) (own : l.owner = s.station) :
    let a := ackNotice l.slot l.raise s
    let u := { a.2 with panel := { s.panel with status := .answer .ack s.station a.1.code, answerMissing := false } }
    ∃ t, exec .keyAck s = .next t ∧ t = finish s (takeSnapshot (subEvent (fun _ => u) s)) ∧
      t.panel.counter = s.panel.counter ∧ t.panel.orders = s.panel.orders ∧
      t.panel.status = .answer .ack s.station a.1.code ∧ t.panel.answerMissing = false ∧
      t.rest = { a.2 with panel := t.panel }.rest := by
  intro a u
  have acts : keyAck s = u := by
    rw [keyAck_notices closed page selected, own]; exact composeAck_own l.slot l.raise s
  have next := keyAck_next live role
  rw [takeKey_notices page, subEvent_congr (g := fun _ => u) acts] at next
  obtain ⟨counter, orders, status, missing⟩ := finish_noticesKey (fun _ => u) s
  have aRole : a.2.isRole .cab = true := by
    obtain ⟨-, image, station⟩ := ackNotice_keeps l.slot l.raise s
    simpa only [a, State.isRole, State.role, State.cfg, image, station] using role
  exact ⟨_, next, rfl, counter, orders, status, missing, rest_noticesKey aRole rfl⟩

/-- On FIRST OUT the key is one event whose act leaves the page. -/
theorem keyAck_elsewhere (page : s.panel.page = .firstOut) (stays : (clearFirstOut s).panel.page = s.panel.page) :
    exec .keyAck s = .next (finish s (subEvent clearFirstOut s)) := by
  have acts := keyAck_firstOut closed page
  rw [keyAck_next live role, takeKey_elsewhere (by rw [page]; nofun) (by rw [acts]; exact stays), subEvent_congr acts]

theorem keyAck_refused {f : FirstOut} (page : s.panel.page = .firstOut) (held : s.cab.firstOut = some f)
    (active : (s.firstOutCand f).map (·.entry.state) = some NoticeState.active.code) :
    ∃ t, exec .keyAck s = .next t ∧ t.panel = { s.panel with status := .active } ∧ t.cab.firstOut = some f := by
  have acts := clearFirstOut_refused held active
  have next := keyAck_elsewhere live role closed page (by rw [acts])
  obtain ⟨panel, captured⟩ := firstOutEvent (f := clearFirstOut) (s := s) (by rw [acts]; exact live)
    (by rw [acts]; exact role) (by rw [acts]; exact closed)
  rw [acts] at panel
  exact ⟨_, next, panel, captured f (by rw [acts]; exact held)⟩

theorem keyAck_clears {f : FirstOut} (page : s.panel.page = .firstOut) (held : s.cab.firstOut = some f)
    (other : (s.firstOutCand f).map (·.entry.state) ≠ some NoticeState.active.code) :
    let u := sync { s with cab := { s.cab with firstOut := none } }
    ∃ t, exec .keyAck s = .next t ∧ t.panel = s.panel ∧ t = finish s u ∧
      (tripEvents s.cab.list u.cab.list = [] → tripEvents u.cab.list t.cab.list = [] → t.cab.firstOut = none) := by
  intro u
  have acts := clearFirstOut_clears held other
  have next := keyAck_elsewhere live role closed page (by rw [acts])
  obtain ⟨panel, -⟩ := firstOutEvent (f := clearFirstOut) (s := s) (by rw [acts]; exact live) (by rw [acts]; exact role)
    (by rw [acts]; exact closed)
  have noted : subEvent clearFirstOut s = noteEarly s u := by unfold subEvent; rw [acts]
  have cleared : ({ s with cab := { s.cab with firstOut := none } } : State).isRole .cab = true := role
  have rest : u.rest = ({ s with cab := { s.cab with firstOut := none } } : State).rest := rest_sync _
  have uRole : u.isRole .cab = true := (isRole_of_rest rest .cab).trans cleared
  have uLive : u.live = true := (live_of_rest rest).trans live
  have same : u.panel = s.panel :=
    sync_panel_same (s := { s with cab := { s.cab with firstOut := none } }) cleared closed
  have uClosed : u.panel.offer = none := by rw [same]; exact closed
  have ended : finish s (subEvent clearFirstOut s) = finish s u := by
    rw [noted, finish_noteEarly uLive uRole (sync_cabSettled cleared) uClosed]
  rw [ended] at next panel
  rw [acts] at panel
  have shown : HornAndCapture { s.cab with firstOut := none } u.cab :=
    sync_hornAndCapture (s := { s with cab := { s.cab with firstOut := none } }) cleared
  exact ⟨_, next, panel, rfl, fun none again =>
    (finish_hornAndCapture (pre := s) uLive uRole).empty (shown.empty rfl none) again⟩

end

/-- Settles O58: the key's act by page and selection, what follows a key on NOTICES and on FIRST OUT, and a request noted within
the command being the one its end makes. -/
theorem ackKeyComposesOrClears : Obligations.AckKeyComposesOrClears := by
  intro s live role closed
  exact ⟨fun l => keyAck_composes live role closed, fun l => keyAck_own live role closed,
    fun f => keyAck_refused live role closed, fun f => keyAck_clears live role closed⟩

end Sys2Proof.Machine
end

section
/-! Payloads read back with further bytes behind them, and key reports (chapter 12, R126). -/

namespace Sys2Proof.Machine

/-- Bytes after a row that has been read are left to be read. -/
theorem readRow_append {bytes rest : List Byte} {r : RowEntry} (read : readRow bytes = some (r, rest)) (more : List Byte) :
    readRow (bytes ++ more) = some (r, rest ++ more) := by
  unfold readRow at read
  split at read
  · cases read; rfl
  · cases read

/-- The length byte of a report gives the number of its codes back. -/
theorem keyCount_toNat {codes : List Byte} (few : codes.length ≤ 4) : (BitVec.ofNat 8 codes.length).toNat = codes.length := by
  rw [BitVec.toNat_ofNat]; omega

/-- A report that begins with its lead byte passes its check. -/
theorem readKeyReport_bytes {codes : List Byte} (few : codes.length ≤ 4) : readKeyReport (keyReportBytes codes) = some codes := by
  have count := keyCount_toNat few
  have taken : (codes ++ be16 (crc16 (BitVec.ofNat 8 codes.length :: codes))).take codes.length = codes :=
    List.take_left
  have check : ((codes ++ be16 (crc16 (BitVec.ofNat 8 codes.length :: codes))).drop codes.length).take 2 =
      be16 (crc16 (BitVec.ofNat 8 codes.length :: codes)) := by rw [List.drop_left]; rfl
  have long : codes.length + 2 ≤ (codes ++ be16 (crc16 (BitVec.ofNat 8 codes.length :: codes))).length := by
    rw [List.length_append]; rfl
  have lead : (keyReportBytes codes).dropWhile (fun b => b != 0xA6) = keyReportBytes codes := rfl
  unfold readKeyReport
  rw [lead]
  simp only [keyReportBytes, List.cons_append, count, taken, check, few, long, and_self, if_true]

/-- Bytes before the lead byte are passed over. -/
theorem readKeyReport_append {before : List Byte} (none : ∀ b ∈ before, b ≠ 0xA6) (bytes : List Byte) :
    readKeyReport (before ++ bytes) = readKeyReport bytes := by
  unfold readKeyReport
  rw [List.dropWhile_append_of_pos fun b hb => bne_iff_ne.2 (none b hb)]

/-- Settles O12: each payload by the bits of its fields, and a key report by its count, its codes and its check. -/
theorem framePayloadsReadBack : Obligations.FramePayloadsReadBack := by
  refine ⟨readClaim_bytes, readTrip_bytes, fun r more => readRow_append (readRow_bytes r) more,
    fun before codes none few => ?_⟩
  rw [readKeyReport_append none, readKeyReport_bytes few]

end Sys2Proof.Machine
end

section
/-! A key that acts on the panel alone: what is left of it, and of everything else, once the key's event has ended (R119, R126). -/

namespace Sys2Proof.Machine

/-! ## An open offer at the end of an event (R121) -/

/-- An offer open on LINE is the one that the selected station's roster state gives. -/
def OfferStands (s : State) : Prop :=
  ∀ o, s.panel.offer = some o → s.panel.page = .line → o.kinds = s.lineOffer ∧ o.chosen < s.lineOffer.length

theorem offerStands_of_closed {s : State} (closed : s.panel.offer = none) : OfferStands s := by
  intro o isOpen; rw [closed] at isOpen; cases isOpen

theorem offerSync_same {s : State} (stands : OfferStands s) : offerSync s = s := by
  unfold offerSync
  split
  case h_1 o isOpen =>
    split
    case isTrue onLine =>
      simp only [Bool.and_eq_true, beq_iff_eq] at onLine
      obtain ⟨kinds, chosen⟩ := stands o isOpen onLine.2
      dsimp only
      rw [if_pos chosen, ← kinds]
      exact congrArg (fun x => ({ s with panel := { s.panel with offer := x } } : State)) isOpen.symm
    case isFalse => rfl
  case h_2 => rfl

/-- It is read from the panel and the roster. -/
theorem OfferStands.of_same {s t : State} (stands : OfferStands s) (rest : t.rest = s.rest)
    (offer : t.panel.offer = s.panel.offer) : OfferStands t := by
  have panel := panel_of_rest rest
  have selection : t.panel.lineSelection = s.panel.lineSelection := congrArg (·.lineSelection) panel
  have roster : t.entryState = s.entryState := by
    funext n; simp only [State.entryState, State.entry, claim_of_rest rest]
  have offered : t.lineOffer = s.lineOffer := by unfold State.lineOffer; rw [roster, selection]
  unfold OfferStands
  rw [offer, page_of_rest rest, offered]
  exact stands

theorem sync_panel_stands {s : State} (role : s.isRole .cab = true) (stands : OfferStands s) : (sync s).panel = s.panel := by
  have kept : OfferStands (vigSync s) := stands.of_same (rest_vigSync s) (by rw [vigSync_panel])
  rw [sync_cab_eq role, displaySync_panel, judgeNotices_panel, offerSync_same kept, vigSync_panel]

theorem subEvent_panel_stands {act : State → State} {s : State} (role : (act s).isRole .cab = true)
    (stands : OfferStands (act s)) : (subEvent act s).panel = (act s).panel := by
  rw [subEvent, noteEarly_panel, sync_panel_stands role stands]

/-! ## A key's event -/

/-- The commands of the keys other than VIGIL_A and VIGIL_B, each with its act. -/
def keyActs : List (Instr × (State → State)) :=
  [(.keyPage, keyPage), (.keyUp, keyUp), (.keyDown, keyDown), (.keyLeft, keyLeft), (.keyRight, keyRight),
   (.keySelect, keySelect), (.keyRelease, keyRelease), (.keyWithdraw, keyWithdraw), (.keyProtect, keyProtect),
   (.keyAdvance, keyAdvance), (.keyAck, keyAck)]

/-- Each of these commands takes its key. -/
theorem keyActs_next {c : Instr} {act : State → State} {s : State} (live : s.live = true) (role : s.isRole .cab = true)
    (key : (c, act) ∈ keyActs) : exec c s = .next (finish s (takeKey act s)) := by
  rw [← event_atCab live role]
  simp only [keyActs, List.mem_cons, Prod.mk.injEq, List.not_mem_nil, or_false] at key
  rcases key with h | h | h | h | h | h | h | h | h | h | h <;> (obtain ⟨rfl, rfl⟩ := h; rfl)

/-- A key does no more after what follows its act than take the snapshot again. -/
theorem takeKey_eq (act : State → State) (s : State) : ∃ lines selection, takeKey act s =
    { subEvent act s with panel := { (subEvent act s).panel with snapshot := lines, selection := selection } } := by
  unfold takeKey
  generalize subEvent act s = u
  dsimp only; split
  · exact takeSnapshot_panel u
  · exact ⟨u.panel.snapshot, u.panel.selection, rfl⟩

/-- The rest of a CAB whose panel is replaced is read from everything but the panel. -/
theorem rest_replacePanel {s u : State} {p : PanelUnit} (role : s.isRole .cab = true)
    (rest : u.rest = ({ s with panel := p } : State).rest) (q : PanelUnit) :
    ({ u with panel := q } : State).rest = ({ s with panel := q } : State).rest := by
  have uRole : u.isRole .cab = true := (isRole_of_rest rest .cab).trans role
  rw [rest_withPanel uRole q, rest, rest_withPanel role p, rest_withPanel role q]

section
variable {act : State → State} {s : State} {p : PanelUnit} (live : s.live = true) (role : s.isRole .cab = true)
  (acts : act s = { s with panel := p }) (stands : OfferStands { s with panel := p })
include live role acts stands

/-- After a key that acts on the panel alone, the panel is as the act and the new snapshot leave it. -/
theorem finish_key : (finish s (takeKey act s)).panel = (takeKey act s).panel ∧
    (finish s (takeKey act s)).rest = ({ s with panel := (finish s (takeKey act s)).panel } : State).rest := by
  have panel : (subEvent act s).panel = p :=
    (subEvent_panel_stands (by rw [acts]; exact role) (by rw [acts]; exact stands)).trans (by rw [acts])
  have rest : (subEvent act s).rest = ({ s with panel := p } : State).rest := by rw [rest_subEvent, acts]
  obtain ⟨lines, selection, taken⟩ := takeKey_eq act s
  have keyRest := rest_replacePanel role rest { p with snapshot := lines, selection := selection }
  rw [panel] at taken
  rw [taken]
  generalize subEvent act s = u at keyRest
  have keyStands : OfferStands { u with panel := { p with snapshot := lines, selection := selection } } :=
    OfferStands.of_same (s := { s with panel := { p with snapshot := lines, selection := selection } }) stands keyRest rfl
  generalize hv : ({ u with panel := { p with snapshot := lines, selection := selection } } : State) = v at keyRest keyStands
  have vPanel : v.panel = { p with snapshot := lines, selection := selection } := by rw [← hv]
  have ended : (finish s v).panel = v.panel := by
    have vLive : v.live = true := (live_of_rest keyRest).trans live
    have vRole : v.isRole .cab = true := (isRole_of_rest keyRest .cab).trans role
    rw [finish_panel vLive vRole, offerSync_same keyStands]
  refine ⟨ended, ?_⟩
  rw [ended, finish_rest, keyRest, vPanel]

/-- Away from NOTICES the panel is as the act leaves it. -/
theorem finish_key_elsewhere (was : s.panel.page ≠ .notices) (is : p.page ≠ .notices) :
    (finish s (takeKey act s)).panel = p := by
  have panel : (subEvent act s).panel = p :=
    (subEvent_panel_stands (by rw [acts]; exact role) (by rw [acts]; exact stands)).trans (by rw [acts])
  rw [(finish_key live role acts stands).1, takeKey]
  simp [panel, was, is]

/-- The command of such a key, away from NOTICES. -/
theorem key_elsewhere {c : Instr} (key : (c, act) ∈ keyActs) (was : s.panel.page ≠ .notices)
    (is : p.page ≠ .notices) :
    ∃ t, exec c s = .next t ∧ t.panel = p ∧ t.rest = ({ s with panel := t.panel } : State).rest :=
  ⟨_, keyActs_next live role key, finish_key_elsewhere live role acts stands was is, (finish_key live role acts stands).2⟩

end

end Sys2Proof.Machine
end

section
/-! Keys that move about: the cursor, the selected station, the selected line and the page (R114, R117, R119, R121). -/

namespace Sys2Proof.Machine

/-! ## The acts -/

section
variable {s : State} (closed : s.panel.offer = none)
include closed

theorem faceKey_face (act : State → State) (page : s.panel.page = .face) : faceKey act s = act s := by
  simp [faceKey, pageKey, closed, page]

theorem keyUpDown_face (down : Bool) (move : Cell → Cell) (page : s.panel.page = .face) :
    keyUpDown down move s = moveCursor move s := by
  simp only [keyUpDown, closed, page]

theorem keyUpDown_line (down : Bool) (move : Cell → Cell) (page : s.panel.page = .line) :
    keyUpDown down move s = moveStation down s := by
  simp only [keyUpDown, closed, page]

theorem keyUpDown_notices (down : Bool) (move : Cell → Cell) (page : s.panel.page = .notices) :
    keyUpDown down move s = moveSelection down s := by
  simp only [keyUpDown, closed, page]

end

/-! ## The keys -/

section
variable {s : State} (live : s.live = true) (role : s.isRole .cab = true) (closed : s.panel.offer = none)
include live role closed

theorem cursorKey_next {c : Instr} {act : State → State} {move : Cell → Cell}
    (key : (c, act) ∈ keyActs) (page : s.panel.page = .face)
    (acts : act s = moveCursor move s) :
    ∃ t, exec c s = .next t ∧ t.panel = { s.panel with cursor := move s.panel.cursor } ∧
      t.rest = ({ s with panel := t.panel } : State).rest :=
  have off : s.panel.page ≠ .notices := by rw [page]; nofun
  key_elsewhere live role acts (offerStands_of_closed closed) key off off

theorem stationKey_next {c : Instr} {act : State → State} {down : Bool}
    (key : (c, act) ∈ keyActs) (page : s.panel.page = .line)
    (acts : act s = moveStation down s) :
    ∃ t, exec c s = .next t ∧ t.panel = { s.panel with
        lineSelection := if down then stepUp s.panel.lineSelection else stepDown s.panel.lineSelection } ∧
      t.rest = ({ s with panel := t.panel } : State).rest :=
  have off : s.panel.page ≠ .notices := by rw [page]; nofun
  key_elsewhere live role acts (offerStands_of_closed closed) key off off

/-- A key on NOTICES that moves the selection: then the snapshot is taken again, and the selection stays on its line (R119). -/
theorem selectionKey_next {c : Instr} {act : State → State} {moved : Nat}
    (key : (c, act) ∈ keyActs) (page : s.panel.page = .notices)
    (acts : act s = { s with panel := { s.panel with selection := moved } }) :
    let lines : List SnapLine := (subEvent act s).cab.list.map snapLine
    ∃ t, exec c s = .next t ∧ t.rest = ({ s with panel := t.panel } : State).rest ∧ t.panel = { s.panel with
      snapshot := lines
      selection := match s.panel.snapshot[moved]? with
        | some l => (lines.findIdx? fun x => x.owner == l.owner && x.code == l.code).getD (min moved (lines.length - 1))
        | none => min moved (lines.length - 1) } := by
  intro lines
  have stands : OfferStands { s with panel := { s.panel with selection := moved } } := offerStands_of_closed closed
  obtain ⟨panel, rest⟩ := finish_key live role acts stands
  have before : (subEvent act s).panel = { s.panel with selection := moved } :=
    (subEvent_panel_stands (by rw [acts]; exact role) (by rw [acts]; exact stands)).trans (by rw [acts])
  refine ⟨_, keyActs_next live role key, rest, panel.trans ?_⟩
  rw [takeKey_notices page, takeSnapshot, State.withPanel_panel, before]
  show ({ s.panel with snapshot := lines, selection := _ } : PanelUnit) = _
  cases s.panel.snapshot[moved]? with
  | none => rfl
  | some l =>
    simp only [Option.bind_some, snapIndex]
    cases lines.findIdx? fun x => x.owner == l.owner && x.code == l.code <;> rfl

end

/-- PAGE goes to the next page, closes the offer and has the page drawn whole (R114). -/
theorem keyPage_next {s : State} (live : s.live = true) (role : s.isRole .cab = true) :
    ∃ t lines selection, exec .keyPage s = .next t ∧ t.panel = { s.panel with
        page := s.panel.page.next, offer := none, redraw := true, snapshot := lines, selection := selection } ∧
      t.rest = ({ s with panel := t.panel } : State).rest := by
  have acts : keyPage s = { s with panel := { s.panel with page := s.panel.page.next, offer := none, redraw := true } } := rfl
  have stands : OfferStands (keyPage s) := offerStands_of_closed rfl
  obtain ⟨panel, rest⟩ := finish_key live role acts stands
  obtain ⟨lines, selection, taken⟩ := takeKey_eq keyPage s
  have before : (subEvent keyPage s).panel = (keyPage s).panel := subEvent_panel_stands role stands
  refine ⟨_, lines, selection, keyActs_next live role (by simp [keyActs]), panel.trans ?_, rest⟩
  rw [taken]; dsimp only; rw [before]; rfl

/-- Settles O55: each key by its act on the panel unit, which the end of its event leaves, the snapshot on NOTICES apart. -/
theorem keysMoveAbout : Obligations.KeysMoveAbout := by
  intro s live role
  refine ⟨fun closed page => ⟨?_, ?_, ?_, ?_⟩, fun closed page => ⟨?_, ?_⟩, fun closed page c moved act key => ?_, ?_⟩
  · exact cursorKey_next live role closed (act := keyLeft) (by simp [keyActs]) page (faceKey_face closed _ page)
  · exact cursorKey_next live role closed (act := keyRight) (by simp [keyActs]) page (faceKey_face closed _ page)
  · exact cursorKey_next live role closed (act := keyUp) (by simp [keyActs]) page (keyUpDown_face closed _ _ page)
  · exact cursorKey_next live role closed (act := keyDown) (by simp [keyActs]) page (keyUpDown_face closed _ _ page)
  · exact stationKey_next live role closed (act := keyUp) (by simp [keyActs]) page (keyUpDown_line closed _ _ page)
  · exact stationKey_next live role closed (act := keyDown) (by simp [keyActs]) page (keyUpDown_line closed _ _ page)
  · simp only [List.mem_cons, Prod.mk.injEq, List.not_mem_nil, or_false] at key
    rcases key with ⟨rfl, rfl, rfl⟩ | ⟨rfl, rfl, rfl⟩
    · exact selectionKey_next live role closed (act := keyUp) (by simp [keyActs]) page (keyUpDown_notices closed _ _ page)
    · exact selectionKey_next live role closed (act := keyDown) (by simp [keyActs]) page (keyUpDown_notices closed _ _ page)
  · obtain ⟨t, lines, selection, next, panel, rest⟩ := keyPage_next live role
    exact ⟨t, next, by rw [panel], by rw [panel], by rw [panel], by rw [panel], by rw [panel], by rw [panel], rest⟩

end Sys2Proof.Machine
end

section
/-! Keys that compose orders: the checks of R116 in turn, the FACE keys with the tag step (R118), and the offers of DUST, SPOIL
and LINE (R120, R121). -/

namespace Sys2Proof.Machine

/-! ## Composing an order (R115, R116) -/

/-- The roster state in which the target of an order must be. -/
def OrderKind.targetState (k : OrderKind) : RosterState := if k = .relink then .silent else .present

/-- The order is one that the CAB carries out itself. -/
def State.ownOrder (s : State) (kind : OrderKind) (target : Option Station) : Prop :=
  target = some s.station ∧ (kind = .ack ∨ kind = .clearFault)

section
variable {s : State} {kind : OrderKind} (args : List Byte)

theorem ownOrder_iff {target : Option Station} :
    (target == some s.station && (kind == .ack || kind == .clearFault)) = true ↔ s.ownOrder kind target := by
  simp [State.ownOrder]

theorem composeOrder_noTarget : composeOrder kind none args s = (false, showStatus .noStation s) := rfl

section
variable {n : Station} (away : ¬ s.ownOrder kind (some n)) (state : s.entryState n = some kind.targetState)
include state

theorem filter_targetState :
    (some n).filter (fun n => s.entryState n == some (if kind == .relink then RosterState.silent else .present)) = some n := by
  simp [Option.filter, state, OrderKind.targetState]

include away

theorem composeOrder_busy (full : 4 ≤ s.panel.orders.length) :
    composeOrder kind (some n) args s = (false, showStatus .busy s) := by
  unfold composeOrder
  rw [if_neg (mt ownOrder_iff.1 away), filter_targetState state]
  exact if_pos full

theorem composeOrder_enters (room : s.panel.orders.length < 4) : composeOrder kind (some n) args s =
    (true, s.withPanel fun u => { u with
      counter := s.panel.counter + 1, orders := u.orders ++ [⟨s.panel.counter + 1, n, kind, args, none⟩] }) := by
  unfold composeOrder
  rw [if_neg (mt ownOrder_iff.1 away), filter_targetState state]
  exact if_neg (Nat.not_le.2 room)

end

end

/-! ## The FACE keys (R118) -/

/-- The kinds of the FACE keys. -/
def faceKinds : List OrderKind := [.tagFirst, .tagLast, .release, .withdraw, .advance, .protect, .unprotect]

theorem presentOf_entryState {s : State} {r : Role} {n : Station} (h : s.presentOf r = some n) :
    s.entryState n = some .present := by
  have present := List.find?_some h
  unfold State.isPresent State.entryIs at present
  unfold State.entryState
  cases he : s.entry n with
  | none => rw [he] at present; cases present
  | some e =>
    simp only [he, Bool.and_eq_true, beq_iff_eq] at present
    exact congrArg some present.2

/-- A FACE key's order asks for a PRESENT station, and is never one that the CAB carries out itself. -/
theorem faceKind_target {kind : OrderKind} (face : kind ∈ faceKinds) (s : State) (target : Option Station) :
    kind.targetState = .present ∧ ¬ s.ownOrder kind target := by
  have apart : kind.targetState = .present ∧ kind ≠ .ack ∧ kind ≠ .clearFault := by
    revert face; cases kind <;> decide
  obtain ⟨present, ack, clear⟩ := apart
  exact ⟨present, fun own => own.2.elim ack clear⟩

section
variable {s : State} {kind : OrderKind} (args : List Byte) (step : Bool)

theorem composeTag_noStation (none : s.presentOf .cutter = none) :
    composeTag kind args step s = { s with panel := { s.panel with status := .noStation } } := by
  rw [composeTag, none, composeOrder_noTarget]; rfl

variable (face : kind ∈ faceKinds) {n : Station} (cutter : s.presentOf .cutter = some n)
include face cutter

theorem composeTag_busy (full : 4 ≤ s.panel.orders.length) :
    composeTag kind args step s = { s with panel := { s.panel with status := .busy } } := by
  obtain ⟨present, away⟩ := faceKind_target face s (some n)
  rw [composeTag, cutter, composeOrder_busy args away (by rw [present]; exact presentOf_entryState cutter) full]; rfl

theorem composeTag_enters (room : s.panel.orders.length < 4) : composeTag kind args step s =
    { s with panel := { s.panel with
        counter := s.panel.counter + 1
        tagFirst := step
        orders := s.panel.orders ++ [⟨s.panel.counter + 1, n, kind, args, none⟩] } } := by
  obtain ⟨present, away⟩ := faceKind_target face s (some n)
  rw [composeTag, cutter, composeOrder_enters args away (by rw [present]; exact presentOf_entryState cutter) room]; rfl

end

/-- What each FACE key composes. -/
theorem faceKey_composes {s : State} {c : Instr} {kind : OrderKind} {args : List Byte} {step : Bool}
    (closed : s.panel.offer = none) (page : s.panel.page = .face)
    (key : (c, kind, args, step) ∈
      [(Instr.keySelect, if s.panel.tagFirst then OrderKind.tagLast else .tagFirst,
        [BitVec.ofNat 8 s.panel.cursor.col.val, BitVec.ofNat 8 s.panel.cursor.row.val], !s.panel.tagFirst),
       (.keyRelease, .release, [], false), (.keyWithdraw, .withdraw, [], false), (.keyAdvance, .advance, [], false),
       (.keyProtect, if s.zoneDrawn (zoneOf s.panel.cursor.row) then .unprotect else .protect,
        [BitVec.ofNat 8 (zoneOf s.panel.cursor.row)], false)]) :
    kind ∈ faceKinds ∧ ∃ act, (c, act) ∈ keyActs ∧ act s = composeTag kind args step s := by
  simp only [List.mem_cons, Prod.mk.injEq, List.not_mem_nil, or_false] at key
  rcases key with ⟨rfl, rfl, rfl, rfl⟩ | ⟨rfl, rfl, rfl, rfl⟩ | ⟨rfl, rfl, rfl, rfl⟩ | ⟨rfl, rfl, rfl, rfl⟩ |
    ⟨rfl, rfl, rfl, rfl⟩
  · refine ⟨by split <;> decide, keySelect, by simp [keyActs], ?_⟩
    simp only [keySelect, closed, page, faceSelect, State.cursorArgs]
    cases s.panel.tagFirst <;> rfl
  · exact ⟨by decide, keyRelease, by simp [keyActs], faceKey_face closed _ page⟩
  · exact ⟨by decide, keyWithdraw, by simp [keyActs], faceKey_face closed _ page⟩
  · exact ⟨by decide, keyAdvance, by simp [keyActs], faceKey_face closed _ page⟩
  · exact ⟨by split <;> decide, keyProtect, by simp [keyActs], faceKey_face closed _ page⟩

/-- Settles O57: each key composes its order, by the checks of R116, and the end of the event leaves the panel. -/
theorem faceKeysComposeOrders : Obligations.FaceKeysComposeOrders := by
  intro s c kind args step live role page closed key
  obtain ⟨face, act, command, composes⟩ := faceKey_composes closed page key
  have off : s.panel.page ≠ .notices := by rw [page]; nofun
  have leaves {p : PanelUnit} (acts : composeTag kind args step s = { s with panel := p }) (offer : p.offer = none)
      (is : p.page = s.panel.page) : ∃ t, exec c s = .next t ∧ t.panel = p := by
    obtain ⟨t, next, panel, -⟩ := key_elsewhere live role (composes.trans acts) (offerStands_of_closed offer) command off
      (is ▸ off)
    exact ⟨t, next, panel⟩
  refine ⟨fun none => leaves (composeTag_noStation args step none) closed rfl, fun n cutter => ⟨fun full => ?_, fun room => ?_⟩⟩
  · exact leaves (composeTag_busy args step face cutter full) closed rfl
  · exact leaves (composeTag_enters args step face cutter room) closed rfl

end Sys2Proof.Machine
end

section
/-! The offers of DUST, SPOIL and LINE: opened, moved in, closed, and their chosen order composed (R120, R121). -/

namespace Sys2Proof.Machine

/-! ## The acts -/

theorem lineOffer_eq (s : State) : s.lineOffer =
    if s.entryState s.panel.lineSelection = some .silent then [.clearFault, .relink] else [.clearFault] := by
  unfold State.lineOffer
  by_cases silent : s.entryState s.panel.lineSelection = some .silent <;> simp [silent]

theorem keySelect_opens {s : State} {kinds : List OrderKind} (closed : s.panel.offer = none)
    (offers : s.pageOffer = some kinds) :
    keySelect s = { s with panel := { s.panel with offer := some ⟨kinds, 0⟩ } } := by
  have page : s.panel.page ≠ .face := by
    intro page; simp only [State.pageOffer, page] at offers; cases offers
  unfold keySelect
  split
  · rename_i isOpen; rw [closed] at isOpen; cases isOpen
  · rename_i onFace; exact absurd onFace page
  · rw [openOffer, offers]; rfl

section
variable {s : State} {o : Offer} (isOpen : s.panel.offer = some o)
include isOpen

theorem keyUpDown_offer (down : Bool) (move : Cell → Cell) : keyUpDown down move s = moveChoice down o s := by
  simp only [keyUpDown, isOpen]

theorem pageKey_closes (act : Page → State → State) : pageKey act s = closeOffer s := by
  simp [pageKey, isOpen]

theorem faceKey_closes (act : State → State) : faceKey act s = closeOffer s := pageKey_closes isOpen _

theorem keySelect_composes {k : OrderKind} {n : Station} (chosen : o.kinds[o.chosen]? = some k)
    (target : s.kindTarget k = some n) (other : n ≠ s.station) (state : s.entryState n = some k.targetState)
    (room : s.panel.orders.length < 4) : keySelect s = { s with panel := { s.panel with
      offer := none
      counter := s.panel.counter + 1
      orders := s.panel.orders ++ [⟨s.panel.counter + 1, n, k, [], none⟩] } } := by
  have away : ¬ (closeOffer s).ownOrder k (some n) := fun own => other (Option.some.inj own.1)
  have enters := composeOrder_enters (s := closeOffer s) [] away state room
  simp only [keySelect, isOpen, selectOffer, chosen, target, composePlain, enters]
  rfl

end

/-- The keys of a page, other than UP, DOWN, SELECT and PAGE, close an open offer. -/
theorem closingKey_act {s : State} {o : Offer} (isOpen : s.panel.offer = some o) {c : Instr}
    (key : c ∈ [Instr.keyLeft, .keyRight, .keyRelease, .keyWithdraw, .keyProtect, .keyAdvance, .keyAck]) :
    ∃ act, (c, act) ∈ keyActs ∧ act s = closeOffer s := by
  simp only [List.mem_cons, List.not_mem_nil, or_false] at key
  rcases key with rfl | rfl | rfl | rfl | rfl | rfl | rfl
  · exact ⟨keyLeft, by simp [keyActs], faceKey_closes isOpen _⟩
  · exact ⟨keyRight, by simp [keyActs], faceKey_closes isOpen _⟩
  · exact ⟨keyRelease, by simp [keyActs], faceKey_closes isOpen _⟩
  · exact ⟨keyWithdraw, by simp [keyActs], faceKey_closes isOpen _⟩
  · exact ⟨keyProtect, by simp [keyActs], faceKey_closes isOpen _⟩
  · exact ⟨keyAdvance, by simp [keyActs], faceKey_closes isOpen _⟩
  · exact ⟨keyAck, by simp [keyActs], pageKey_closes isOpen _⟩

/-! ## The keys -/

section
variable {s : State} (live : s.live = true) (role : s.isRole .cab = true)
include live role

/-- A key away from NOTICES that acts on the panel alone and leaves the page. -/
theorem offerKey_next {c : Instr} {act : State → State} {p : PanelUnit} (off : s.panel.page ≠ .notices)
    (key : (c, act) ∈ keyActs) (acts : act s = { s with panel := p }) (page : p.page = s.panel.page)
    (stands : OfferStands { s with panel := p }) : ∃ t, exec c s = .next t ∧ t.panel = p := by
  obtain ⟨t, next, panel, -⟩ := key_elsewhere live role acts stands key off (page ▸ off)
  exact ⟨t, next, panel⟩

/-- SELECT opens the page's offer at its first kind. -/
theorem keySelect_opens_next {kinds : List OrderKind} (off : s.panel.page ≠ .notices) (closed : s.panel.offer = none)
    (offers : s.pageOffer = some kinds) :
    ∃ t, exec .keySelect s = .next t ∧ t.panel = { s.panel with offer := some ⟨kinds, 0⟩ } ∧ t.rest = s.rest := by
  have stands : OfferStands { s with panel := { s.panel with offer := some ⟨kinds, 0⟩ } } := by
    rintro o isOpen (page : s.panel.page = .line)
    have onLine : s.lineOffer = kinds := by simpa only [State.pageOffer, page, Option.some.injEq] using offers
    cases isOpen
    exact ⟨onLine.symm, Nat.succ_pos _⟩
  obtain ⟨t, next, panel, rest⟩ := key_elsewhere live role (keySelect_opens closed offers) stands
    (show (Instr.keySelect, keySelect) ∈ keyActs by simp [keyActs]) off off
  refine ⟨t, next, panel, ?_⟩
  rw [rest, panel]
  exact rest_offer role _

end

/-- Settles O56: each key by its act on the panel unit; an open LINE offer stands as the roster gives it, so the end of the event
leaves it. -/
theorem offersOpenMoveAndCompose : Obligations.OffersOpenMoveAndCompose := by
  intro s live role page kinds
  have off : s.panel.page ≠ .notices := by rcases page with page | page | page <;> rw [page] <;> nofun
  have offers : s.pageOffer = some kinds := by
    rcases page with page | page | page <;> simp [kinds, State.pageOffer, lineOffer_eq, page]
  have onLine (line : s.panel.page = .line) : s.lineOffer = kinds := by
    simpa only [State.pageOffer, line, Option.some.injEq] using offers
  refine ⟨fun closed => keySelect_opens_next live role off closed offers, fun o isOpen given => ?_⟩
  have moved {i : Nat} (within : o.chosen < o.kinds.length → i < o.kinds.length) :
      OfferStands { s with panel := { s.panel with offer := some { o with chosen := i } } } := by
    rintro _ ⟨⟩ (line : s.panel.page = .line)
    obtain ⟨same, chosen⟩ := given line
    have offered : s.lineOffer = o.kinds := (onLine line).trans same.symm
    show o.kinds = s.lineOffer ∧ i < s.lineOffer.length
    rw [offered]
    exact ⟨rfl, within (same ▸ chosen)⟩
  refine ⟨?_, ?_, fun c key => ?_, ?_, fun k n chosen target other state room => ?_⟩
  · exact offerKey_next live role off (act := keyDown) (by simp [keyActs]) (keyUpDown_offer isOpen _ _) rfl
      (moved fun _ => by omega)
  · exact offerKey_next live role off (act := keyUp) (by simp [keyActs]) (keyUpDown_offer isOpen _ _) rfl
      (moved fun _ => by omega)
  · obtain ⟨act, command, closes⟩ := closingKey_act isOpen key
    exact offerKey_next live role off command closes rfl (offerStands_of_closed rfl)
  · have next : s.panel.page.next ≠ .notices := by rcases page with page | page | page <;> rw [page] <;> nofun
    obtain ⟨t, command, panel, -⟩ := key_elsewhere (act := keyPage) (p := { s.panel with
      page := s.panel.page.next, offer := none, redraw := true }) live role rfl (offerStands_of_closed rfl)
      (show (Instr.keyPage, keyPage) ∈ keyActs by simp [keyActs]) off next
    exact ⟨t, command, panel⟩
  · exact offerKey_next live role off (act := keySelect) (by simp [keyActs])
      (keySelect_composes isOpen chosen target other state room) rfl (offerStands_of_closed rfl)

end Sys2Proof.Machine
end

section
/-! The line unit at the end of an event (R132, R135): TRIP frames may join the queue behind those that wait, the ORDER slot may be
filled, and while the bus is busy no frame is begun. -/

namespace Sys2Proof.Machine

/-! ## Stages that queue TRIP frames and fill the ORDER slot alone -/

/-- `t` has the line unit of `s`, TRIP frames queued behind those that wait and the ORDER slot apart. -/
def LineServes (s t : State) : Prop :=
  ∃ more order, t.line = { s.line with trip := s.line.trip ++ more, order := order }

theorem LineServes.of_line {s t : State} (h : t.line = s.line) : LineServes s t :=
  ⟨[], s.line.order, by rw [h, List.append_nil]⟩

theorem LineServes.refl (s : State) : LineServes s s := .of_line rfl

theorem LineServes.trans {s t u : State} (h : LineServes s t) (g : LineServes t u) : LineServes s u := by
  obtain ⟨first, _, hLine⟩ := h
  obtain ⟨second, order, gLine⟩ := g
  exact ⟨first ++ second, order, by rw [gLine, hLine, List.append_assoc]⟩

theorem lineServes_foldl {α : Type} {f : State → α → State} (h : ∀ s a, LineServes s (f s a)) (l : List α) (s : State) :
    LineServes s (l.foldl f s) := by
  induction l generalizing s with
  | nil => exact .refl s
  | cons a l ih => exact (h s a).trans (ih _)

/-! ## Notices -/

theorem lineServes_enterSlot (i : Fin 8) (c : NoticeCode) (s : State) : LineServes s (enterSlot i c s) := by
  have line : (enterSlot i c s).line = { s.line with trip := (enterSlot i c s).line.trip } :=
    congrArg (·.line) (noticesOnly_enterSlot i c s)
  rw [enterSlot_trip] at line
  split at line
  · exact ⟨_, s.line.order, line⟩
  · exact .of_line line

theorem lineServes_raiseNotice (c : NoticeCode) (s : State) : LineServes s (raiseNotice c s) := by
  unfold raiseNotice; repeat' split
  · exact lineServes_enterSlot _ c s
  · exact lineServes_enterSlot _ c s
  · exact .of_line rfl
  · rename_i i _ _ _ _
    have displaced : (displaceNote i s).line = s.line := by unfold displaceNote; split <;> rfl
    exact (LineServes.of_line displaced).trans (lineServes_enterSlot i c _)
  · exact .of_line rfl

theorem lineServes_refill (s : State) : LineServes s (refill s) := by
  refine lineServes_foldl (fun s i => ?_) _ s
  unfold fillSlot; repeat' split
  · exact lineServes_enterSlot i _ s
  all_goals exact .refl s

theorem clearNotice_line (c : NoticeCode) (s : State) : (clearNotice c s).line = s.line := by
  unfold clearNotice; repeat' split
  all_goals rfl

theorem judgeClear_line (s : State) (c : NoticeCode) : (judgeClear s c).line = s.line := by
  unfold judgeClear; repeat' split
  all_goals first | rfl | exact clearNotice_line c s

theorem lineServes_judgeRaise (s : State) (c : NoticeCode) : LineServes s (judgeRaise s c) := by
  unfold judgeRaise; split
  · exact (lineServes_raiseNotice c s).trans (.of_line rfl)
  · exact .refl s

theorem updateSilentDetail_line (s : State) : (updateSilentDetail s).line = s.line := by
  unfold updateSilentDetail; repeat' split
  all_goals rfl

theorem lineServes_judgeNotices (s : State) : LineServes s (judgeNotices s) :=
  (((lineServes_foldl (fun s c => .of_line (judgeClear_line s c)) _ s).trans (lineServes_refill _)).trans
    (lineServes_foldl lineServes_judgeRaise _ _)).trans (.of_line (updateSilentDetail_line _))

/-! ## The sync -/

theorem scrubSync_line (s : State) : (scrubSync s).line = s.line := by
  have demand (v : State) : (scrubDemand v).line = v.line := by unfold scrubDemand; dsimp only; split <;> rfl
  have follows (v : State) : (fanFollows v).line = v.line := by
    unfold fanFollows; dsimp only; repeat' split
    all_goals rfl
  have wash (v : State) : (autoWash v).line = v.line := by unfold autoWash; split <;> rfl
  unfold scrubSync; split
  · exact (wash _).trans ((follows _).trans (demand s))
  · rfl

theorem convSync_line (s : State) : (convSync s).line = s.line := by
  have next (v : State) : (convNext v).line = v.line := by
    unfold convNext; repeat' split
    all_goals rfl
  have chain (v : State) : (convChain v).line = v.line := by unfold convChain; split <;> rfl
  have runOff (v : State) : (convRunOff v).line = v.line := by unfold convRunOff; split <;> rfl
  unfold convSync; split
  · exact (runOff _).trans ((chain _).trans (next _))
  · rfl

theorem vigSync_line (s : State) : (vigSync s).line = s.line := by
  unfold vigSync vigDemand changeStanding; dsimp only; repeat' split
  all_goals rfl

theorem offerSync_line (s : State) : (offerSync s).line = s.line := by
  unfold offerSync; repeat' split
  all_goals rfl

theorem unitSync_line (s : State) : (unitSync s).line = s.line :=
  (offerSync_line _).trans ((vigSync_line _).trans ((convSync_line _).trans (scrubSync_line s)))

theorem noteBreachEntered_line (s : State) : (noteBreachEntered s).line = s.line := by unfold noteBreachEntered; split <;> rfl

theorem lineServes_judgeBreach (s : State) : LineServes s (judgeBreach s) := by
  unfold judgeBreach; repeat' split
  · exact .refl s
  · exact .of_line (clearNotice_line _ s)
  · exact lineServes_raiseNotice _ s
  · exact .refl s

theorem lineServes_permitSync (s : State) : LineServes s (permitSync s) := by
  have released (v : State) : (releaseBreach v).line = v.line := by unfold releaseBreach; split <;> rfl
  unfold permitSync; split
  · exact (lineServes_judgeBreach s).trans
      (.of_line ((applyReasons_line _).trans ((released _).trans (noteBreachEntered_line _))))
  · exact .refl s

theorem lineServes_requestSync (s : State) : LineServes s (requestSync s) := by
  have dropped : (dropRequest s).line = s.line := by
    unfold dropRequest; repeat' split
    all_goals rfl
  unfold requestSync; dsimp only; repeat' split
  · exact (LineServes.of_line dropped).trans ⟨[], _, by rw [List.append_nil]; rfl⟩
  · exact .of_line dropped
  · exact .refl s

theorem displaySync_line (s : State) : (displaySync s).line = s.line := by unfold displaySync; split <;> rfl

theorem lineServes_sync (s : State) : LineServes s (sync s) :=
  (((LineServes.of_line (unitSync_line s)).trans (lineServes_judgeNotices _)).trans (lineServes_permitSync _)).trans
    ((lineServes_requestSync _).trans (.of_line (displaySync_line _)))

theorem lineServes_retrySync (pre s : State) : LineServes s (retrySync pre s) := by
  unfold retrySync; split
  · have retried : LineServes s (retryBreach s) := by
      unfold retryBreach; split
      · exact (lineServes_raiseNotice _ s).trans (.of_line (noteBreachEntered_line _))
      · exact .refl s
    exact retried.trans (lineServes_sync _)
  · exact .refl s

theorem lineServes_fillOrderSlot (s : State) : LineServes s (fillOrderSlot s) := by
  unfold fillOrderSlot; repeat' split
  · exact ⟨[], _, by rw [List.append_nil]⟩
  all_goals exact .refl s

/-! ## The end of the event -/

theorem earlySync_lineEq (pre s : State) : (earlySync pre s).line = { s.line with stateSlot := (earlySync pre s).line.stateSlot } := by
  unfold earlySync requestEarly; dsimp only; repeat' split
  all_goals rfl

/-- While the bus is busy no frame is begun (R132). -/
theorem beginFrame_busy {s : State} (busy : s.line.bus = .busy) : beginFrame s = s := by
  have waits : s.mayBegin = false := by simp [State.mayBegin, busy]
  unfold beginFrame; rw [waits]; rfl

/-- The line after an event that leaves the bus busy: what the stages before the early request make of it, the STATE slot apart. -/
theorem finish_busy {pre s : State} (live : s.live = true) (busy : s.line.bus = .busy) :
    ∃ v, v.rest = s.rest ∧ LineServes s v ∧ (finish pre s).line = (earlySync pre v).line := by
  have served := (lineServes_sync s).trans ((lineServes_retrySync pre (sync s)).trans (lineServes_fillOrderSlot _))
  have rest : (fillOrderSlot (retrySync pre (sync s))).rest = s.rest := by simp
  refine ⟨_, rest, served, ?_⟩
  unfold finish settle
  rw [if_pos live, statusSync_line, State.noteRestarted_line]
  generalize fillOrderSlot (retrySync pre (sync s)) = v at served
  obtain ⟨more, order, line⟩ := served
  rw [beginFrame_busy]
  rw [earlySync_lineEq, line]
  exact busy

theorem finish_busy_trip {pre s : State} (live : s.live = true) (busy : s.line.bus = .busy) :
    ∃ more, (finish pre s).line.trip = s.line.trip ++ more := by
  obtain ⟨v, -, ⟨more, order, served⟩, line⟩ := finish_busy (pre := pre) live busy
  exact ⟨more, by rw [line, earlySync_lineEq, served]⟩

theorem finish_busy_sending {pre s : State} (live : s.live = true) (busy : s.line.bus = .busy) :
    (finish pre s).line.sending = s.line.sending := by
  obtain ⟨v, -, ⟨more, order, served⟩, line⟩ := finish_busy (pre := pre) live busy
  rw [line, earlySync_lineEq, served]

theorem sinceSent_of_rest {s t : State} (h : t.rest = s.rest) : t.pub.sinceSent = s.pub.sinceSent :=
  show t.pub.rest.sinceSent = s.pub.rest.sinceSent by rw [pub_of_rest h]

/-- R/4 has not passed since a STATE sent at this moment, unless R is 0 (R163). -/
theorem earlyMay_false {s : State} (sent : s.pub.sinceSent = some 0) (period : 0 < s.claim.r) : s.earlyMay = false := by
  have long : 4 ≤ s.period := by show 4 ≤ 40 * s.claim.r; omega
  have quarter : 0 < s.period / 4 := Nat.div_pos long (by decide)
  unfold State.earlyMay
  rw [sent]
  exact decide_eq_false (Nat.not_le.2 quarter)

theorem requestEarly_later {running : Bool} {s : State} (slot : s.line.stateSlot = none) (may : s.earlyMay = false) :
    (requestEarly running s).line = s.line := by
  unfold requestEarly
  rw [slot, may]
  cases running <;> rfl

/-- No STATE is placed at a moment at which one has been sent whole. -/
theorem finish_busy_stateSlot {pre s : State} (live : s.live = true) (busy : s.line.bus = .busy)
    (slot : s.line.stateSlot = none) (sent : s.pub.sinceSent = some 0) (period : 0 < s.claim.r) :
    (finish pre s).line.stateSlot = none := by
  obtain ⟨v, rest, ⟨more, order, served⟩, line⟩ := finish_busy (pre := pre) live busy
  have vSlot : v.line.stateSlot = none := by rw [served]; exact slot
  have may : v.earlyMay = false :=
    earlyMay_false ((sinceSent_of_rest rest).trans sent) (by rw [claim_of_rest rest]; exact period)
  rw [line]
  unfold earlySync; dsimp only; split
  · exact (congrArg (·.stateSlot) (requestEarly_later (s := v.withAsked false) vSlot may)).trans vSlot
  · exact vSlot

end Sys2Proof.Machine
end

section
/-! The ORDER slot at the end of an event: at a CAB the next unsent order takes an empty slot (R123), at a CUTTER an outstanding
request of a PRESENT source leaves it (R174). -/

namespace Sys2Proof.Machine

/-! ## CAB -/

theorem sync_cab_order {s : State} (role : s.isRole .cab = true) : (sync s).line.order = s.line.order := by
  have judged := (noticesOnly_judgeNotices (offerSync (vigSync s))).sameRequest
  have shown := sameRequest_displaySync (judgeNotices (offerSync (vigSync s)))
  rw [sync_cab_eq role, (judged.trans shown).2, offerSync_line, vigSync_line]

/-- The oldest unsent order of the panel's table takes the ORDER slot that stands empty after an event. -/
theorem finish_cab_order {pre s : State} (live : s.live = true) (role : s.isRole .cab = true) (slot : s.line.order = none) :
    (finish pre s).line.order = (s.panel.orders.find? (·.sent.isNone)).map fun p =>
      { target := p.target, number := p.number, kind := p.kind, args := p.args } := by
  have synced : (sync s).line.order = none := (sync_cab_order role).trans slot
  have sRole : (sync s).isRole .cab = true := (isRole_of_rest (rest_sync s) .cab).trans role
  have orders : (sync s).panel.orders = s.panel.orders := orders_of_rest (rest_sync s)
  rw [finish_other pre s live (isRole_eq role)]
  generalize sync s = v at synced sRole orders
  have served := (sameRequest_earlySync (fillOrderSlot v) pre).trans
    ((sameRequest_beginFrame _).trans (SameRequest.trans (t := noteRestarted pre _) ⟨rfl, rfl⟩ (sameRequest_statusSync _)))
  rw [served.2, fillOrderSlot, sRole, synced, orders]
  cases found : s.panel.orders.find? (·.sent.isNone) with
  | none => exact synced
  | some p => rfl

/-! ## CUTTER -/

/-- A request is outstanding, and its source is a PRESENT CAB. -/
def RequestStands (s : State) : Prop := ∃ q, s.recovery.request = some q ∧ s.isPresent .cab q.source = true

theorem RequestStands.of_same {s t : State} (h : RequestStands s) (same : SameRequest s t) (rest : t.rest = s.rest) :
    RequestStands t := by
  obtain ⟨q, request, present⟩ := h
  exact ⟨q, by rw [same.1, request], by rw [isPresent_of_rest rest, present]⟩

/-- It is neither dropped nor replaced. -/
theorem requestSync_stands {s : State} (h : RequestStands s) : requestSync s = s := by
  obtain ⟨q, request, present⟩ := h
  have dropped : dropRequest s = s := by unfold dropRequest; rw [request]; exact if_pos present
  simp only [requestSync, dropped, request, ite_self]

section
variable {s : State} (role : s.isRole .cutter = true) (h : RequestStands s)
include role h

theorem sameRequest_sync : SameRequest s (sync s) := by
  unfold sync; rw [unitSync_cutter role]
  have same := (noticesOnly_judgeNotices s).sameRequest.trans (sameRequest_permitSync _)
  have rest : (permitSync (judgeNotices s)).rest = s.rest := by simp
  rw [requestSync_stands (h.of_same same rest)]
  exact same.trans (sameRequest_displaySync _)

theorem sameRequest_retrySync (pre : State) : SameRequest s (retrySync pre s) := by
  unfold retrySync; split
  · have same := sameRequest_retryBreach s
    have rest := rest_retryBreach s
    exact same.trans (sameRequest_sync ((isRole_of_rest rest _).trans role) (h.of_same same rest))
  · exact .refl s

/-- Request and ORDER slot stay as the event leaves them. -/
theorem sameRequest_finish {pre : State} (live : s.live = true) : SameRequest s (finish pre s) := by
  have synced := sameRequest_sync role h
  have rest := rest_sync s
  have retried := synced.trans (sameRequest_retrySync ((isRole_of_rest rest _).trans role) (h.of_same synced rest) pre)
  have vRole : (retrySync pre (sync s)).isRole .cutter = true := (isRole_of_rest (by simp) _).trans role
  unfold finish settle
  rw [if_pos live, fillOrderSlot_cutter vRole]
  generalize retrySync pre (sync s) = v at retried
  have early := retried.trans (sameRequest_earlySync v pre)
  generalize earlySync pre v = w at early
  have begun := early.trans (sameRequest_beginFrame w)
  generalize beginFrame w = x at begun
  exact begun.trans (SameRequest.trans (t := noteRestarted pre x) ⟨rfl, rfl⟩ (sameRequest_statusSync _))

end

end Sys2Proof.Machine
end

section
/-! A frame sent whole (R131, R135, R138): the count and the bus, the slot that the frame leaves, and the act of its owner. -/

namespace Sys2Proof.Machine

/-! ## The act -/

/-- What the report of a frame sent whole does: SFC falls, the frame leaves its slot, and its owner acts. -/
def sentReport (f : OutFrame) (s : State) : State := reportSent f (leaveSlot f (stopSending (lowerSfc s)))

theorem sentWhole_next {s : State} {f : OutFrame} (live : s.live = true) (sending : s.line.sending = some f) :
    event (sentWhole f.cls) s = .next (finish s (sentReport f s)) := by
  have inHand : s.sentFrame f.cls = some f := by simp [State.sentFrame, sending, Option.filter]
  rw [event_live live, sentWhole, inHand]; rfl

/-- RUN and QUIET by the counts (R140). -/
def LineState.byCounts (st : LineState) (sfc hfc : Nat) : LineState :=
  match st with
  | .run | .quiet => if 128 ≤ sfc ∨ 128 ≤ hfc then .quiet else .run
  | other => other

theorem followCounts_eq (s : State) :
    followCounts s = { s with line := { s.line with state := (followCounts s).line.state } } := by
  unfold followCounts; dsimp only; repeat' split
  all_goals rfl

theorem followCounts_state (s : State) :
    (followCounts s).line.state = s.line.state.byCounts s.line.sfc s.line.hfc := by
  have test : (decide (128 ≤ s.line.sfc) || decide (128 ≤ s.line.hfc)) = decide (128 ≤ s.line.sfc ∨ 128 ≤ s.line.hfc) :=
    (Bool.decide_or ..).symm
  unfold followCounts LineState.byCounts
  rw [test]
  by_cases high : 128 ≤ s.line.sfc ∨ 128 ≤ s.line.hfc
  · cases state : s.line.state <;> simp [state, high]
  · cases state : s.line.state <;> simp [state, high]

/-- The count, the bus and the slots once a frame has been sent whole, before it leaves its slot. -/
theorem sendingStopped_eq (s : State) : stopSending (lowerSfc s) = { s with line := { s.line with
    sfc := s.line.sfc - 1, state := s.line.state.byCounts (s.line.sfc - 1) s.line.hfc
    sending := none, bus := .busy, awaitsGap := false } } := by
  have counted := followCounts_eq { s with line := { s.line with sfc := s.line.sfc - 1 } }
  rw [followCounts_state] at counted
  rw [lowerSfc, counted]; rfl

theorem byCounts_live (st : LineState) (sfc hfc : Nat) :
    (st.byCounts sfc hfc != .start && st.byCounts sfc hfc != .inactive) = (st != .start && st != .inactive) := by
  have counted : ∀ b : Prop, [Decidable b] → ((if b then LineState.quiet else .run) != .start &&
      (if b then LineState.quiet else .run) != .inactive) = true := by
    intro b _; split <;> rfl
  cases st with
  | run | quiet => exact counted _
  | start | claiming | withdrawn | inactive => rfl

/-- Every part but those that a report touches is equal. -/
def ReportOnly (s t : State) : Prop :=
  t = { s with
    line := { s.line with
      trip := t.line.trip, claim := t.line.claim, order := t.line.order, map := t.line.map, stateSlot := t.line.stateSlot }
    claim := t.claim, pub := t.pub, notices := t.notices, cabMap := t.cabMap, recovery := t.recovery, conv := t.conv
    panel := t.panel }

theorem ReportOnly.trans {s t u : State} (h : ReportOnly s t) (g : ReportOnly t u) : ReportOnly s u := by
  unfold ReportOnly at *; rw [g, h]

theorem reportOnly_leaveSlot (f : OutFrame) (s : State) : ReportOnly s (leaveSlot f s) := by
  unfold leaveSlot placeMapFrame; repeat' split
  all_goals rfl

theorem reportOnly_stateSent (g : StateFrame) (s : State) : ReportOnly s (stateSent g s) := by
  unfold stateSent
  rw [entries_sent]; rfl

theorem reportOnly_reportSent (f : OutFrame) (s : State) : ReportOnly s (reportSent f s) := by
  cases f with
  | trip n => rfl
  | claim c => unfold reportSent claimSent; dsimp only; split <;> rfl
  | order o =>
    unfold reportSent requestSent; dsimp only; repeat' split
    all_goals rfl
  | map r => rfl
  | state g => exact reportOnly_stateSent g s

theorem reportOnly_sentReport (f : OutFrame) (s : State) : ReportOnly (stopSending (lowerSfc s)) (sentReport f s) :=
  (reportOnly_leaveSlot f _).trans (reportOnly_reportSent f _)

/-! ## What every report leaves -/

section
variable (f : OutFrame) (s : State)

theorem sentReport_sfc : (sentReport f s).line.sfc = s.line.sfc - 1 := by
  rw [reportOnly_sentReport f s, sendingStopped_eq]
theorem sentReport_hfc : (sentReport f s).line.hfc = s.line.hfc := by rw [reportOnly_sentReport f s, sendingStopped_eq]
theorem sentReport_record : (sentReport f s).line.record = s.line.record := by
  rw [reportOnly_sentReport f s, sendingStopped_eq]
theorem sentReport_state : (sentReport f s).line.state = s.line.state.byCounts (s.line.sfc - 1) s.line.hfc := by
  rw [reportOnly_sentReport f s, sendingStopped_eq]
theorem sentReport_sending : (sentReport f s).line.sending = none := by rw [reportOnly_sentReport f s, sendingStopped_eq]
theorem sentReport_bus : (sentReport f s).line.bus = .busy := by rw [reportOnly_sentReport f s, sendingStopped_eq]
theorem sentReport_face : (sentReport f s).face = s.face := by rw [reportOnly_sentReport f s, sendingStopped_eq]
theorem sentReport_inputs : (sentReport f s).inputs = s.inputs := by rw [reportOnly_sentReport f s, sendingStopped_eq]
theorem sentReport_dust : (sentReport f s).dust = s.dust := by rw [reportOnly_sentReport f s, sendingStopped_eq]
theorem sentReport_replicas : (sentReport f s).replicas = s.replicas := by rw [reportOnly_sentReport f s, sendingStopped_eq]
theorem sentReport_image : (sentReport f s).image = s.image := by rw [reportOnly_sentReport f s, sendingStopped_eq]
theorem sentReport_station : (sentReport f s).station = s.station := by rw [reportOnly_sentReport f s, sendingStopped_eq]

theorem sentReport_live : (sentReport f s).live = s.live := by
  unfold State.live; rw [sentReport_state]; exact byCounts_live ..

theorem sentReport_isRole (r : Role) : (sentReport f s).isRole r = s.isRole r := by
  simp only [State.isRole, State.role, State.cfg, sentReport_image, sentReport_station]

/-- A frame that leaves its slot leaves what its owner's act reads. -/
theorem leaveSlot_owner : let v := leaveSlot f (stopSending (lowerSfc s))
    v.panel = s.panel ∧ v.claim = s.claim ∧ v.recovery = s.recovery ∧ ∀ r, v.isRole r = s.isRole r := by
  intro v
  have only : ReportOnly (stopSending (lowerSfc s)) v := reportOnly_leaveSlot f _
  have kept : v.panel = s.panel ∧ v.claim = s.claim ∧ v.recovery = s.recovery := by
    unfold v
    rw [sendingStopped_eq]
    unfold leaveSlot placeMapFrame; repeat' split
    all_goals exact ⟨rfl, rfl, rfl⟩
  refine ⟨kept.1, kept.2.1, kept.2.2, fun r => ?_⟩
  rw [only, sendingStopped_eq]; rfl

end

/-! ## Each owner's act -/

section
variable {s : State}

theorem sentReport_trip {n : NoticeEntry} {queued : List NoticeEntry} (slot : s.line.trip = n :: queued) :
    (sentReport (.trip n) s).line.trip = queued := by
  rw [sentReport, sendingStopped_eq]
  simp [leaveSlot, reportSent, slot]

/-- The claim window starts with the own CLAIM sent (R151). -/
theorem sentReport_claim {c : ClaimFrame} (slot : s.line.claim = some c) (claiming : s.line.state = .claiming) :
    (sentReport (.claim c) s).line.claim = none ∧ (sentReport (.claim c) s).claim.window = some (ms 100) ∧
      (sentReport (.claim c) s).claim.ownSent = true := by
  have left : leaveSlot (.claim c) (stopSending (lowerSfc s)) = { s with line := { s.line with
      sfc := s.line.sfc - 1, state := .claiming, sending := none, bus := .busy, awaitsGap := false, claim := none } } := by
    rw [sendingStopped_eq, claiming]; exact if_pos slot
  rw [sentReport, left]
  exact ⟨rfl, rfl, rfl⟩

/-- The pending order is SENT, with its limit of 3R (R123). -/
theorem sentReport_order_cab (o : OrderFrame) (role : s.isRole .cab = true) :
    (sentReport (.order o) s).panel.orders = s.panel.orders.map fun p =>
      if p.number == o.number && p.target == o.target && p.sent.isNone then
        { p with sent := some { elapsed := 0, limit := tenMs (3 * s.claim.r) } }
      else p := by
  obtain ⟨panel, claim, -, is⟩ := leaveSlot_owner (.order o) s
  unfold sentReport reportSent
  dsimp only
  rw [if_pos ((is _).trans role), pendingSent, State.withPanel_panel, panel, silenceTime, claim]

theorem sentReport_order_slot {o : OrderFrame} (slot : s.line.order = some o) :
    (sentReport (.order o) s).line.order = none := by
  have left : (leaveSlot (.order o) (stopSending (lowerSfc s))).line.order = none := by
    rw [sendingStopped_eq]; simp [leaveSlot, slot]
  unfold sentReport reportSent requestSent; dsimp only
  repeat' split
  all_goals exact left

/-- The CUTTER's MAP_REQUEST starts its 3R, unless they run from a MAP frame already (R174). -/
theorem sentReport_order_cutter {o : OrderFrame} {q : MapRequest} (role : s.isRole .cutter = true)
    (request : s.recovery.request = some q) (number : q.number = o.number) (source : q.source = o.target) :
    (sentReport (.order o) s).recovery.request = some { q with timer := some (q.timer.getD (tenMs (3 * s.claim.r))) } := by
  obtain ⟨-, claim, recovery, is⟩ := leaveSlot_owner (.order o) s
  unfold sentReport reportSent
  generalize leaveSlot (.order o) (stopSending (lowerSfc s)) = v at claim recovery is
  have cab : v.isRole .cab = false := (is _).trans (isRole_eq role)
  have held : v.recovery.request = some q := by rw [recovery]; exact request
  dsimp only
  rw [cab]
  cases timer : q.timer with
  | none =>
    have restarts : requestSent o v = restartRequest v := by simp [requestSent, held, number, source, timer]
    show (requestSent o v).recovery.request = _
    rw [restarts, restartRequest, State.withRecovery_recovery, silenceTime, held, claim]; rfl
  | some left =>
    have stays : requestSent o v = v := by simp [requestSent, held, timer]
    show (requestSent o v).recovery.request = _
    rw [stays, held, Option.getD_some, ← timer]

/-- The next row of the send copy is placed, or the send ends (R175). -/
theorem sentReport_map {r : RowEntry} {c : SendCopy} (slot : s.line.map = some r) (send : s.cabMap.send = some c) :
    if h : c.next < 24 then (sentReport (.map r) s).line.map = some (c.rows.get ⟨c.next, h⟩) ∧
        (sentReport (.map r) s).cabMap.send = some { c with next := c.next + 1 }
      else (sentReport (.map r) s).line.map = none ∧ (sentReport (.map r) s).cabMap.send = none := by
  have acts : sentReport (.map r) s = placeMapFrame { stopSending (lowerSfc s) with
      line := { (stopSending (lowerSfc s)).line with map := none } } := by
    unfold sentReport reportSent
    rw [sendingStopped_eq]; exact if_pos slot
  rw [acts, sendingStopped_eq, placeMapFrame]
  dsimp only
  rw [send]
  by_cases more : c.next < 24
  · rw [dif_pos more]; simp [more]
  · rw [dif_neg more]; simp [more]

end

/-! ## A STATE frame sent whole (R162, R164, R166, R171) -/

section
variable (g : StateFrame) (s : State)

theorem stateSent_pub : (stateSent g s).pub = { s.pub with
    timer := s.pub.timer.map fun _ => s.period, late := 0, sinceSent := some 0
    answers := s.pub.answers.drop (g.entries.filter Entry.isAnswer).length
    dropped := s.pub.dropped && !(s.pub.answers.drop (g.entries.filter Entry.isAnswer).length).isEmpty
    rowMarks := (stateSent g s).pub.rowMarks, tagMarks := (stateSent g s).pub.tagMarks } := by
  unfold stateSent; dsimp only; rw [entries_sent]

theorem stateSent_retires : (stateSent g s).conv.retires =
    s.conv.retires.diff (g.entries.filterMap fun | .retire e => some e | _ => none) :=
  congrArg (fun t : State => t.conv.retires) (entries_sent g.build g.entries _)

theorem stateSent_notices : (stateSent g s).notices = { s.notices with marks := (stateSent g s).notices.marks } := by
  unfold stateSent; dsimp only; rw [entries_sent]

theorem stateSent_rowMark (r : Fin 24) :
    ((∃ e, .row e ∈ g.entries ∧ rowOfByte e.row = some r) →
      (stateSent g s).pub.rowMarks.get r = (s.pub.rowMarks.get r).filter (g.build ≤ ·)) ∧
    ((∀ e, .row e ∈ g.entries → rowOfByte e.row ≠ some r) →
      (stateSent g s).pub.rowMarks.get r = s.pub.rowMarks.get r) := by
  rw [← clearMark_eq_filter]; exact rowMark_sent g.build g.entries _ r

theorem stateSent_tagMark (second : Bool) : let i : Fin 2 := if second then 1 else 0
    ((∃ e, .tag e ∈ g.entries ∧ e.record = second) →
      (stateSent g s).pub.tagMarks.get i = (s.pub.tagMarks.get i).filter (g.build ≤ ·)) ∧
    ((∀ e, .tag e ∈ g.entries → e.record ≠ second) →
      (stateSent g s).pub.tagMarks.get i = s.pub.tagMarks.get i) := by
  intro i; rw [← clearMark_eq_filter]; exact tagMark_sent g.build g.entries _ second

theorem stateSent_noticeMark (i : Fin 8) :
    ((∃ e, .notice e ∈ g.entries ∧ slotOfByte e.slot = some i) →
      (stateSent g s).notices.marks.get i = (s.notices.marks.get i).filter (g.build ≤ ·)) ∧
    ((∀ e, .notice e ∈ g.entries → slotOfByte e.slot ≠ some i) →
      (stateSent g s).notices.marks.get i = s.notices.marks.get i) := by
  rw [← clearMark_eq_filter]; exact noticeMark_sent g.build g.entries _ i

end

end Sys2Proof.Machine
end

section
/-! What a frame sent whole leaves once its event has ended, class by class. -/

namespace Sys2Proof.Machine

section
variable {s : State} (live : s.live = true)
include live

theorem sent_trip {n : NoticeEntry} {queued : List NoticeEntry} (slot : s.line.trip = n :: queued) :
    ∃ more, (finish s (sentReport (.trip n) s)).line.trip = queued ++ more := by
  obtain ⟨more, trips⟩ := finish_busy_trip (pre := s) ((sentReport_live (.trip n) s).trans live) (sentReport_bus (.trip n) s)
  exact ⟨more, by rw [trips, sentReport_trip slot]⟩

/-- The next unsent order of the CAB is queued. -/
theorem sent_order_cab {o : OrderFrame} (slot : s.line.order = some o) (role : s.isRole .cab = true) :
    let t := finish s (sentReport (.order o) s)
    t.line.order = (t.panel.orders.find? (·.sent.isNone)).map fun p =>
      { target := p.target, number := p.number, kind := p.kind, args := p.args } := by
  intro t
  have orders : t.panel.orders = (sentReport (.order o) s).panel.orders := finish_orders ..
  rw [orders]
  exact finish_cab_order ((sentReport_live _ s).trans live) ((sentReport_isRole _ s _).trans role) (sentReport_order_slot slot)

theorem sent_order_cutter {o : OrderFrame} {q : MapRequest} (slot : s.line.order = some o) (role : s.isRole .cutter = true)
    (request : s.recovery.request = some q) (number : q.number = o.number) (source : q.source = o.target)
    (present : s.isPresent .cab q.source = true) :
    (finish s (sentReport (.order o) s)).line.order = none ∧ (finish s (sentReport (.order o) s)).recovery.request =
      some { q with timer := some (q.timer.getD (tenMs (3 * s.claim.r))) } := by
  have starts := sentReport_order_cutter role request number source
  have claim : (sentReport (.order o) s).claim = s.claim := by
    obtain ⟨-, claim, -, -⟩ := leaveSlot_owner (.order o) s
    rw [← claim]
    unfold sentReport reportSent requestSent; dsimp only
    repeat' split
    all_goals rfl
  have stands : RequestStands (sentReport (.order o) s) := by
    refine ⟨_, starts, ?_⟩
    simpa only [State.isPresent, State.entryIs, State.entry, claim] using present
  obtain ⟨recovery, order⟩ :=
    sameRequest_finish ((sentReport_isRole _ s _).trans role) stands (pre := s) ((sentReport_live _ s).trans live)
  exact ⟨order.trans (sentReport_order_slot slot), by rw [recovery, starts]⟩

/-- The publication unit after a STATE sent whole, the marks apart (R162, R163, R164, R171). -/
theorem sent_state_pub (g : StateFrame) : let t := finish s (sentReport (.state g) s)
    (0 < s.claim.r → t.line.stateSlot = none) ∧ t.pub.late = 0 ∧ t.pub.sinceSent = some 0 ∧
      t.pub.timer = s.pub.timer.map (fun _ => s.period) ∧
      t.pub.answers = s.pub.answers.drop (g.entries.filter Entry.isAnswer).length ∧
      t.pub.dropped = (s.pub.dropped && !t.pub.answers.isEmpty) := by
  intro t
  have rest : t.rest = (sentReport (.state g) s).rest := finish_rest ..
  have slot : (sentReport (.state g) s).line.stateSlot = none ∧ (sentReport (.state g) s).claim = s.claim := by
    rw [sentReport, sendingStopped_eq, reportSent, stateSent, entries_sent]; exact ⟨rfl, rfl⟩
  have pub : (sentReport (.state g) s).pub = { s.pub with
      timer := s.pub.timer.map fun _ => s.period, late := 0, sinceSent := some 0
      answers := s.pub.answers.drop (g.entries.filter Entry.isAnswer).length
      dropped := s.pub.dropped && !(s.pub.answers.drop (g.entries.filter Entry.isAnswer).length).isEmpty
      rowMarks := (sentReport (.state g) s).pub.rowMarks, tagMarks := (sentReport (.state g) s).pub.tagMarks } := by
    rw [sentReport, sendingStopped_eq]; exact stateSent_pub g _
  have sent : (sentReport (.state g) s).pub.sinceSent = some 0 := by rw [pub]
  refine ⟨fun period => finish_busy_stateSlot ((sentReport_live _ s).trans live) (sentReport_bus _ s) slot.1 sent ?_,
    ?_, ?_, ?_, ?_, ?_⟩
  · rw [slot.2]; exact period
  · rw [late_of_rest rest, pub]
  · rw [sinceSent_of_rest rest, sent]
  · rw [pubTimer_of_rest rest, pub]
  · rw [answers_of_rest rest, pub]
  · rw [dropped_of_rest rest, answers_of_rest rest, pub]

end

/-- What a STATE sent whole has carried leaves or is no longer marked, except where the item has changed since (R87, R166). -/
theorem sent_state_carried (s : State) (g : StateFrame) : let t := finish s (sentReport (.state g) s)
    t.conv.retires = s.conv.retires.diff (g.entries.filterMap fun | .retire e => some e | _ => none) ∧
    (∀ r : Fin 24,
      ((∃ e, .row e ∈ g.entries ∧ rowOfByte e.row = some r) →
        t.pub.rowMarks.get r = (s.pub.rowMarks.get r).filter (g.build ≤ ·)) ∧
      ((∀ e, .row e ∈ g.entries → rowOfByte e.row ≠ some r) → t.pub.rowMarks.get r = s.pub.rowMarks.get r)) ∧
    (∀ second : Bool, let i : Fin 2 := if second then 1 else 0
      ((∃ e, .tag e ∈ g.entries ∧ e.record = second) →
        t.pub.tagMarks.get i = (s.pub.tagMarks.get i).filter (g.build ≤ ·)) ∧
      ((∀ e, .tag e ∈ g.entries → e.record ≠ second) → t.pub.tagMarks.get i = s.pub.tagMarks.get i)) := by
  intro t
  have rest : t.rest = (sentReport (.state g) s).rest := finish_rest ..
  rw [retires_of_rest rest, rowMarks_of_rest rest, tagMarks_of_rest rest, sentReport, sendingStopped_eq]
  exact ⟨stateSent_retires g _, stateSent_rowMark g _, stateSent_tagMark g _⟩

theorem sent_state_notices (s : State) (g : StateFrame) : let u := sentReport (.state g) s
    u.notices = { s.notices with marks := u.notices.marks } ∧ ∀ i : Fin 8,
      ((∃ e, .notice e ∈ g.entries ∧ slotOfByte e.slot = some i) →
        u.notices.marks.get i = (s.notices.marks.get i).filter (g.build ≤ ·)) ∧
      ((∀ e, .notice e ∈ g.entries → slotOfByte e.slot ≠ some i) → u.notices.marks.get i = s.notices.marks.get i) := by
  intro u
  unfold u
  rw [sentReport, sendingStopped_eq]
  exact ⟨stateSent_notices g _, stateSent_noticeMark g _⟩

/-- The command that reports a frame of a class sent whole. -/
def FrameClass.sentCommand : FrameClass → Instr
  | .trip => .tripSentWhole
  | .claim => .claimSentWhole
  | .order => .orderSentWhole
  | .map => .mapSentWhole
  | .state => .stateSentWhole

theorem sentCommand_next {s : State} {f : OutFrame} (live : s.live = true) (sending : s.line.sending = some f) :
    exec f.cls.sentCommand s = .next (finish s (sentReport f s)) := by
  have acts : exec f.cls.sentCommand s = event (sentWhole f.cls) s := by cases f.cls <;> rfl
  rw [acts, sentWhole_next live sending]

/-- Settles O22: the report by what every class does and by its owner's act; the end of the event leaves the bus busy, so that
no frame is begun, and of the slots fills the TRIP queue and the CAB's ORDER slot alone. -/
theorem sentWholeReports : Obligations.SentWholeReports := by
  intro s f live sending
  have uLive := (sentReport_live f s).trans live
  refine ⟨finish s (sentReport f s), ?_, ?_, ?_, ?_, ?_, ?_, ?_, ?_, ?_, ?_, ?_, ?_, ?_, ?_, ?_, ?_, ?_, ?_⟩
  · exact sentCommand_next live sending
  · rw [finish_sfc, sentReport_sfc]
  · rw [finish_hfc, sentReport_hfc]
  · rw [finish_record, sentReport_record]
  · rw [finish_busy_sending uLive (sentReport_bus f s), sentReport_sending]
  · rw [finish_lineState, sentReport_state]
    cases s.line.state <;> rfl
  · rw [finish_face, sentReport_face]
  · rw [finish_inputs, sentReport_inputs]
  · rw [finish_dust, sentReport_dust]
  · rw [finish_replicas, sentReport_replicas]
  · rw [finish_image, sentReport_image]
  · rintro n queued rfl slot
    exact sent_trip live slot
  · rintro c rfl slot claiming
    rw [finish_claimSlot, finish_claim]
    exact sentReport_claim slot claiming
  · rintro o rfl role
    rw [finish_orders]
    exact sentReport_order_cab o role
  · rintro o rfl slot role
    exact sent_order_cab live slot role
  · rintro o q rfl slot role request number source present
    exact sent_order_cutter live slot role request number source present
  · rintro r c rfl slot send
    rw [finish_mapSlot, finish_cabMap]
    exact sentReport_map slot send
  · rintro g rfl
    obtain ⟨slot, late, since, timer, answers, dropped⟩ := sent_state_pub live g
    obtain ⟨retires, rows, tags⟩ := sent_state_carried s g
    refine ⟨slot, late, since, timer, answers, dropped, retires, rows, tags, ?_⟩
    exact ⟨rfl, sent_state_notices s g⟩

end Sys2Proof.Machine
end

section
/-! A built STATE frame within its 64 bytes (R131, R165), and a sent frame against the checks of a receiver (R136). -/

namespace Sys2Proof.Machine

/-! ## The length of an entry's bytes (chapter 12) -/

theorem be16_length (w : Word16) : (be16 w).length = 2 := rfl

theorem rowEntry_length (r : RowEntry) : r.bytes.length = 11 := by
  simp [RowEntry.bytes, be16_length, packCells_length, r.cells.size]

theorem statusRecord_length (r : StatusRecord) : (Entry.status r).bytes.length = (Entry.status r).length := by
  obtain ⟨common, part⟩ := r
  cases part <;> rfl

/-- The length a STATE frame counts for an entry is that of its bytes. -/
theorem entryBytes_length (e : Entry) : e.bytes.length = e.length := by
  cases e with
  | status r => exact statusRecord_length r
  | row r => exact congrArg (· + 1) (rowEntry_length r)
  | _ => rfl

/-- The bytes that a frame counts for a list of entries. -/
def entriesLength (entries : List Entry) : Nat := (entries.map Entry.length).sum

theorem flatMap_bytes_length (entries : List Entry) : (entries.flatMap Entry.bytes).length = entriesLength entries := by
  rw [List.length_flatMap, entriesLength]
  exact congrArg List.sum (List.map_congr_left fun e _ => entryBytes_length e)

/-! ## The categories of a build (R165) -/

/-- A frame in the building: its first entry is `e`, and it fits. -/
def BuildFits (e : Entry) (entries : List Entry) : Prop := entries.head? = some e ∧ entriesLength entries ≤ 64

/-- No category moves the first entry or takes the frame beyond 64 bytes. -/
theorem addEntries_fits {first : Entry} {acc : List Entry} (added : List Entry) (h : BuildFits first acc) :
    BuildFits first (addEntries acc added) := by
  induction added generalizing acc with
  | nil => exact h
  | cons e added ih =>
    unfold addEntries; split
    · rename_i room
      refine ih ⟨?_, ?_⟩
      · rw [List.head?_append, h.1]; rfl
      · simpa [entriesLength] using room
    · exact h

theorem rollRow_fits {first : Entry} {acc : List Entry} (s : State) (h : BuildFits first acc) :
    BuildFits first (rollRow s acc).1 := by
  unfold rollRow; dsimp only; repeat' split
  · exact h
  · exact h
  all_goals exact addEntries_fits _ h

theorem rollSlot_fits {first : Entry} {acc : List Entry} (s : State) (h : BuildFits first acc) :
    BuildFits first (rollSlot s acc).1 := by
  unfold rollSlot; split
  · exact addEntries_fits _ h
  · exact h

/-- The STATUS alone fits: 8 bytes and at most the CUTTER's 23 (R167). -/
theorem ownStatus_fits (s : State) : BuildFits (.status s.ownStatus) [.status s.ownStatus] := by
  refine ⟨rfl, ?_⟩
  show 8 + _ + 0 ≤ 64
  generalize s.ownStatus.part = part
  cases part <;> simp only <;> decide

theorem composeState_fits (s : State) : BuildFits (.status s.ownStatus) (composeState s).1 :=
  addEntries_fits _ (rollSlot_fits s (rollRow_fits s (addEntries_fits _ (addEntries_fits _ (addEntries_fits _
    (addEntries_fits _ (addEntries_fits _ (addEntries_fits _ (ownStatus_fits s)))))))))

/-- Settles O31: the STATUS alone fits, and every category and rolling entry is added only where it fits behind it. -/
theorem builtStateFits : Obligations.BuiltStateFits := by
  intro s
  obtain ⟨first, fits⟩ := composeState_fits s
  exact ⟨first, fits, (flatMap_bytes_length _).trans_le fits⟩

/-! ## A sent frame's characters at a receiver (R136) -/

/-- Bytes as characters whose stop bits read recessive. -/
def sentChars (bytes : List Byte) : List LineChar := bytes.map fun b => { data := b, stopOk := true }

/-- The class and the two 0 bits of character 0 (R131). -/
theorem headerByte_reads (cls : FrameClass) (n : Station) :
    FrameClass.ofValue ((headerByte cls n).extractLsb' 5 3) = some cls ∧ (headerByte cls n).extractLsb' 0 2 = 0 := by
  cases cls <;> revert n <;> decide

/-- A character with a sound stop bit is read, and at the last one the check is compared. -/
theorem checkBody_char (cls : FrameClass) (len i : Nat) (b : Byte) (left read : List Byte) :
    checkBody cls len (sentChars (b :: left)) i read =
      if i = 3 + len then
        if be16 (crc16 ((read ++ [b]).take (2 + len))) = (read ++ [b]).drop (2 + len) then none
        else some (.check, some cls, Fin.ofNat 68 (2 + len))
      else checkBody cls len (sentChars left) (i + 1) (read ++ [b]) := rfl

/-- Characters with sound stop bits, in the number that the length gives and with their own check at the end, pass. -/
theorem checkBody_sent {cls : FrameClass} {len : Nat} {body : List Byte} (sized : body.length = 2 + len)
    (left read : List Byte) (whole : read ++ left = body ++ be16 (crc16 body)) (more : left ≠ []) :
    checkBody cls len (sentChars left) read.length read = none := by
  induction left generalizing read with
  | nil => exact absurd rfl more
  | cons b left ih =>
    have count : read.length + left.length = 3 + len := by
      have := congrArg List.length whole
      simp only [List.length_append, List.length_cons, be16_length, sized] at this
      omega
    rw [checkBody_char]
    cases left with
    | nil => rw [if_pos (show read.length = 3 + len from count), whole, ← sized, List.take_left, List.drop_left, if_pos rfl]
    | cons c left =>
      rw [if_neg (by simp only [List.length_cons] at count; omega)]
      have further := ih (read ++ [b]) (by simpa using whole) (List.cons_ne_nil c left)
      rwa [List.length_append] at further

/-- A payload of legal length, header and length before it and its check behind it, passes (R131, R136, R198). -/
theorem checkFrame_sent {cls : FrameClass} (n : Station) {payload : List Byte} (fits : payloadFits cls payload = true) :
    let body := headerByte cls n :: BitVec.ofNat 8 payload.length :: payload
    checkFrame (sentChars (body ++ be16 (crc16 body))) = none := by
  intro body
  simp only [payloadFits, Bool.and_eq_true, decide_eq_true_eq] at fits
  obtain ⟨least, most⟩ := fits
  obtain ⟨known, zero⟩ := headerByte_reads cls n
  have length : (BitVec.ofNat 8 payload.length).toNat = payload.length := by
    rw [BitVec.toNat_ofNat]; exact Nat.mod_eq_of_lt (by omega)
  have legal : ¬(64 < payload.length ∨ payload.length < cls.minLength) := by omega
  have passes : checkBody cls payload.length (sentChars (payload ++ be16 (crc16 body))) 2
      [headerByte cls n, BitVec.ofNat 8 payload.length] = none :=
    checkBody_sent (body := body) (Nat.add_comm payload.length 2) (payload ++ be16 (crc16 body))
      [headerByte cls n, BitVec.ofNat 8 payload.length] rfl (by simp [be16])
  show checkFrame ({ data := headerByte cls n, stopOk := true } ::
    { data := BitVec.ofNat 8 payload.length, stopOk := true } :: sentChars (payload ++ be16 (crc16 body))) = none
  unfold checkFrame
  simp only [known, zero, length, legal, passes, Bool.not_true, Bool.false_eq_true, if_false, ne_eq, not_true_eq_false]

/-- Settles O13: header and length as sent are legal, and the characters after them end in their own check. -/
theorem ownFramePassesEveryCheck : Obligations.OwnFramePassesEveryCheck := fun n _ fits => checkFrame_sent n fits

end Sys2Proof.Machine
end

section
/-! The line as the end of an event leaves it: what waits in the slots stays waiting, and a frame is begun where the gap allows it
(R132, R135). -/

namespace Sys2Proof.Machine

/-! ## The ORDER slot (R123, R174) -/

/-- From `s` to `t` the ORDER slot is not emptied, and what waits in it is replaced at a restoring CUTTER only (R174). -/
structure OrderFollows (s t : State) : Prop where
  rest : t.rest = s.rest
  waits : s.line.order.isSome = true → t.line.order.isSome = true
  stays : s.isRole .cutter = false ∨ s.recovery.state ≠ .restoring → s.line.order.isSome = true → t.line.order = s.line.order

theorem OrderFollows.of_order {s t : State} (rest : t.rest = s.rest) (order : t.line.order = s.line.order) :
    OrderFollows s t := ⟨rest, fun h => order ▸ h, fun _ _ => order⟩

theorem OrderFollows.trans {s t u : State} (h : OrderFollows s t) (g : OrderFollows t u) : OrderFollows s u where
  rest := g.rest.trans h.rest
  waits some := g.waits (h.waits some)
  stays calm some := (g.stays (by rwa [isRole_of_rest h.rest, recoveryState_of_rest h.rest]) (h.waits some)).trans
    (h.stays calm some)

theorem dropRequest_order (s : State) : (dropRequest s).line.order = s.line.order := by
  unfold dropRequest; repeat' split
  all_goals rfl

theorem orderFollows_requestSync (s : State) : OrderFollows s (requestSync s) := by
  refine ⟨rest_requestSync s, fun waits => ?_, fun calm _ => ?_⟩
  · unfold requestSync; dsimp only; repeat' split
    · rfl
    · rwa [dropRequest_order]
    · exact waits
  · have off : (s.isRole .cutter && s.recovery.state == .restoring) = false := by
      rcases calm with role | state
      · rw [role]; rfl
      · rw [beq_false_of_ne state, Bool.and_false]
    unfold requestSync; rw [off]; rfl

theorem orderFollows_sync (s : State) : OrderFollows s (sync s) := by
  have units : OrderFollows s (unitSync s) := .of_order (by simp [unitSync]) (by rw [unitSync_line])
  have judged (v : State) : OrderFollows v (judgeNotices v) :=
    .of_order (rest_judgeNotices v) (noticesOnly_judgeNotices v).sameRequest.2
  have permitted (v : State) : OrderFollows v (permitSync v) := .of_order (rest_permitSync v) (sameRequest_permitSync v).2
  have displayed (v : State) : OrderFollows v (displaySync v) := .of_order (rest_displaySync v) (sameRequest_displaySync v).2
  exact (((units.trans (judged _)).trans (permitted _)).trans (orderFollows_requestSync _)).trans (displayed _)

theorem orderFollows_retrySync (pre s : State) : OrderFollows s (retrySync pre s) := by
  unfold retrySync; split
  · exact (OrderFollows.of_order (rest_retryBreach s) (sameRequest_retryBreach s).2).trans (orderFollows_sync _)
  · exact .of_order rfl rfl

/-- The slot is filled only where it stands empty. -/
theorem orderFollows_fillOrderSlot (s : State) : OrderFollows s (fillOrderSlot s) := by
  have full (some : s.line.order.isSome = true) : fillOrderSlot s = s := by
    unfold fillOrderSlot; rw [if_neg]
    simp [Option.isSome_iff_ne_none.1 some]
  exact ⟨rest_fillOrderSlot s, fun some => by rwa [full some], fun _ some => by rw [full some]⟩

/-! ## All slots -/

/-- The state at the end of an event before a frame may be begun. -/
def lineServed (pre s : State) : State := earlySync pre (fillOrderSlot (retrySync pre (sync s)))

theorem lineServed_order (pre s : State) : OrderFollows s (lineServed pre s) := by
  have early (v : State) : OrderFollows v (earlySync pre v) := .of_order (rest_earlySync pre v) (sameRequest_earlySync v pre).2
  exact (((orderFollows_sync s).trans (orderFollows_retrySync pre _)).trans (orderFollows_fillOrderSlot _)).trans (early _)

/-- A STATE that waits is rebuilt in its slot at most (R163). -/
theorem earlySync_stateSlot (pre s : State) (waits : s.line.stateSlot.isSome = true) :
    (earlySync pre s).line.stateSlot.isSome = true := by
  unfold earlySync requestEarly; dsimp only; repeat' split
  all_goals first | rfl | exact waits

/-- TRIP frames join the queue behind those that wait, and no frame leaves its slot. -/
theorem lineServed_line (pre s : State) : (lineServed pre s).line = { s.line with
      trip := (lineServed pre s).line.trip, order := (lineServed pre s).line.order
      stateSlot := (lineServed pre s).line.stateSlot } ∧
    s.line.trip <+: (lineServed pre s).line.trip ∧
    (s.line.stateSlot.isSome = true → (lineServed pre s).line.stateSlot.isSome = true) := by
  obtain ⟨more, order, served⟩ : LineServes s (fillOrderSlot (retrySync pre (sync s))) :=
    ((lineServes_sync s).trans (lineServes_retrySync pre _)).trans (lineServes_fillOrderSlot _)
  unfold lineServed
  generalize fillOrderSlot (retrySync pre (sync s)) = v at served
  have line := earlySync_lineEq pre v
  refine ⟨?_, ⟨more, ?_⟩, fun waits => earlySync_stateSlot pre v (by rwa [served])⟩
  · rw [line, served]
  · rw [line, served]

theorem finish_line {pre s : State} (live : s.live = true) : (finish pre s).line = (beginFrame (lineServed pre s)).line := by
  unfold finish settle lineServed
  rw [if_pos live, statusSync_line, State.noteRestarted_line]

/-! ## The frame that begins (R135) -/

/-- `f` is the frame of lowest class that waits in the slots of `u`, of two TRIP frames the one queued first. -/
def LowestWaits (u : LineUnit) (f : OutFrame) : Prop :=
  match f with
  | .trip n => u.trip.head? = some n
  | .claim c => u.trip = [] ∧ u.claim = some c
  | .order o => u.trip = [] ∧ u.claim = none ∧ u.order = some o
  | .map r => u.trip = [] ∧ u.claim = none ∧ u.order = none ∧ u.map = some r
  | .state g => u.trip = [] ∧ u.claim = none ∧ u.order = none ∧ u.map = none ∧ u.stateSlot = some g

theorem waitingFrame_lowest {s : State} {f : OutFrame} (h : s.waitingFrame = some f) : LowestWaits s.line f := by
  unfold State.waitingFrame at h
  split at h <;> cases h <;> simp [LowestWaits, *]

theorem LowestWaits.begun {u : LineUnit} {f : OutFrame} (h : LowestWaits u f) :
    LowestWaits { u with sending := some f, bus := .busy } f := by cases f <;> exact h

/-- A frame waits where a slot is filled. -/
theorem waitingFrame_isSome (s : State) : s.waitingFrame.isSome = true ↔ s.line.trip ≠ [] ∨ s.line.claim.isSome = true ∨
    s.line.order.isSome = true ∨ s.line.map.isSome = true ∨ s.line.stateSlot.isSome = true := by
  unfold State.waitingFrame
  split <;> simp [*]

/-- What waits at an event waits still when a frame may be begun. -/
theorem lineServed_waits {pre s : State} (waits : s.waitingFrame.isSome = true) :
    (lineServed pre s).waitingFrame.isSome = true := by
  obtain ⟨line, ⟨more, trip⟩, slot⟩ := lineServed_line pre s
  have claim : (lineServed pre s).line.claim = s.line.claim := by rw [line]
  have map : (lineServed pre s).line.map = s.line.map := by rw [line]
  rw [waitingFrame_isSome] at waits ⊢
  rw [claim, map]
  refine waits.imp (fun queued none => queued ?_) (.imp id (.imp (lineServed_order pre s).waits (.imp id slot)))
  rw [none] at trip
  exact (List.append_eq_nil_iff.1 trip).1

/-- Whether the line allows a begin depends on line state, counts, bus and the frame being sent, which the stages before it leave. -/
theorem lineServed_mayBegin (pre s : State) : (lineServed pre s).mayBegin = s.mayBegin := by
  obtain ⟨line, -⟩ := lineServed_line pre s
  unfold State.mayBegin State.drives State.yields
  rw [line]

theorem beginFrame_begins {s : State} {f : OutFrame} (may : s.mayBegin = true) (waiting : s.waitingFrame = some f) :
    beginFrame s = { s with line := { s.line with sending := some f, bus := .busy } } := by
  unfold beginFrame
  rw [if_pos may, waiting]

theorem beginFrame_waits {s : State} (may : s.mayBegin = false) : beginFrame s = s := by
  unfold beginFrame
  rw [may]; rfl

section
variable {pre s : State} (live : s.live = true)
include live

/-- Where the line allows it, the waiting frame of lowest class is begun. -/
theorem finish_begins (may : s.mayBegin = true) (waits : s.waitingFrame.isSome = true) :
    ∃ f, (finish pre s).line.sending = some f ∧ LowestWaits (finish pre s).line f := by
  obtain ⟨f, waiting⟩ := Option.isSome_iff_exists.1 (lineServed_waits (pre := pre) waits)
  rw [finish_line live, beginFrame_begins ((lineServed_mayBegin pre s).trans may) waiting]
  exact ⟨f, rfl, (waitingFrame_lowest waiting).begun⟩

/-- Where it does not, none is begun, and the slots are as the stages before it leave them. -/
theorem finish_line_waits (may : s.mayBegin = false) : (finish pre s).line = (lineServed pre s).line := by
  rw [finish_line live, beginFrame_waits ((lineServed_mayBegin pre s).trans may)]

theorem finish_waits (may : s.mayBegin = false) : (finish pre s).line.sending = s.line.sending ∧
    (finish pre s).line.bus = s.line.bus := by
  obtain ⟨line, -⟩ := lineServed_line pre s
  rw [finish_line_waits live may, line]
  exact ⟨rfl, rfl⟩

end

end Sys2Proof.Machine
end

section
/-! Gaps and contention (R132, R135, R143), and the entry to CLAIMING by a rejoin (R143, R144). -/

namespace Sys2Proof.Machine

/-! ## Rejoin -/

/-- A rejoin as one update: both counts 0, no gap count, and the own CLAIM without the joining mark. -/
theorem rejoin_eq (s : State) : rejoin s = { s with
    line := { s.line with state := .claiming, sfc := 0, hfc := 0, idleGaps := none
                          claim := some { ownClaim s with joining := false } }
    ring := (commitLot s).ring
    claim := { s.claim with
      candidate := some ((Tbl.fill 8 none).set s.station (some (candOf (ownClaim s))))
      joining := false, watch := none, ownSent := false, window := some Config.claimWindow } } := rfl

/-- What an event that ends in a rejoin leaves of line and window. -/
theorem finish_rejoined {pre s u : State} (line : u.line = (rejoin s).line) (claim : u.claim = (rejoin s).claim) :
    let t := finish pre u
    t.line.state = .claiming ∧ t.line.sfc = 0 ∧ t.line.hfc = 0 ∧ t.line.idleGaps = none ∧ t.claim.window = some (ms 100) ∧
      t.line.claim.map (·.joining) = some false := by
  simp only [finish_lineState, finish_sfc, finish_hfc, finish_idleGaps, finish_claim, finish_claimSlot, line, claim, rejoin_eq]
  simp [Config.claimWindow]

/-! ## The act of a gap -/

/-- The line at a gap: no frame is being sent, and none is awaited to end. -/
def atGap (s : State) : State := { s with line := { s.line with sending := none, bus := .gap12, awaitsGap := false } }

theorem lineGap_eq (s : State) : lineGap s = countGap (atGap s) := rfl

theorem rest_atGap (s : State) : (atGap s).rest = State.rest { s with line := { s.line with awaitsGap := false } } := rfl

section
variable {s : State}

/-- Only a WITHDRAWN station counts gaps. -/
theorem countGap_other (h : s.line.state ≠ .withdrawn) : countGap s = s := by
  unfold countGap; split
  · rw [if_pos (bne_iff_ne.2 h)]
  · rfl

theorem countGap_counts {k : Nat} (state : s.line.state = .withdrawn) (gaps : s.line.idleGaps = some k) (few : k < 63) :
    countGap s = { s with line := { s.line with idleGaps := some (k + 1) } } := by
  have held : min 64 (k + 1) = k + 1 := by omega
  have short : k ≠ 63 := by omega
  simp [countGap, gaps, state, short, held]

theorem countGap_rejoins (state : s.line.state = .withdrawn) (gaps : s.line.idleGaps = some 63)
    (auto : s.cfg.autoRejoin = true) : countGap s = rejoin s := by
  simp [countGap, gaps, state, auto]

theorem countGap_awaitsGap (s : State) : (countGap s).line.awaitsGap = s.line.awaitsGap := by
  unfold countGap; repeat' split
  all_goals rfl

/-! ## Which stations begin at the gap (R132) -/

theorem yields_iff (s : State) : s.yields = true ↔
    s.line.state = .quiet ∨ (s.line.state = .claiming ∧ (128 ≤ s.line.sfc ∨ 128 ≤ s.line.hfc)) := by
  simp [State.yields]

theorem drives_of_yields (h : s.yields = true) : s.drives = true := by
  rw [yields_iff] at h
  unfold State.drives
  obtain quiet | ⟨claiming, -⟩ := h
  · rw [quiet]; rfl
  · rw [claiming]; rfl

theorem mayBegin_atGap (s : State) : (atGap s).mayBegin = (s.drives && !s.yields) := by
  show (s.drives && true && (false || (true && !s.yields))) = _
  simp

theorem mayBegin_gap20 {s : State} (yields : s.yields = true) (idle : s.line.sending = none) :
    ({ s with line := { s.line with bus := .gap20 } } : State).mayBegin = true := by
  show (s.drives && s.line.sending.isNone && (true || _)) = true
  rw [drives_of_yields yields, idle]; rfl

/-! ## The events -/

theorem atGap_live (live : s.live = true) : (atGap s).live = true := live

/-- A gap at a station that is not WITHDRAWN. -/
theorem lineGap_next (live : s.live = true) (state : s.line.state ≠ .withdrawn) :
    exec .lineGap s = .next (finish s (atGap s)) := by
  show event lineGap s = _
  rw [event_live live, lineGap_eq, countGap_other (s := atGap s) state]

theorem lineGap_begins (live : s.live = true) (state : s.line.state ≠ .withdrawn) (drives : s.drives = true)
    (yields : s.yields = false) (waits : s.waitingFrame.isSome = true) :
    ∃ t f, exec .lineGap s = .next t ∧ t.line.sending = some f ∧ LowestWaits t.line f ∧
      t.rest = State.rest { s with line := { s.line with awaitsGap := false } } := by
  obtain ⟨f, sending, lowest⟩ := finish_begins (pre := s) (atGap_live live)
    (by rw [mayBegin_atGap, drives, yields]; rfl) waits
  exact ⟨_, f, lineGap_next live state, sending, lowest, (finish_rest _ _).trans (rest_atGap s)⟩

theorem lineGap_waits (live : s.live = true) (state : s.line.state ≠ .withdrawn) (yields : s.yields = true) :
    ∃ t, exec .lineGap s = .next t ∧ t.line.sending = none ∧ t.line.bus = .gap12 ∧
      t.rest = State.rest { s with line := { s.line with awaitsGap := false } } := by
  obtain ⟨sending, bus⟩ := finish_waits (pre := s) (atGap_live live)
    (by rw [mayBegin_atGap, yields, Bool.not_true, Bool.and_false])
  exact ⟨_, lineGap_next live state, sending, bus, (finish_rest _ _).trans (rest_atGap s)⟩

/-- The 8 further bit times end at a station that waits them. -/
theorem contentionDelayEnd_begins (live : s.live = true) (yields : s.yields = true) (idle : s.line.sending = none)
    (bus : s.line.bus = .gap12) (waits : s.waitingFrame.isSome = true) :
    ∃ t f, exec .contentionDelayEnd s = .next t ∧ t.line.sending = some f ∧ LowestWaits t.line f ∧ t.rest = s.rest := by
  have ends : contentionEnds s = { s with line := { s.line with bus := .gap20 } } := by
    unfold contentionEnds; rw [bus]; rfl
  have next : exec .contentionDelayEnd s = .next (finish s { s with line := { s.line with bus := .gap20 } }) := by
    show event contentionEnds s = _
    rw [event_live live, ends]
  obtain ⟨f, sending, lowest⟩ := finish_begins (pre := s) (s := { s with line := { s.line with bus := .gap20 } }) live
    (mayBegin_gap20 yields idle) waits
  exact ⟨_, f, next, sending, lowest, finish_rest _ _⟩

end

/-- Settles O20: the gap count by its cases, and a begin by line state and counts, which the end of the event leaves. -/
theorem gapsAndContention : Obligations.GapsAndContention := by
  unfold Obligations.GapsAndContention
  intro lowest s live high
  have gap : exec .lineGap s = .next (finish s (lineGap s)) := event_live live
  have lowestWaits {t : State} {f : OutFrame} (h : LowestWaits t.line f) : lowest t f := by cases f <;> exact h
  have yields (h : s.line.state = .quiet ∨ (s.line.state = .claiming ∧ high)) : s.yields = true := (yields_iff s).2 h
  have driving (h : s.drives = true) : s.line.state ≠ .withdrawn := fun withdrawn => by
    simp [State.drives, withdrawn] at h
  refine ⟨?_, ?_, ?_, ?_, ?_, ?_⟩
  · exact ⟨_, gap, by rw [finish_awaitsGap, lineGap_eq, countGap_awaitsGap]; rfl⟩
  · intro k state gaps few
    refine ⟨_, gap, ?_⟩
    rw [finish_rest, lineGap_eq, countGap_counts (s := atGap s) state gaps few]; rfl
  · intro state gaps auto
    refine ⟨_, gap, ?_⟩
    rw [lineGap_eq, countGap_rejoins (s := atGap s) state gaps auto]
    exact finish_rejoined rfl rfl
  · intro state waits
    have drives : s.drives = true := by
      unfold State.drives
      rcases state with run | ⟨claiming, -⟩
      · rw [run]; rfl
      · rw [claiming]; rfl
    have atOnce : s.yields = false := by
      rw [← Bool.not_eq_true, yields_iff]
      rcases state with run | ⟨claiming, low⟩
      · simp [run]
      · rw [claiming]; exact not_or.2 ⟨nofun, fun many => low many.2⟩
    obtain ⟨t, f, next, sending, first, rest⟩ := lineGap_begins live (driving drives) drives atOnce waits
    exact ⟨t, f, next, sending, lowestWaits first, rest⟩
  · intro state
    exact lineGap_waits live (driving (drives_of_yields (yields state))) (yields state)
  · intro state idle bus waits
    obtain ⟨t, f, next, sending, first, rest⟩ := contentionDelayEnd_begins live (yields state) idle bus waits
    exact ⟨t, f, next, sending, lowestWaits first, rest⟩

end Sys2Proof.Machine
end

section
/-! A CLAIM taken in RUN or QUIET (R149, R151, R152), and the orders of the line unit (R144, R146, R170). -/

namespace Sys2Proof.Machine

/-! ## A CLAIM that starts a claim -/

@[simp] theorem acceptFrame_hfc (n : Station) (s : State) : (acceptFrame n s).line.hfc = s.line.hfc - 1 := by
  rw [acceptFrame_eq]

/-- Settles O23: the sender's records stand, so the CLAIM heard does nothing but enter CLAIMING. -/
theorem claimTakenStartsClaim : Obligations.ClaimTakenStartsClaim := by
  intro s n c runs other heard unmarked sameSerial
  have hears : s.hears = true := by
    unfold State.hears State.live
    rcases runs with run | quiet
    · rw [run, heard]; rfl
    · rw [quiet, heard]; rfl
  have next := claimTaken_next n c hears
  rw [takeClaim_other c (by simpa using other), unmarked, heard_serialChanged, sameSerial, Bool.or_self, if_neg nofun,
    claimActs_runs n c (by simpa using acceptFrame_runs n runs), enterClaim_some c (by simpa using other)] at next
  refine ⟨_, next, ?_⟩
  simp only [finish_lineState, finish_hfc, finish_claim, finish_claimSlot, finish_replicas, finish_face, finish_inputs,
    finish_sensor, finish_dust, noteEarly_line, noteEarly_station, noteEarly_replicas, noteEarly_face, noteEarly_sensor,
    noteEarly_dust, acceptFrame_hfc, acceptFrame_station, acceptFrame_replicas, acceptFrame_face, acceptFrame_sensor,
    acceptFrame_dust, heard_ownClaim, and_self, and_true, true_and]
  refine ⟨rfl, ?_⟩
  rw [noteEarly_eq]; simp

/-! ## Orders -/

section
variable {s : State} {n : Station} {k : Byte} (hears : s.hears = true) (room : s.pub.answers.length < 4)
include hears room

/-- An order without arguments that every role takes is answered as its rule says. -/
theorem anyRoleOrder_next (role : s.role.isSome = true) {c : Instr} {kind : OrderKind} {owner : State → AnswerCode × State}
    (order : IsOrder c n k kind [] owner) (takes : ∀ q, kind.takenBy q = true) (bare : kind.argCount = 0) {a : AnswerCode}
    {u : State} (acts : owner (acceptFrame n s) = (a, u)) : exec c s = .next (finish s (pushAnswer n k a u)) := by
  obtain ⟨q, is⟩ := Option.isSome_iff_exists.1 role
  rw [order, order_reaches hears room (r := q) (by simp [State.isRole, is]) (takes q) (by simp [bare]) (by simp), acts]

theorem orderUnknownKind_next (kind : Byte) :
    exec (.orderUnknownKind n k kind) s = .next (finish s (pushAnswer n k .role (acceptFrame n s))) := by
  have free : ¬4 ≤ (acceptFrame n s).pub.answers.length := by simpa using room
  show event (ifHeard (takeUnknown n k)) s = _
  rw [event_live (live_of_hears hears), ifHeard_hears hears, takeUnknown, if_neg free]

end

theorem clearFaultOrder_done {s : State} {n : Station} (cab : s.isPresent .cab n = true) :
    clearFaultOrder n s = (.done, { s with line := { s.line with record := none } }) := by
  simp [clearFaultOrder, State.fromCab, cab]

theorem relinkOrder_state {s : State} {n : Station} (cab : s.isPresent .cab n = true) (state : s.line.state ≠ .withdrawn) :
    relinkOrder n s = (.state, s) := by simp [relinkOrder, State.fromCab, cab, state]

theorem relinkOrder_done {s : State} {n : Station} (cab : s.isPresent .cab n = true) (state : s.line.state = .withdrawn) :
    relinkOrder n s = (.done, rejoin s) := by simp [relinkOrder, State.fromCab, cab, state]

theorem acceptFrame_withdrawn (n : Station) (s : State) :
    (acceptFrame n s).line.state = .withdrawn ↔ s.line.state = .withdrawn := by
  rcases acceptFrame_state n s with same | ⟨runs, run | quiet⟩
  · rw [same]
  · rw [run]; exact ⟨nofun, fun h => by rcases runs with r | r <;> rw [h] at r <;> cases r⟩
  · rw [quiet]; exact ⟨nofun, fun h => by rcases runs with r | r <;> rw [h] at r <;> cases r⟩

/-- Settles O42: each order by its owner's act on the state of the frame's acceptance, and a frame for another by the acceptance
alone. -/
theorem lineOrders : Obligations.LineOrders := by
  intro s n k h hears role room
  refine ⟨fun cab => ?_, fun cab state => ?_, fun cab state => ?_, fun kind => ?_, fun target => ?_⟩
  · have next : exec (.clearFault n k) s = _ := anyRoleOrder_next hears room role (kind := .clearFault) (fun _ => rfl)
      (fun _ => rfl) rfl (clearFaultOrder_done cab)
    exact ⟨_, next, by rw [finish_record]; rfl, finish_rest _ _⟩
  · have next : exec (.relink n k) s = _ := anyRoleOrder_next hears room role (kind := .relink) (fun _ => rfl)
      (fun _ => rfl) rfl (relinkOrder_done cab ((acceptFrame_withdrawn n s).2 state))
    obtain ⟨claiming, sfc, hfc, gaps, window, joining⟩ := finish_rejoined (pre := s) (s := acceptFrame n s)
      (u := pushAnswer n k .done (rejoin (acceptFrame n s))) rfl rfl
    refine ⟨_, next, claiming, sfc, hfc, gaps, window, joining, ?_⟩
    rw [finish_answers, pushAnswer_answers, rejoin_eq, acceptFrame_pub]
  · have next : exec (.relink n k) s = _ := anyRoleOrder_next hears room role (kind := .relink) (fun _ => rfl)
      (fun _ => rfl) rfl (relinkOrder_state cab (mt (acceptFrame_withdrawn n s).1 state))
    exact ⟨_, next, finish_rest _ _⟩
  · exact ⟨_, orderUnknownKind_next hears room kind, finish_rest _ _⟩
  · have next : exec (.orderOtherTarget n target) s = .next (finish s (acceptFrame n s)) := by
      show event (ifHeard (acceptFrame n)) s = _
      rw [event_live (live_of_hears hears), ifHeard_hears hears]
    exact ⟨_, next, finish_rest _ _⟩

end Sys2Proof.Machine
end

section
/-! Lost arbitration, send errors and rejected frames (R133, R134, R136, R138, R140, R141, R145). -/

namespace Sys2Proof.Machine

/-! ## The fault record and the counts -/

/-- The line fault record once a fault is offered to it (R145). -/
def faultOffered (held : Option FaultRecord) (kind : FaultKind) (cls : Option FrameClass) (position : Fin 68) : FaultRecord :=
  match held with
  | none => { kind := kind, cls := cls, position := position, count := 1 }
  | some r => { r with count := min 255 (r.count + 1) }

theorem offerFault_eq (kind : FaultKind) (cls : Option FrameClass) (position : Fin 68) (s : State) :
    offerFault kind cls position s =
      { s with line := { s.line with record := some (faultOffered s.line.record kind cls position) } } := rfl

/-- RUN and QUIET by new counts, as one update (R140). -/
theorem followCounts_line (s : State) : followCounts s =
    { s with line := { s.line with state := s.line.state.byCounts s.line.sfc s.line.hfc } } := by
  rw [followCounts_eq, followCounts_state]

/-- A frame rejected, as one update: HFC, the record, and the line state that follows the counts (R136). -/
theorem rejectFrame_eq (kind : FaultKind) (cls : Option FrameClass) (position : Fin 68) (s : State) :
    rejectFrame kind cls position s = { s with line := { s.line with
      hfc := min 255 (s.line.hfc + 1), record := some (faultOffered s.line.record kind cls position)
      state := s.line.state.byCounts s.line.sfc (min 255 (s.line.hfc + 1)) } } := by
  rw [rejectFrame, raiseHfc, followCounts_line, offerFault_eq]

/-- A send error below 248, as one update (R138). -/
theorem sendError_counts {s : State} (cls : FrameClass) (position : Fin 68) (few : s.line.sfc < 248) :
    sendError cls position s = { s with line := { s.line with
      sfc := s.line.sfc + 8, record := some (faultOffered s.line.record .sendBit (some cls) position)
      state := s.line.state.byCounts (s.line.sfc + 8) s.line.hfc, sending := none, bus := .busy, awaitsGap := true } } := by
  have below : ¬248 ≤ (offerFault .sendBit (some cls) position (frameEnds s)).line.sfc := Nat.not_le.2 few
  unfold sendError; dsimp only
  rw [if_neg below, followCounts_line]; rfl

/-- The state of a station that a send error has withdrawn (R141). -/
def withdrawnBy (cls : FrameClass) (position : Fin 68) (s : State) : State :=
  withdrawStation (offerFault .sendBit (some cls) position (frameEnds s))

theorem sendError_withdraws {s : State} (cls : FrameClass) (position : Fin 68) (many : 248 ≤ s.line.sfc) :
    sendError cls position s = withdrawnBy cls position s := by
  have above : 248 ≤ (offerFault .sendBit (some cls) position (frameEnds s)).line.sfc := many
  unfold sendError; dsimp only
  rw [if_pos above]; rfl

theorem withdrawnBy_eq (cls : FrameClass) (position : Fin 68) (s : State) : withdrawnBy cls position s = { s with
    line := { s.line with
      state := .withdrawn, sfc := 255, hfc := 0, trip := [], claim := none, map := none, idleGaps := some 0
      record := some (faultOffered s.line.record .sendBit (some cls) position)
      sending := none, bus := .busy, awaitsGap := true }
    claim := { s.claim with candidate := none, window := none, watch := none, ownSent := false }
    pub := { s.pub with timer := none, early := false }
    cabMap := { s.cabMap with send := none } } := rfl

/-! ## The place of a mismatch in the frame (R133) -/

section
variable {s : State} {f : OutFrame} (live : s.live = true) (sending : s.line.sending = some f)
include sending

theorem frameInHand_sending : s.frameInHand = some f := by unfold State.frameInHand; rw [sending]

theorem meetSendError_sending (k : Fin 68) : meetSendError k s = sendError f.cls k s := by
  unfold meetSendError; rw [frameInHand_sending sending]

theorem loseArbitration_first : loseArbitration 0 s = stopSending s := by
  unfold loseArbitration; rw [frameInHand_sending sending]
  simp [inArbitration]

theorem loseArbitration_later {k : Fin 68} (later : 1 ≤ k.val) (beyond : f.cls = .claim → 7 ≤ k.val) :
    loseArbitration k s = sendError f.cls k s := by
  have outside : inArbitration f k = false := by
    unfold inArbitration
    rw [beq_false_of_ne (Nat.ne_of_gt later), Bool.false_or, Bool.and_eq_false_iff]
    by_cases claim : f.cls = .claim
    · exact .inr (decide_eq_false (by have := beyond claim; omega))
    · exact .inl (beq_false_of_ne claim)
  unfold loseArbitration; rw [frameInHand_sending sending]
  simp [outside]

include live

theorem sendError_next (k : Fin 68) : exec (.sendError k) s = .next (finish s (sendError f.cls k s)) := by
  show event (meetSendError k) s = _
  rw [event_live live, meetSendError_sending sending]

/-- Outside the arbitration field a lost bit is a send error. -/
theorem arbitrationLost_later {k : Fin 68} (later : 1 ≤ k.val) (beyond : f.cls = .claim → 7 ≤ k.val) :
    exec (.arbitrationLost k) s = exec (.sendError k) s := by
  rw [sendError_next live sending]
  show event (loseArbitration k) s = _
  rw [event_live live, loseArbitration_later sending later beyond]

end

theorem loseArbitration_claim {s : State} {c : ClaimFrame} (sending : s.line.sending = some (.claim c)) {k : Fin 68}
    (later : 1 ≤ k.val) (field : k.val ≤ 6) : loseArbitration k s = goDuplicate s := by
  have inField : inArbitration (.claim c) k = true := by simp [inArbitration, OutFrame.cls, field]
  have notFirst : (k.val != 0) = true := bne_iff_ne.2 (Nat.ne_of_gt later)
  unfold loseArbitration; rw [frameInHand_sending sending]
  simp only [inField, notFirst, OutFrame.cls, beq_self_eq_true, Bool.and_self, Bool.not_true, Bool.false_eq_true, if_false,
    if_true]

/-! ## Entry to INACTIVE empties the slots (R142) -/

theorem enterInactive_lineEq (cause : InactiveCause) (s : State) : (enterInactive cause s).line = { s.line with
    state := .inactive, cause := some cause, trip := [], claim := none, order := none, map := none
    stateSlot := none, sending := none, idleGaps := none } := by
  unfold enterInactive; dsimp only; split
  · rw [applyReasons_line]; rfl
  · rfl

theorem finish_enterInactive_line (pre : State) (cause : InactiveCause) (s : State) :
    (finish pre (enterInactive cause s)).line = (enterInactive cause s).line := by
  rw [finish_notLive (by rw [State.live, (enterInactive_line cause s).1]; rfl), statusSync_line]

/-! ## The line after an event that leaves the bus busy -/

theorem mayBegin_busy {s : State} (busy : s.line.bus = .busy) : s.mayBegin = false := by simp [State.mayBegin, busy]

/-- The slots keep what waits in them: TRIP frames at the front, the ORDER slot but at a restoring CUTTER, the STATE slot. -/
theorem finish_busy_slots {pre s : State} (live : s.live = true) (busy : s.line.bus = .busy) :
    s.line.trip <+: (finish pre s).line.trip ∧
      (s.line.stateSlot.isSome = true → (finish pre s).line.stateSlot.isSome = true) ∧
      (s.line.order.isSome = true → (finish pre s).line.order.isSome = true) ∧
      (s.isRole .cutter = false ∨ s.recovery.state ≠ .restoring → s.line.order.isSome = true →
        (finish pre s).line.order = s.line.order) := by
  obtain ⟨-, trip, slot⟩ := lineServed_line pre s
  have order := lineServed_order pre s
  rw [finish_line_waits live (mayBegin_busy busy)]
  exact ⟨trip, slot, order.waits, order.stays⟩

/-- Lost in character 0, the frame waits in its slot. -/
theorem arbitrationLost_first {s : State} {f : OutFrame} (live : s.live = true) (sending : s.line.sending = some f) :
    ∃ t, exec (.arbitrationLost 0) s = .next t ∧ t.line.sending = none ∧ t.line.bus = .busy ∧
      t.rest = State.rest { s with line := { s.line with awaitsGap := false } } ∧ s.line.trip <+: t.line.trip ∧
      (s.line.stateSlot.isSome = true → t.line.stateSlot.isSome = true) ∧
      (s.line.order.isSome = true → t.line.order.isSome = true) ∧
      (s.isRole .cutter = false ∨ s.recovery.state ≠ .restoring → s.line.order.isSome = true →
        t.line.order = s.line.order) := by
  have next : exec (.arbitrationLost 0) s = .next (finish s (stopSending s)) := by
    show event (loseArbitration 0) s = _
    rw [event_live live, loseArbitration_first sending]
  obtain ⟨idle, bus⟩ := finish_waits (pre := s) (s := stopSending s) live (mayBegin_busy rfl)
  exact ⟨_, next, idle, bus, finish_rest _ _, finish_busy_slots (s := stopSending s) live rfl⟩

/-- Lost in characters 1 to 6 of a CLAIM, the part is a duplicate (R134). -/
theorem arbitrationLost_claim {s : State} {c : ClaimFrame} (live : s.live = true)
    (sending : s.line.sending = some (.claim c)) {k : Fin 68} (later : 1 ≤ k.val) (field : k.val ≤ 6) :
    ∃ t, exec (.arbitrationLost k) s = .next t ∧ t.line.state = .inactive ∧ t.line.cause = some .duplicate ∧
      t.status.code = 7 ∧ t.outputs = (false, false, false, false) ∧ t.line.trip = [] ∧ t.line.claim = none ∧
      t.line.order = none ∧ t.line.map = none ∧ t.line.stateSlot = none ∧ t.line.sending = none := by
  have next : exec (.arbitrationLost k) s = .next (finish s (goDuplicate s)) := by
    show event (loseArbitration k) s = _
    rw [event_live live, loseArbitration_claim sending later field]
  obtain ⟨state, cause, -, -, outputs, code⟩ :=
    finish_enterInactive s .duplicate (s.withClaim fun u => { u with candidate := none })
  refine ⟨_, next, state, cause, code, outputs, ?_⟩
  rw [goDuplicate, finish_enterInactive_line, enterInactive_lineEq]
  exact ⟨rfl, rfl, rfl, rfl, rfl, rfl⟩

/-! ## Send errors and rejected frames, with what follows -/

section
variable {s : State} {f : OutFrame} (live : s.live = true) (sending : s.line.sending = some f) (k : Fin 68)
include live sending

theorem sendError_counted (few : s.line.sfc < 248) : ∃ t, exec (.sendError k) s = .next t ∧ t.line.sending = none ∧
    t.rest = State.rest { s with line := { s.line with
      sfc := s.line.sfc + 8, record := some (faultOffered s.line.record .sendBit (some f.cls) k)
      state := s.line.state.byCounts (s.line.sfc + 8) s.line.hfc, awaitsGap := true } } := by
  have next := sendError_next live sending k
  rw [sendError_counts f.cls k few] at next
  refine ⟨_, next, ?_, finish_rest _ _⟩
  exact finish_busy_sending ((byCounts_live _ _ _).trans live) rfl

theorem sendError_withdrawn (many : 248 ≤ s.line.sfc) : ∃ t u, exec (.sendError k) s = .next t ∧ t = finish s u ∧
    u.line.trip = [] ∧ u.line.order = s.line.order ∧ u.line.stateSlot = s.line.stateSlot ∧ t.line.state = .withdrawn ∧
    t.line.sfc = 255 ∧ t.line.hfc = 0 ∧ t.line.idleGaps = some 0 ∧
    t.line.record = some (faultOffered s.line.record .sendBit (some f.cls) k) ∧ t.line.sending = none ∧
    t.line.awaitsGap = true ∧ t.line.claim = none ∧ t.line.map = none ∧ t.claim.candidate = none ∧ t.claim.window = none ∧
    t.claim.watch = none ∧ t.pub.timer = none ∧ t.claim.roster = s.claim.roster ∧ t.replicas = s.replicas := by
  have next := sendError_next live sending k
  rw [sendError_withdraws f.cls k many] at next
  refine ⟨_, _, next, rfl, rfl, rfl, rfl, ?_⟩
  have idle : (finish s (withdrawnBy f.cls k s)).line.sending = none := finish_busy_sending rfl rfl
  rw [idle]
  simp only [finish_lineState, finish_sfc, finish_hfc, finish_idleGaps, finish_record, finish_awaitsGap, finish_claimSlot,
    finish_mapSlot, finish_claim, finish_pubTimer, finish_replicas, withdrawnBy_eq, and_self]

end

theorem rest_lineAtGap (s : State) : (lineAtGap s).rest = s.rest := rfl

theorem rest_frameEnds (s : State) :
    (frameEnds s).rest = State.rest { s with line := { s.line with awaitsGap := true } } := rfl

/-- A rejected frame: the gap that cut it off is the one to wait for, else the next (R136). -/
theorem frameRejected_counted {s : State} (live : s.live = true) (heard : s.line.awaitsGap = false)
    {chars : List LineChar} {kind : FaultKind} {cls : Option FrameClass} {position : Fin 68}
    (fails : checkFrame chars = some (kind, cls, position)) : ∃ t, exec (.frameRejected chars) s = .next t ∧
      t.rest = State.rest { s with line := { s.line with
        hfc := min 255 (s.line.hfc + 1), record := some (faultOffered s.line.record kind cls position)
        state := s.line.state.byCounts s.line.sfc (min 255 (s.line.hfc + 1))
        awaitsGap := decide (position.val ≠ chars.length) } } := by
  have hears : s.hears = true := by unfold State.hears; rw [live, heard]; rfl
  refine ⟨_, event_live live, ?_⟩
  rw [finish_rest, ifHeard_hears hears]
  unfold rejectChars; rw [fails]; dsimp only
  by_cases cut : position.val = chars.length
  · rw [if_pos cut, rest_lineAtGap, rejectFrame_eq, decide_eq_false (not_not.2 cut), ← heard]
  · rw [if_neg cut, rest_frameEnds, rejectFrame_eq, decide_eq_true cut]

end Sys2Proof.Machine
end

section
/-! The wait for a gap, for every command that reports a frame (R133, R136), and the obligation about line faults. -/

namespace Sys2Proof.Machine

/-! ## Commands that report a frame -/

/-- The command reports a frame: in the wait for a gap it does nothing. -/
def ReportsFrame (c : Instr) : Prop := ∃ f, ∀ s, exec c s = event (ifHeard f) s

/-- It reports a frame whose end, however it is taken, is followed by the wait for the next gap. -/
def ReportsWholeFrame (c : Instr) : Prop :=
  ∃ f, (∀ s, exec c s = event (ifHeard f) s) ∧ ∀ s, s.hears = true → (ifHeard f s).line.awaitsGap = true

theorem ReportsWholeFrame.reportsFrame {c : Instr} (h : ReportsWholeFrame c) : ReportsFrame c := by
  obtain ⟨f, command, -⟩ := h
  exact ⟨f, command⟩

theorem ReportsFrame.disregarded {c : Instr} {s : State} (h : ReportsFrame c) (live : s.live = true)
    (waits : s.line.awaitsGap = true) : ∃ t, exec c s = .next t ∧ t.rest = s.rest := by
  obtain ⟨f, command⟩ := h
  refine ⟨_, (command s).trans (event_live live), ?_⟩
  rw [ifHeard_awaits waits, finish_rest]

theorem ReportsWholeFrame.awaits {c : Instr} {s : State} (h : ReportsWholeFrame c) (hears : s.hears = true) :
    ∃ t, exec c s = .next t ∧ t.line.awaitsGap = true := by
  obtain ⟨f, command, waits⟩ := h
  exact ⟨_, (command s).trans (event_live (live_of_hears hears)), by rw [finish_awaitsGap, waits s hears]⟩

/-- A frame of a class handed to its block, which leaves the wait. -/
theorem reportsWholeFrame_taken {c : Instr} {cls : FrameClass} {n : Station} {payload : List Byte} {f : State → State}
    (command : ∀ s, exec c s = event (takeFrame cls n payload f) s) (keeps : KeepsWait f) : ReportsWholeFrame c :=
  ⟨_, command, fun _ hears => takeFrame_awaitsGap keeps hears⟩

/-- An ORDER frame, whose owner's rule leaves the wait. -/
theorem reportsWholeFrame_order {c : Instr} {n : Station} {k : Byte} {kind : OrderKind} {args : List Byte}
    {owner : State → AnswerCode × State} (order : IsOrder c n k kind args owner) (keeps : OrderKeepsWait owner) :
    ReportsWholeFrame c := by
  refine ⟨_, order, fun s hears => ?_⟩
  rw [ifHeard_hears hears]; split
  · exact takeOrder_awaitsGap keeps
  · exact frameEnds_awaitsGap _

theorem keepsWait_takeClaimPayload (n : Station) (payload : List Byte) : KeepsWait (takeClaimPayload n payload) := by
  intro s; unfold takeClaimPayload; split
  · exact keepsWait_takeClaim n _ s
  · rfl

theorem takeUnknown_awaitsGap (n : Station) (k : Byte) (s : State) : (takeUnknown n k s).line.awaitsGap = true := by
  unfold takeUnknown; dsimp only; split <;> exact acceptFrame_awaitsGap n s

theorem reportsWholeFrame_accepted (n : Station) (k kind target : Byte) (args payload : List Byte) :
    ∀ c ∈ [Instr.claimTaken n payload, .stateTaken n payload, .tripTaken n payload, .mapTaken n payload, .tagFirst n k args,
      .tagLast n k args, .release n k, .withdraw n k, .protect n k args, .unprotect n k args, .advance n k,
      .washNow n k, .scrubReset n k, .conveyOn n k, .conveyOff n k, .conveyReset n k, .mapRequest n k, .ack n k args,
      .clearFault n k, .relink n k, .orderUnknownKind n k kind, .orderOtherTarget n target], ReportsWholeFrame c := by
  have face {c : Instr} {kind : OrderKind} {args : List Byte} {breaks : Bool} {rule : Fin 2 → State → AnswerCode × State}
      (order : IsOrder c n k kind args (faceOrder breaks n rule)) (keeps : ∀ i, OrderKeepsWait (rule i)) :=
    reportsWholeFrame_order order (orderKeepsWait_faceOrder breaks n keeps)
  simp only [List.forall_mem_cons, List.not_mem_nil, false_imp_iff, implies_true, and_true]
  refine ⟨?_, ?_, ?_, ?_, ?_, ?_, ?_, ?_, ?_, ?_, ?_, ?_, ?_, ?_, ?_, ?_, ?_, ?_, ?_, ?_, ?_, ?_⟩
  · exact reportsWholeFrame_taken (fun _ => rfl) (keepsWait_takeClaimPayload n payload)
  · exact reportsWholeFrame_taken (fun _ => rfl) (keepsWait_takeState n payload)
  · exact reportsWholeFrame_taken (fun _ => rfl) (keepsWait_takeTrip n payload)
  · exact reportsWholeFrame_taken (fun _ => rfl) (keepsWait_takeMap n payload)
  · exact face (fun _ => rfl) (orderKeepsWait_tagFirstRule args)
  · exact face (fun _ => rfl) (orderKeepsWait_tagLastRule args)
  · exact face (fun _ => rfl) orderKeepsWait_releaseRule
  · exact face (fun _ => rfl) orderKeepsWait_withdrawRule
  · exact face (fun _ => rfl) (orderKeepsWait_protectRule args)
  · exact face (fun _ => rfl) (orderKeepsWait_unprotectRule args)
  · exact face (fun _ => rfl) orderKeepsWait_advanceRule
  · exact reportsWholeFrame_order (fun _ => rfl) (orderKeepsWait_washNowOrder n)
  · exact reportsWholeFrame_order (fun _ => rfl) (orderKeepsWait_scrubResetOrder n)
  · exact reportsWholeFrame_order (fun _ => rfl) (orderKeepsWait_conveyOrder true n)
  · exact reportsWholeFrame_order (fun _ => rfl) (orderKeepsWait_conveyOrder false n)
  · exact reportsWholeFrame_order (fun _ => rfl) (orderKeepsWait_conveyResetOrder n)
  · exact reportsWholeFrame_order (fun _ => rfl) (orderKeepsWait_mapRequestOrder n)
  · exact reportsWholeFrame_order (fun _ => rfl) (orderKeepsWait_ackOrder n args)
  · exact reportsWholeFrame_order (fun _ => rfl) (orderKeepsWait_clearFaultOrder n)
  · exact reportsWholeFrame_order (fun _ => rfl) (orderKeepsWait_relinkOrder n)
  · refine ⟨takeUnknown n k, fun _ => rfl, fun s hears => ?_⟩
    rw [ifHeard_hears hears, takeUnknown_awaitsGap]
  · refine ⟨acceptFrame n, fun _ => rfl, fun s hears => ?_⟩
    rw [ifHeard_hears hears, acceptFrame_awaitsGap]

/-- Settles O21: the mismatch by its place in the frame, a fault by counts and record, and the wait for a gap by the commands that
report a frame. -/
theorem lineFaultsCount : Obligations.LineFaultsCount := by
  unfold Obligations.LineFaultsCount
  intro s live follow record
  have byCounts (sfc hfc : Nat) : follow sfc hfc = s.line.state.byCounts sfc hfc := by
    unfold follow; cases s.line.state <;> rfl
  have offered (kind : FaultKind) (cls : Option FrameClass) (position : Fin 68) :
      record kind cls position = faultOffered s.line.record kind cls position := by
    unfold record; cases s.line.record <;> rfl
  simp only [byCounts, offered]
  refine ⟨fun f sending => arbitrationLost_first live sending,
    fun c k sending later field => arbitrationLost_claim live sending later field,
    fun f k sending later beyond => arbitrationLost_later live sending later beyond,
    fun f k sending few => sendError_counted live sending k few,
    fun f k sending many => sendError_withdrawn live sending k many,
    fun chars kind cls position heard fails => frameRejected_counted live heard fails,
    fun n k kind target args payload chars => ?_⟩
  have accepted := reportsWholeFrame_accepted n k kind target args payload
  refine ⟨fun heard c taken => (accepted c taken).awaits ?_, fun waits => ?_⟩
  · unfold State.hears; rw [live, heard]; rfl
  · have rejected : ReportsFrame (.frameRejected chars) := ⟨rejectChars chars, fun _ => rfl⟩
    exact List.forall_mem_cons.2 ⟨rejected.disregarded live waits,
      fun c taken => (accepted c taken).reportsFrame.disregarded live waits⟩

end Sys2Proof.Machine
end

section
/-! The silence timer of a peer and the line silence watch: their expiries, and a frame taken first at the moment of one of them
(R149, R150, R156). -/

namespace Sys2Proof.Machine

/-! ## The expiry of a counted time -/

section
variable {s : State} {c : Instr} {act : State → State} (live : s.live = true)
include live

theorem event_unlessRestarted_acts (other : c ∉ s.restarted) :
    event (unlessRestarted c act) s = .next (finish s (act s)) := by
  rw [event_live live, unlessRestarted_act other]

/-- The expiry of a time that has been started afresh at this moment changes nothing (log entry 6). -/
theorem event_unlessRestarted_idle (noted : c ∈ s.restarted) :
    ∃ u, event (unlessRestarted c act) s = .next u ∧ u.rest = s.rest :=
  ⟨_, event_live live, by rw [finish_rest, rest_unlessRestarted noted]⟩

end

/-! ## A frame taken first (R150, R156) -/

theorem orderOtherTarget_next {s : State} (n : Station) (target : Byte) (hears : s.hears = true) :
    exec (.orderOtherTarget n target) s = .next (finish s (acceptFrame n s)) := by
  show event (ifHeard (acceptFrame n)) s = _
  rw [event_live (live_of_hears hears), ifHeard_hears hears]

/-- A frame whose acceptance leaves more of a time than was left takes the expiry of that moment away. -/
theorem orderOtherTarget_restarts {s : State} (n : Station) (target : Byte) {c : Instr} {act : State → State} {a b : Ticks}
    (expiry : ∀ t, exec c t = event (unlessRestarted c act) t) (hears : s.hears = true) (counted : c ∈ restartable)
    (before : s.timeLeft c = some a) (after : (acceptFrame n s).timeLeft c = some b) (more : a < b) :
    ∃ t u, exec (.orderOtherTarget n target) s = .next t ∧ t.claim = (acceptFrame n s).claim ∧
      exec c t = .next u ∧ u.rest = t.rest := by
  have live : (acceptFrame n s).live = true := by rw [acceptFrame_live, live_of_hears hears]
  have noted := finish_restarted live counted before after more
  obtain ⟨u, next, rest⟩ := event_unlessRestarted_idle (act := act) ((finish_live s _).trans live) noted
  exact ⟨_, u, orderOtherTarget_next n target hears, finish_claim s _, (expiry _).trans next, rest⟩

/-- The sender's PRESENT entry stays, with its silence time afresh (R156). -/
theorem acceptFrame_present {s : State} {n : Station} {e : RosterEntry} (other : n ≠ s.station) (held : s.entry n = some e)
    (present : e.state = .present) :
    (acceptFrame n s).entry n = some { e with silence := some (tenMs (3 * s.claim.r)) } := by
  rw [acceptFrame_entry, if_pos ⟨rfl, other⟩, held, Option.map_some, if_pos (.inl present), ← present, silenceTime]

/-- Any accepted frame starts a running watch afresh (R150). -/
theorem acceptFrame_watch (n : Station) (s : State) :
    (acceptFrame n s).claim.watch = s.claim.watch.map fun _ => tenMs (4 * s.claim.r) := by
  unfold acceptFrame frameEnds lineBusy reloadWatch hearEntry lowerHfc followCounts watchTime
  dsimp only; repeat' split
  all_goals rfl

/-! ## The expiries that act (R149, R150, R156) -/

theorem silenceExpires_present {s : State} {n : Station} {e : RosterEntry} (held : s.entry n = some e)
    (present : e.state = .present) (runs : e.silence.isSome = true) : silenceExpires n s = { s with claim := { s.claim with
      roster := s.claim.roster.set n (some { e with state := .silent, silence := none }) } } := by
  simp [silenceExpires, held, present, runs, State.withClaim]

theorem watchExpires_claims {s : State} (runs : s.line.state = .run ∨ s.line.state = .quiet)
    (watched : s.claim.watch.isSome = true) : watchExpires s = enterClaim none s := by
  simp [watchExpires, runs, watched]

theorem live_of_runs {s : State} (runs : s.line.state = .run ∨ s.line.state = .quiet) : s.live = true := by
  rcases runs with run | quiet
  · rw [State.live, run]; rfl
  · rw [State.live, quiet]; rfl

/-- Settles O26: a frame taken first notes the time it has started afresh, so that its expiry is idle; otherwise the expiry makes
the entry SILENT, or enters CLAIMING. -/
theorem silenceAndWatchExpire : Obligations.SilenceAndWatchExpire := by
  intro s
  refine ⟨fun n target e a hears other held present silence less => ?_,
    fun n target a runs heard watch less => ?_,
    fun n e live held present timed fresh => ?_, fun runs watched fresh => ?_⟩
  · have entry := acceptFrame_present other held present
    obtain ⟨t, u, taken, claim, expired, rest⟩ := orderOtherTarget_restarts n target (c := .silenceTimerExpiry n)
      (act := silenceExpires n) (fun _ => rfl) hears (mem_restartable _ (.inr (.inr (.inl ⟨n, rfl⟩))))
      (by rw [State.timeLeft, held, Option.bind_some, silence]) (by rw [State.timeLeft, entry, Option.bind_some]) less
    exact ⟨t, u, taken, by rw [← entry, State.entry, State.entry, claim], expired, rest⟩
  · have hears : s.hears = true := by rw [State.hears, live_of_runs runs, heard]; rfl
    have reloaded := acceptFrame_watch n s
    rw [watch, Option.map_some] at reloaded
    obtain ⟨t, u, taken, claim, expired, rest⟩ := orderOtherTarget_restarts n target (c := .lineSilenceWatchExpiry)
      (act := watchExpires) (fun _ => rfl) hears (mem_restartable _ (.inr (.inl rfl))) watch reloaded less
    exact ⟨t, u, taken, by rw [claim, reloaded], expired, rest⟩
  · refine ⟨_, event_unlessRestarted_acts live fresh, ?_⟩
    rw [finish_rest, silenceExpires_present held present timed]
  · refine ⟨_, event_unlessRestarted_acts (live_of_runs runs) fresh, ?_⟩
    rw [finish_lineState, finish_claim, finish_claimSlot, finish_replicas, watchExpires_claims runs watched, enterClaim_none]
    exact ⟨rfl, rfl, rfl, rfl, rfl, rfl, rfl⟩

end Sys2Proof.Machine
end

section
/-! Every entry that fits read back with what follows it, and so a whole STATE payload (R168). -/

namespace Sys2Proof.Machine

/-! ## Entries of each kind -/

theorem readEntry_notice_append (n : NoticeEntry) (more : List Byte) :
    readEntry ((Entry.notice n).bytes ++ more) = some (.notice n, more) := by
  obtain ⟨cls, state⟩ := noticeState_bits n.cls n.state
  have read : readEntry ((Entry.notice n).bytes ++ more) =
      (readNotice (n.bytes.tail ++ more)).map fun (n, r) => (.notice n, r) := rfl
  rw [read]
  simp only [NoticeEntry.bytes, List.tail_cons, List.cons_append, List.nil_append, readNotice, cls, state, Option.map_some]

theorem readEntry_lot_append (l : LotEntry) (more : List Byte) :
    readEntry ((Entry.lot l).bytes ++ more) = some (.lot l, more) := by
  have read : readEntry ((Entry.lot l).bytes ++ more) = readLot ((Entry.lot l).bytes.tail ++ more) := rfl
  rw [read]
  simp only [Entry.bytes, be16, List.tail_cons, List.cons_append, List.nil_append, readLot, of16_be16]

theorem readEntry_retire_append (r : RetireEntry) (more : List Byte) :
    readEntry ((Entry.retire r).bytes ++ more) = some (.retire r, more) := by
  have read : readEntry ((Entry.retire r).bytes ++ more) = readRetire ((Entry.retire r).bytes.tail ++ more) := rfl
  rw [read]
  simp only [Entry.bytes, be16, be32, List.tail_cons, List.cons_append, List.nil_append, readRetire, of16_be16, of32_be32]

theorem tagByte_bits : ∀ (record : Bool) (state : BitVec 2),
    (BitVec.ofBool record ++ (0 : BitVec 5) ++ state).getLsbD 7 = record ∧
      (BitVec.ofBool record ++ (0 : BitVec 5) ++ state).extractLsb' 0 2 = state := by decide

theorem readEntry_tag_append (t : TagEntry) (more : List Byte) :
    readEntry ((Entry.tag t).bytes ++ more) = some (.tag t, more) := by
  obtain ⟨record, state⟩ := tagByte_bits t.record t.state
  have read : readEntry ((Entry.tag t).bytes ++ more) = readTag ((Entry.tag t).bytes.tail ++ more) := rfl
  rw [read]
  simp only [Entry.bytes, List.tail_cons, List.cons_append, List.nil_append, readTag, record, state]

theorem readEntry_row_append (r : RowEntry) (more : List Byte) :
    readEntry ((Entry.row r).bytes ++ more) = some (.row r, more) := by
  have read : readEntry ((Entry.row r).bytes ++ more) = (readRow (r.bytes ++ more)).map fun (e, r) => (.row e, r) := rfl
  rw [read, readRow_append (readRow_bytes r)]; rfl

/-- An entry that fits is read back, and what follows it is left to be read. -/
theorem readEntry_append {e : Entry} (fits : entryFits e = true) (more : List Byte) :
    readEntry (e.bytes ++ more) = some (e, more) := by
  cases e with
  | status r => exact readEntry_status fits more
  | answer a => rfl
  | notice n => exact readEntry_notice_append n more
  | lot l => exact readEntry_lot_append l more
  | retire r => exact readEntry_retire_append r more
  | tag t => exact readEntry_tag_append t more
  | row r => exact readEntry_row_append r more
  | fault f => rfl

/-! ## A payload -/

/-- Every entry has bytes, so a payload's length is fuel enough for all its entries. -/
theorem entryBytes_length_pos (e : Entry) : 0 < e.bytes.length := by cases e <;> exact Nat.succ_pos _

/-- Joined bytes of entries that fit read back with fuel for every byte. -/
theorem readEntriesUpTo_flatMap {entries : List Entry} (fit : ∀ e ∈ entries, entryFits e = true) {fuel : Nat}
    (enough : (entries.flatMap Entry.bytes).length ≤ fuel) :
    readEntriesUpTo fuel (entries.flatMap Entry.bytes) = entries := by
  induction entries generalizing fuel with
  | nil => exact readEntriesUpTo_nil fuel
  | cons e entries ih =>
    rw [List.flatMap_cons] at enough ⊢
    rw [List.length_append] at enough
    have pos := entryBytes_length_pos e
    obtain ⟨fuel, rfl⟩ : ∃ k, fuel = k + 1 := ⟨fuel - 1, by omega⟩
    rw [readEntriesUpTo_cons (readEntry_append (fit e (by simp)) _), ih (fun x hx => fit x (by simp [hx])) (by omega)]

/-- Settles O11: each entry by the bits of its fields, and a payload by induction on its entries. -/
theorem statePayloadReadsBack : Obligations.StatePayloadReadsBack :=
  ⟨fun _ more fits => readEntry_append fits more, fun _ fit => readEntriesUpTo_flatMap fit (Nat.le_refl _)⟩

end Sys2Proof.Machine
end

section
/-! MAP_REQUEST at a CAB (R173, R175): the copy of a complete map, and the first MAP frame from it. -/

namespace Sys2Proof.Machine

/-- A map is complete only where every row is held (R173). -/
theorem mapComplete_full {s : State} {a : Word16} (complete : s.mapComplete = some a) (r : Fin 24) :
    ∃ e, s.cabMap.rows.get r = some e := by
  unfold State.mapComplete at complete
  split at complete
  · cases complete
  · exact sameAdvance_full ‹_› r

/-- The send copy of the CAB's rows; a row that is not held, which a complete map has none of, is blank. -/
def State.sendRows (s : State) (a : Word16) : Tbl RowEntry 24 :=
  s.cabMap.rows.map fun r => r.getD { row := 0, advance := a, cells := .fill 32 .outside }

theorem sendRows_get {s : State} {a : Word16} (complete : s.mapComplete = some a) (r : Fin 24) :
    some ((s.sendRows a).get r) = s.cabMap.rows.get r := by
  obtain ⟨e, held⟩ := mapComplete_full complete r
  rw [State.sendRows, Tbl.get_map, held, Option.getD_some]

section
variable {s : State} {n : Station} (present : s.isPresent .cutter n = true)
include present

theorem mapRequestOrder_incomplete (incomplete : s.mapComplete = none) : mapRequestOrder n s = (.state, s) := by
  simp [mapRequestOrder, present, incomplete]

/-- The rows are copied, and row 0 of the copy waits in the MAP slot. -/
theorem mapRequestOrder_complete {a : Word16} (complete : s.mapComplete = some a) :
    mapRequestOrder n s = (.done, { s with
      line := { s.line with map := some ((s.sendRows a).get 0) }
      cabMap := { s.cabMap with send := some { rows := s.sendRows a, next := 1 } } }) := by
  simp only [mapRequestOrder, present, complete, Bool.not_true, Bool.false_eq_true, if_false]
  rfl

end

/-- Settles O40: the order reaches its rule, which answers by whether the map is complete; the end of the event leaves MAP slot,
rows and send copy. -/
theorem mapRequestStartsASend : Obligations.MapRequestStartsASend := by
  intro s n k h hears role room present
  have reaches : exec (.mapRequest n k) s =
      .next (finish s (pushAnswer n k (mapRequestOrder n h).1 (mapRequestOrder n h).2)) :=
    order_reaches (kind := .mapRequest) hears room role rfl (Nat.le_refl 0) (Nat.zero_le 61)
  have rows : h.cabMap.rows = s.cabMap.rows := congrArg (·.rows) (acceptFrame_cabMap n s)
  split
  case h_1 incomplete =>
    rw [mapRequestOrder_incomplete present incomplete] at reaches
    exact ⟨_, reaches, finish_rest ..⟩
  case h_2 a complete =>
    rw [mapRequestOrder_complete present complete] at reaches
    have copied (r : Fin 24) : some ((h.sendRows a).get r) = s.cabMap.rows.get r := by rw [← rows, sendRows_get complete]
    refine ⟨_, h.sendRows a, reaches, ?_, copied, ?_, ?_, ?_⟩
    · rw [finish_cabMap]; rfl
    · rw [finish_mapSlot]; exact copied 0
    · rw [finish_cabMap]; exact rows
    · rw [finish_answers, pushAnswer_answers]
      show h.pub.answers ++ _ = _
      rw [acceptFrame_pub]

end Sys2Proof.Machine
end

section
/-! Map recovery's request and its end at the CUTTER (R174, R177): what leaves the request outside RESTORING, and the two times. -/

namespace Sys2Proof.Machine

/-! ## Outside RESTORING no request is made (R174) -/

theorem requestSync_notRestoring {s : State} (off : s.recovery.state ≠ .restoring) : requestSync s = s := by
  unfold requestSync
  rw [beq_false_of_ne off, Bool.and_false]; rfl

section
variable {s : State} (role : s.isRole .cutter = true) (off : s.recovery.state ≠ .restoring)
include role off

theorem sameRequest_sync_notRestoring : SameRequest s (sync s) := by
  unfold sync; rw [unitSync_cutter role]
  have same := (noticesOnly_judgeNotices s).sameRequest.trans (sameRequest_permitSync _)
  rw [requestSync_notRestoring (by rwa [same.1])]
  exact same.trans (sameRequest_displaySync _)

theorem sameRequest_retrySync_notRestoring (pre : State) : SameRequest s (retrySync pre s) := by
  unfold retrySync; split
  · have same := sameRequest_retryBreach s
    exact same.trans (sameRequest_sync_notRestoring ((isRole_of_rest (rest_retryBreach s) _).trans role) (by rwa [same.1]))
  · exact .refl s

/-- Recovery and ORDER slot stay as the event leaves them. -/
theorem sameRequest_finish_notRestoring {pre : State} (live : s.live = true) : SameRequest s (finish pre s) := by
  have synced := sameRequest_sync_notRestoring role off
  have sRole : (sync s).isRole .cutter = true := (isRole_of_rest (rest_sync s) _).trans role
  have retried := synced.trans (sameRequest_retrySync_notRestoring sRole (by rwa [synced.1]) pre)
  have vRole : (retrySync pre (sync s)).isRole .cutter = true := (isRole_of_rest (rest_retrySync pre _) _).trans sRole
  unfold finish settle
  rw [if_pos live, fillOrderSlot_cutter vRole]
  generalize retrySync pre (sync s) = v at retried
  have begun := (retried.trans (sameRequest_earlySync v pre)).trans (sameRequest_beginFrame _)
  generalize beginFrame (earlySync pre v) = x at begun
  exact begun.trans (SameRequest.trans (t := noteRestarted pre x) ⟨rfl, rfl⟩ (sameRequest_statusSync _))

end

/-! ## The request's time (R174) -/

/-- Giving a request up is left to the end of the event to see. -/
theorem rest_requestTimesOut {s : State} (role : s.isRole .cutter = true) : (requestTimesOut s).rest = s.rest := by
  unfold requestTimesOut; repeat' split
  · exact rest_withRecovery role _ rfl
  all_goals rfl

/-- The request whose time has run out is given up. -/
theorem requestTimesOut_recovery {s : State} {q : MapRequest} (request : s.recovery.request = some q)
    (runs : q.timer.isSome = true) : (requestTimesOut s).recovery = { s.recovery with request := none } := by
  simp [requestTimesOut, request, runs]

/-- The next source, where one can be chosen, is asked at the end of the event. -/
theorem requestTimesOut_asks {s : State} {q : MapRequest} (live : s.live = true) (role : s.isRole .cutter = true)
    (restoring : s.recovery.state = .restoring) (request : s.recovery.request = some q) (runs : q.timer.isSome = true) :
    RequestMade s.recovery.counter s.chosenSource (finish s (requestTimesOut s)) := by
  have rest := rest_requestTimesOut role
  have recovery := requestTimesOut_recovery request runs
  have made := finish_request (pre := s) ((live_of_rest rest).trans live) ((isRole_of_rest rest _).trans role)
    ((recoveryState_of_rest rest).trans restoring) (congrArg (·.request) recovery)
  rwa [chosenSource_of_rest rest, recovery] at made

/-! ## The recovery time (R177) -/

section
variable (s : State)

theorem recoveryExpires_live : (recoveryExpires s).live = s.live := by unfold recoveryExpires; split <;> rfl
theorem recoveryExpires_isRole (r : Role) : (recoveryExpires s).isRole r = s.isRole r := by
  unfold recoveryExpires; split <;> rfl
theorem recoveryExpires_face : (recoveryExpires s).face = s.face := by unfold recoveryExpires; split <;> rfl

variable {s} (restoring : s.recovery.state = .restoring)
include restoring

theorem recoveryExpires_restoring : recoveryExpires s = markAllRows (endRecovery .lost s) := by
  simp [recoveryExpires, restoring]

theorem recoveryExpires_recovery : (recoveryExpires s).recovery =
    { s.recovery with state := .lost, timer := none, request := none, buffer := .fill 24 none } := by
  rw [recoveryExpires_restoring restoring]; rfl

theorem recoveryExpires_order : (recoveryExpires s).line.order = none := by rw [recoveryExpires_restoring restoring]; rfl

theorem recoveryExpires_rowMarks : (recoveryExpires s).pub.rowMarks = .fill 24 (some s.pub.builds) := by
  rw [recoveryExpires_restoring restoring]; rfl

end

/-- Settles O29: with the request given up, the end of the event chooses the next source; at the recovery time the state is LOST,
in which the end of the event makes no request. -/
theorem recoveryTimesExpire : Obligations.RecoveryTimesExpire := by
  intro s live role restoring
  refine ⟨fun q request runs => ?_, ?_⟩
  · have made := requestTimesOut_asks live role restoring request runs
    refine ⟨_, event_live live, (finish_rest ..).trans (rest_requestTimesOut role), ?_⟩
    cases source : s.chosenSource with
    | none => rw [source] at made; exact made
    | some n =>
      rw [source] at made
      obtain ⟨asked, -, -, order⟩ := made
      exact ⟨asked, order⟩
  · have lost := recoveryExpires_recovery restoring
    have off : (recoveryExpires s).recovery.state ≠ .restoring := by rw [lost]; nofun
    obtain ⟨recovery, order⟩ := sameRequest_finish_notRestoring (pre := s) ((recoveryExpires_isRole s _).trans role) off
      ((recoveryExpires_live s).trans live)
    refine ⟨_, event_live live, ?_⟩
    rw [recovery, order, lost, recoveryExpires_order restoring, finish_face, recoveryExpires_face, finish_rowMarks,
      recoveryExpires_rowMarks restoring]
    exact ⟨rfl, rfl, rfl, rfl, rfl, rfl, fun r => by rw [Tbl.get_fill]; rfl⟩

end Sys2Proof.Machine
end

section
/-! The STATE slot filled by the publication unit (R162 to R164): the stages before the early request leave the unit, and a frame
that waits answers every early request in its place. -/

namespace Sys2Proof.Machine

/-! ## The publication unit up to the early request -/

theorem scrubSync_pub (s : State) : (scrubSync s).pub = s.pub := by
  have demand (v : State) : (scrubDemand v).pub = v.pub := by unfold scrubDemand; dsimp only; split <;> rfl
  have follows (v : State) : (fanFollows v).pub = v.pub := by
    unfold fanFollows; dsimp only; repeat' split
    all_goals rfl
  have wash (v : State) : (autoWash v).pub = v.pub := by unfold autoWash; split <;> rfl
  unfold scrubSync; split
  · exact (wash _).trans ((follows _).trans (demand s))
  · rfl

theorem convSync_pub (s : State) : (convSync s).pub = s.pub := by
  have next (v : State) : (convNext v).pub = v.pub := by
    unfold convNext; repeat' split
    all_goals rfl
  have chain (v : State) : (convChain v).pub = v.pub := by unfold convChain; split <;> rfl
  have runOff (v : State) : (convRunOff v).pub = v.pub := by unfold convRunOff; split <;> rfl
  unfold convSync; split
  · exact (runOff _).trans ((chain _).trans (next _))
  · rfl

theorem vigSync_pub (s : State) : (vigSync s).pub = s.pub := by
  unfold vigSync vigDemand changeStanding; dsimp only; repeat' split
  all_goals rfl

theorem offerSync_pub (s : State) : (offerSync s).pub = s.pub := by
  unfold offerSync; repeat' split
  all_goals rfl

theorem NoticesOnly.pub {s t : State} (h : NoticesOnly s t) : t.pub = s.pub := by rw [h]

theorem noteBreachEntered_pub (s : State) : (noteBreachEntered s).pub = s.pub := by unfold noteBreachEntered; split <;> rfl

theorem applyReasons_pub (s : State) : (applyReasons s).pub = s.pub := by
  unfold applyReasons dwellSync movePermit
  repeat' split
  all_goals rfl

theorem permitSync_pub (s : State) : (permitSync s).pub = s.pub := by
  have released (v : State) : (releaseBreach v).pub = v.pub := by unfold releaseBreach; split <;> rfl
  unfold permitSync; split
  · exact (applyReasons_pub _).trans ((released _).trans ((noteBreachEntered_pub _).trans (noticesOnly_judgeBreach s).pub))
  · rfl

theorem requestSync_pub (s : State) : (requestSync s).pub = s.pub := by
  have dropped : (dropRequest s).pub = s.pub := by
    unfold dropRequest; repeat' split
    all_goals rfl
  unfold requestSync; dsimp only; repeat' split
  · exact dropped
  · exact dropped
  · rfl

theorem displaySync_pub (s : State) : (displaySync s).pub = s.pub := by unfold displaySync; split <;> rfl

theorem sync_pub (s : State) : (sync s).pub = s.pub := by
  have units : (unitSync s).pub = s.pub :=
    (offerSync_pub _).trans ((vigSync_pub _).trans ((convSync_pub _).trans (scrubSync_pub s)))
  calc (sync s).pub
      = (permitSync (judgeNotices (unitSync s))).pub := (displaySync_pub _).trans (requestSync_pub _)
    _ = (unitSync s).pub := (permitSync_pub _).trans (noticesOnly_judgeNotices _).pub
    _ = s.pub := units

theorem retrySync_pub (pre s : State) : (retrySync pre s).pub = s.pub := by
  have retried : (retryBreach s).pub = s.pub := by
    unfold retryBreach; split
    · exact (noteBreachEntered_pub _).trans (noticesOnly_raiseNotice _ s).pub
    · rfl
  unfold retrySync; split
  · exact (sync_pub _).trans retried
  · rfl

theorem fillOrderSlot_pub (s : State) : (fillOrderSlot s).pub = s.pub := by
  unfold fillOrderSlot; repeat' split
  all_goals rfl

theorem beginFrame_pub (s : State) : (beginFrame s).pub = s.pub := by
  unfold beginFrame; repeat' split
  all_goals rfl

theorem statusSync_pub (s : State) : (statusSync s).pub = s.pub := by unfold statusSync; split <;> rfl

/-- At the end of an event the publication unit is as the early request leaves it. -/
theorem finish_pub {pre s : State} (live : s.live = true) : (finish pre s).pub = (lineServed pre s).pub := by
  unfold finish settle lineServed
  rw [if_pos live, statusSync_pub, State.noteRestarted_pub, beginFrame_pub]

/-! ## A STATE frame that waits (R163) -/

/-- A STATE frame waits in its slot, and no early request beside it. -/
structure StatePlaced (s : State) : Prop where
  slot : s.line.stateSlot.isSome = true
  early : s.pub.early = false

theorem buildState_placed (s : State) : StatePlaced (buildState s) := ⟨rfl, rfl⟩

/-- A frame begun stays in its slot (R135). -/
theorem beginFrame_stateSlot (s : State) : (beginFrame s).line.stateSlot = s.line.stateSlot := by
  unfold beginFrame; repeat' split
  all_goals rfl

/-- An early request rebuilds the frame that waits, so none is left to be placed. -/
theorem earlySync_early {s : State} (pre : State) (placed : StatePlaced s) : (earlySync pre s).pub.early = false := by
  unfold earlySync requestEarly; dsimp only
  rw [if_pos placed.slot]
  split
  · rfl
  · exact placed.early

/-- The end of an event leaves the frame in its slot. -/
theorem finish_placed {pre s : State} (live : s.live = true) (placed : StatePlaced s) : StatePlaced (finish pre s) := by
  obtain ⟨-, -, slot⟩ := lineServed_line pre s
  refine ⟨?_, ?_⟩
  · rw [finish_line live, beginFrame_stateSlot]
    exact slot placed.slot
  · obtain ⟨more, order, served⟩ : LineServes s (fillOrderSlot (retrySync pre (sync s))) :=
      ((lineServes_sync s).trans (lineServes_retrySync pre _)).trans (lineServes_fillOrderSlot _)
    have pub : (fillOrderSlot (retrySync pre (sync s))).pub = s.pub :=
      (fillOrderSlot_pub _).trans ((retrySync_pub pre _).trans (sync_pub s))
    rw [finish_pub live, lineServed]
    generalize fillOrderSlot (retrySync pre (sync s)) = v at served pub
    exact earlySync_early pre ⟨by rw [served]; exact placed.slot, by rw [pub]; exact placed.early⟩

/-! ## The publication timer, and the early STATE -/

/-- The publication period begun, with the late count of a frame that still waits (R162, R164). -/
def State.periodBegun (s : State) : State :=
  { s with pub := { s.pub with
      timer := some (tenMs s.claim.r)
      late := if s.line.stateSlot.isSome then min 255 (s.pub.late + 1) else s.pub.late } }

theorem publicationExpires_runs {s : State} (runs : s.pub.timer.isSome = true) :
    publicationExpires s = buildState s.periodBegun := if_pos runs

theorem placeEarly_waits {s : State} (early : s.pub.early = true) (runs : s.pub.timer.isSome = true)
    (slot : s.line.stateSlot = none) : placeEarly s = buildState s := by
  simp [placeEarly, early, runs, slot]

theorem buildState_live (s : State) : (buildState s).live = s.live := live_of_rest (rest_buildState s)

/-- A frame built by an event waits in its slot when the event has ended, and all else is as before it was built. -/
theorem finish_buildState {pre s : State} (live : s.live = true) :
    StatePlaced (finish pre (buildState s)) ∧ (finish pre (buildState s)).rest = s.rest :=
  ⟨finish_placed ((buildState_live s).trans live) (buildState_placed s), (finish_rest ..).trans (rest_buildState s)⟩

/-- Settles O30: both commands build a frame into the slot, where the end of the event leaves it; what is built is no part of the
rest. -/
theorem publicationPlacesState : Obligations.PublicationPlacesState := by
  intro s live runs
  refine ⟨⟨_, event_live live, ?_⟩, fun early slot => ⟨_, event_live live, ?_⟩⟩
  · rw [publicationExpires_runs runs]
    obtain ⟨placed, rest⟩ := finish_buildState (pre := s) (s := s.periodBegun) live
    exact ⟨placed.slot, rest⟩
  · rw [placeEarly_waits early runs slot]
    obtain ⟨placed, rest⟩ := finish_buildState (pre := s) live
    exact ⟨placed.slot, placed.early, rest⟩

end Sys2Proof.Machine
end

section
/-! The sensor unit by its equations (R180 to R187): what a poll, a character in each position of the assembly, a failure and a
break make of it, and what a good answer leaves as it stands. -/

namespace Sys2Proof.Machine

/-! ## Polls that fail (R183, R184, R186) -/

/-- The unit once the poll of entry `e` has ended with a discard. -/
def SensorUnit.discards (u : SensorUnit) (e : Fin 16) : SensorUnit :=
  { u with polled := none, assembly := .hunt, quietWait := true, channels := u.channels.set e (countMiss (u.channels.get e)) }

/-- The unit once a break has ended the outstanding poll, if there is one. -/
def SensorUnit.pollEnded (u : SensorUnit) : SensorUnit :=
  match u.polled with
  | some e => u.discards e
  | none => u

section
variable {s : State} {e : Fin 16}

theorem failPoll_polled (polled : s.sensor.polled = some e) : failPoll s = { s with sensor := { s.sensor with
    polled := none, assembly := .hunt, channels := s.sensor.channels.set e (countMiss (s.sensor.channels.get e)) } } := by
  unfold failPoll; rw [polled]; rfl

theorem discardAnswer_polled (polled : s.sensor.polled = some e) :
    discardAnswer s = { s with sensor := s.sensor.discards e } := by
  unfold discardAnswer; rw [failPoll_polled polled]; rfl

theorem answerTimesOut_hunt (polled : s.sensor.polled = some e) (hunt : s.sensor.assembly = .hunt) :
    answerTimesOut s = { s with sensor := { s.sensor with
      polled := none, channels := s.sensor.channels.set e (countMiss (s.sensor.channels.get e)) } } := by
  unfold answerTimesOut
  rw [if_pos (by rw [polled, hunt]; rfl), failPoll_polled polled, ← hunt]

theorem gapLimitPasses_frame (polled : s.sensor.polled = some e) (frame : s.sensor.assembly ≠ .hunt) :
    gapLimitPasses s = { s with sensor := s.sensor.discards e } := by
  unfold gapLimitPasses; rw [if_neg (by simpa using frame), discardAnswer_polled polled]

/-! ## Polls (R182) -/

theorem becomeDue_runs (polls : s.polledEntry e = true) (runs : (s.sensor.channels.get e).next.isSome = true) :
    becomeDue e s = { s with sensor := { s.sensor with
      channels := s.sensor.channels.set e { s.sensor.channels.get e with due := true, next := none } } } := by
  unfold becomeDue; rw [polls, runs]; rfl

theorem sendPoll_may (may : s.mayPoll = true) (next : s.nextPoll = some e) : sendPoll s = { s with sensor := { s.sensor with
    polled := some e, assembly := .hunt
    channels := s.sensor.channels.set e { s.sensor.channels.get e with
      due := false, next := some (tenMs (s.cfg.channels.get e).interval) } } } := by
  unfold sendPoll; rw [next]; exact if_pos may

/-! ## A valid character by the position of the assembly (R184) -/

section
variable (b : Byte)

theorem assemble_noPoll (idle : s.sensor.polled = none) : assemble b s = s := by
  unfold assemble; rw [idle]; cases s.sensor.assembly <;> rfl

variable (polled : s.sensor.polled = some e)
include polled

theorem assemble_hunt (hunt : s.sensor.assembly = .hunt) :
    assemble b s = { s with sensor := if b = 0xA5 then { s.sensor with assembly := .channel } else s.sensor } := by
  unfold assemble; rw [hunt, polled]; dsimp only; split <;> rfl

theorem assemble_channel (position : s.sensor.assembly = .channel) :
    assemble b s = { s with sensor :=
      if b = (s.cfg.channels.get e).address then { s.sensor with assembly := .high } else s.sensor.discards e } := by
  unfold assemble; rw [position, polled]; dsimp only; split
  · rfl
  · exact discardAnswer_polled polled

theorem assemble_high (position : s.sensor.assembly = .high) :
    assemble b s = { s with sensor := { s.sensor with assembly := .low b } } := by
  unfold assemble; rw [position, polled]; rfl

theorem assemble_low {high : Byte} (position : s.sensor.assembly = .low high) :
    assemble b s = { s with sensor := { s.sensor with assembly := .check high b } } := by
  unfold assemble; rw [position, polled]; rfl

theorem assemble_check {high low : Byte} (position : s.sensor.assembly = .check high low) :
    assemble b s = if b = sensorCheck (s.cfg.channels.get e).address high low then goodAnswer e (high ++ low) s
      else { s with sensor := s.sensor.discards e } := by
  unfold assemble; rw [position, polled]; dsimp only; rw [discardAnswer_polled polled]; rfl

end

/-! ## A character taken (R180, R181) -/

/-- The state with its break ended. -/
def State.heard (s : State) : State := { s with sensor := { s.sensor with broken := false } }

section
variable {b : Byte} {parity stop : Bool}

theorem takeCharacter_valid (valid : characterValid s.cfg.parity b parity stop = true) :
    takeCharacter b parity stop s = assemble b s.heard := if_pos valid

theorem takeCharacter_marked (marked : characterValid s.cfg.parity b parity stop = false) :
    takeCharacter b parity stop s = if s.sensor.assembly == .hunt then s else discardAnswer s := by
  unfold takeCharacter; rw [marked]; rfl

/-- A character that its frame awaits moves the assembly on and leaves the poll outstanding. -/
theorem takeCharacter_goesOn (valid : characterValid s.cfg.parity b parity stop = true) (polled : s.sensor.polled = some e)
    (awaited : s.sensor.assembly = .channel ∧ b = (s.cfg.channels.get e).address ∨ s.sensor.assembly = .high ∨
      ∃ high, s.sensor.assembly = .low high) :
    ∃ a, takeCharacter b parity stop s = { s with sensor := { s.heard.sensor with assembly := a } } ∧
      s.sensor.assembly ≠ .hunt ∧ a ≠ .hunt ∧ s.sensor.assembly ≠ a := by
  rw [takeCharacter_valid valid]
  rcases awaited with ⟨position, address⟩ | position | ⟨high, position⟩
  · refine ⟨.high, ?_, by simp [position]⟩
    rw [assemble_channel (s := s.heard) b polled position, if_pos (by exact address)]; rfl
  · exact ⟨_, assemble_high (s := s.heard) b polled position, by simp [position]⟩
  · exact ⟨_, assemble_low (s := s.heard) b polled position, by simp [position]⟩

end

/-! ## A break (R181) -/

theorem takeBreak_broken (polled : s.sensor.polled = some e) (broken : s.sensor.broken = true) :
    takeBreak s = { s with sensor := s.sensor.discards e } := by
  unfold takeBreak; dsimp only
  rw [if_pos broken, if_pos (by rw [polled]; rfl), discardAnswer_polled polled]

theorem takeBreak_whole (whole : s.sensor.broken = false) : takeBreak s = { s with sensor := { s.sensor.pollEnded with
    broken := true
    channels := s.sensor.pollEnded.channels.mapIdx fun k c => if s.polledEntry (Fin.ofNat 16 k) then breakChannel c else c } } := by
  unfold takeBreak SensorUnit.pollEnded; dsimp only
  cases polled : s.sensor.polled with
  | none => rw [whole]; rfl
  | some e => rw [whole, discardAnswer_polled polled]; rfl

theorem pollEnded_polled {u : SensorUnit} (polled : u.polled ≠ none) :
    u.pollEnded.polled = none ∧ u.pollEnded.assembly = .hunt ∧ u.pollEnded.quietWait = true := by
  obtain ⟨e, polled⟩ := Option.ne_none_iff_exists'.1 polled
  rw [SensorUnit.pollEnded, polled]; exact ⟨rfl, rfl, rfl⟩

theorem pollEnded_value (u : SensorUnit) (e : Fin 16) : (u.pollEnded.channels.get e).value = (u.channels.get e).value := by
  unfold SensorUnit.pollEnded SensorUnit.discards
  cases u.polled with
  | none => rfl
  | some k =>
    dsimp only; rw [Tbl.get_set]
    split
    · rename_i same; rw [same]; rfl
    · rfl

/-! ## A value that becomes stale (R187) -/

theorem becomeStale_fresh (value : (s.sensor.channels.get e).value.isSome = true)
    (fresh : (s.sensor.channels.get e).stale = false) : becomeStale e s = { s with sensor := { s.sensor with
      channels := s.sensor.channels.set e { s.sensor.channels.get e with
        stale := true, age := max (s.sensor.channels.get e).age (s.staleAge e) } } } := by
  unfold becomeStale; dsimp only; rw [value, fresh]; rfl

theorem timeLeft_valueStale (value : (s.sensor.channels.get e).value.isSome = true)
    (fresh : (s.sensor.channels.get e).stale = false) :
    s.timeLeft (.valueStale e) = some (s.staleAge e - (s.sensor.channels.get e).age) := by
  unfold State.timeLeft; dsimp only; rw [value, fresh]; rfl

end

/-! ## What a good answer leaves (R187)

A value handed on goes to the unit that reads it: the sensor unit stays, with its age limits, and the station live. -/

/-- What the age of a value and its limit are read from, and that the station is live. -/
structure SameSensing (s t : State) : Prop where
  sensor : t.sensor = s.sensor
  staleAge : t.staleAge = s.staleAge
  live : t.live = s.live

theorem SameSensing.refl (s : State) : SameSensing s s := ⟨rfl, rfl, rfl⟩

theorem staleAge_of_rest {s t : State} (rest : t.rest = s.rest) : t.staleAge = s.staleAge := by
  funext e; unfold State.staleAge State.cfg; rw [image_of_rest rest, station_of_rest rest]

theorem SameSensing.of_rest {s v t : State} (h : SameSensing s v) (rest : t.rest = v.rest) : SameSensing s t :=
  ⟨(sensor_of_rest rest).trans h.sensor, (staleAge_of_rest rest).trans h.staleAge, (live_of_rest rest).trans h.live⟩

theorem sameSensing_deliverPose {s : State} (role : s.isRole .cutter = true) (isX : Bool) (v : Word16) :
    SameSensing s (deliverPose isX v s) := by
  unfold deliverPose poseEvent; extract_lets _ posed head moved
  have same : SameSensing s moved := ⟨rfl, rfl, rfl⟩
  split
  · exact same.of_rest (rest_latchBreach role)
  · exact same.of_rest (rest_retryBreach moved)

theorem sameSensing_handOn (e : Fin 16) (v : Word16) (s : State) : SameSensing s (handOn e v s) := by
  unfold handOn; dsimp only; split
  · exact .refl s
  · split
    · rename_i role _; exact sameSensing_deliverPose (by simp [State.isRole, role]) true v
    · rename_i role _; exact sameSensing_deliverPose (by simp [State.isRole, role]) false v
    all_goals exact ⟨rfl, rfl, rfl⟩

/-- The ready flag is no part of the channel table. -/
theorem readySync_channels (s : State) : (readySync s).sensor.channels = s.sensor.channels ∧
    (readySync s).staleAge = s.staleAge ∧ (readySync s).live = s.live := by
  unfold readySync; split <;> exact ⟨rfl, rfl, rfl⟩

theorem goodAnswer_channels (e : Fin 16) (v : Word16) (s : State) :
    (goodAnswer e v s).sensor.channels = s.sensor.channels.set e (goodChannel v (s.sensor.channels.get e)) ∧
      (goodAnswer e v s).staleAge = s.staleAge ∧ (goodAnswer e v s).live = s.live := by
  unfold goodAnswer; extract_lets entered
  obtain ⟨channels, limits, live⟩ := readySync_channels entered
  have same := sameSensing_handOn e v (readySync entered)
  exact ⟨(congrArg _ same.sensor).trans channels, same.staleAge.trans limits, same.live.trans live⟩

end Sys2Proof.Machine
end

section
/-! The events of the sensor line: polls, characters, failures, breaks and stale values, with what follows each (R180 to R187). -/

namespace Sys2Proof.Machine

/-! ## An event that writes the sensor unit -/

section
variable {s : State} {f : State → State} {u : SensorUnit} (live : s.live = true)
include live

theorem event_sensor (acts : f s = { s with sensor := u }) :
    ∃ t, event f s = .next t ∧ t.rest = State.rest { s with sensor := u } :=
  ⟨_, event_live live, by rw [finish_rest, acts]⟩

theorem sensorCharacter_valid {b : Byte} {parity stop : Bool} (valid : characterValid s.cfg.parity b parity stop = true)
    (acts : assemble b s.heard = { s with sensor := u }) :
    ∃ t, exec (.sensorCharacter b parity stop) s = .next t ∧ t.rest = State.rest { s with sensor := u } :=
  event_sensor live ((takeCharacter_valid valid).trans acts)

/-! ## Two things at one moment (R184, R187) -/

/-- A character of the frame taken first takes the gap limit of that moment away. -/
theorem goesOn_then_gapLimit {b : Byte} {parity stop : Bool} {e : Fin 16}
    (valid : characterValid s.cfg.parity b parity stop = true) (polled : s.sensor.polled = some e)
    (awaited : s.sensor.assembly = .channel ∧ b = (s.cfg.channels.get e).address ∨ s.sensor.assembly = .high ∨
      ∃ high, s.sensor.assembly = .low high) :
    ∃ t v, exec (.sensorCharacter b parity stop) s = .next t ∧ exec .gapLimitExpiry t = .next v ∧ v.rest = t.rest ∧
      v.sensor.polled = some e ∧ v.sensor.assembly ≠ .hunt := by
  obtain ⟨a, acts, was, is, moved⟩ := takeCharacter_goesOn valid polled awaited
  have takes : exec (.sensorCharacter b parity stop) s = .next (finish s (takeCharacter b parity stop s)) := event_live live
  rw [acts] at takes
  generalize next : ({ s with sensor := { s.heard.sensor with assembly := a } } : State) = w at takes
  have sensor : w.sensor = { s.heard.sensor with assembly := a } := by rw [← next]
  have liveNext : w.live = true := by rw [← next]; exact live
  have goesOn : frameGoesOn s w = true := by simp [frameGoesOn, sensor, was, is, moved]
  obtain ⟨v, expires, rest⟩ := event_unlessRestarted_idle (act := gapLimitPasses) ((finish_live s w).trans liveNext)
    (finish_goesOn liveNext goesOn)
  have kept : v.sensor = { s.heard.sensor with assembly := a } := by rw [sensor_of_rest rest, finish_sensor, sensor]
  exact ⟨_, v, takes, expires, rest, by rw [kept]; exact polled, by rw [kept]; exact is⟩

/-- A good answer taken first takes the staleness of that moment away, and its value is held. -/
theorem goodAnswer_then_stale {high low b : Byte} {parity : Bool} {e : Fin 16} (polled : s.sensor.polled = some e)
    (check : s.sensor.assembly = .check high low) (valid : characterValid s.cfg.parity b parity true = true)
    (good : b = sensorCheck (s.cfg.channels.get e).address high low)
    (value : (s.sensor.channels.get e).value.isSome = true) (fresh : (s.sensor.channels.get e).stale = false)
    (aged : 0 < (s.sensor.channels.get e).age) (limit : 0 < s.staleAge e) :
    ∃ t v, exec (.sensorCharacter b parity true) s = .next t ∧ exec (.valueStale e) t = .next v ∧ v.rest = t.rest ∧
      (v.sensor.channels.get e).stale = false ∧ (v.sensor.channels.get e).value = some (high ++ low) := by
  have acts : takeCharacter b parity true s = goodAnswer e (high ++ low) s.heard := by
    rw [takeCharacter_valid valid, assemble_check (s := s.heard) b polled check]; exact if_pos good
  have takes : exec (.sensorCharacter b parity true) s = .next (finish s (takeCharacter b parity true s)) := event_live live
  rw [acts] at takes
  obtain ⟨channels, limits, liveNext⟩ := goodAnswer_channels e (high ++ low) s.heard
  generalize goodAnswer e (high ++ low) s.heard = w at *
  have entry : w.sensor.channels.get e = goodChannel (high ++ low) (s.sensor.channels.get e) := by
    rw [channels, Tbl.get_set_self]; rfl
  have left : w.timeLeft (.valueStale e) = some (s.staleAge e) := by
    rw [timeLeft_valueStale (by rw [entry]; rfl) (by rw [entry]; rfl), entry, limits]; rfl
  have noted := finish_restarted (liveNext.trans live) (mem_restartable _ (.inr (.inr (.inr ⟨e, rfl⟩))))
    (timeLeft_valueStale value fresh) left (Nat.sub_lt limit aged)
  obtain ⟨v, expires, rest⟩ := event_unlessRestarted_idle (act := becomeStale e)
    ((finish_live s w).trans (liveNext.trans live)) noted
  have kept : v.sensor.channels.get e = goodChannel (high ++ low) (s.sensor.channels.get e) := by
    rw [sensor_of_rest rest, finish_sensor, entry]
  exact ⟨_, v, takes, expires, rest, by rw [kept]; rfl, by rw [kept]; rfl⟩

/-! ## A break and a stale value (R181, R187) -/

/-- A break on a line that was not BROKEN forces every polled entry to FAULT, its value kept, and ends the poll. -/
theorem sensorBreak_whole {e : Fin 16} (whole : s.sensor.broken = false) (polls : s.polledEntry e = true) :
    ∃ t, exec .sensorBreak s = .next t ∧ t.sensor.broken = true ∧
      (t.sensor.channels.get e).state = .fault ∧ (t.sensor.channels.get e).miss = 3 ∧
      (t.sensor.channels.get e).value = (s.sensor.channels.get e).value ∧ (s.sensor.polled ≠ none → t.sensor.polled = none ∧
        t.sensor.assembly = .hunt ∧ t.sensor.quietWait = true) ∧ t.inputs = s.inputs ∧ t.face = s.face := by
  refine ⟨_, event_live live, ?_⟩
  rw [finish_sensor, finish_inputs, finish_face, takeBreak_whole whole]
  have self : Fin.ofNat 16 e.val = e := Fin.ofNat_val_eq_self e
  have entry := Tbl.get_mapIdx (fun k c => if s.polledEntry (Fin.ofNat 16 k) then breakChannel c else c)
    s.sensor.pollEnded.channels e
  rw [self, if_pos polls] at entry
  dsimp only
  rw [entry]
  exact ⟨rfl, rfl, rfl, pollEnded_value s.sensor e, pollEnded_polled, rfl, rfl⟩

theorem valueStale_fresh {e : Fin 16} (value : (s.sensor.channels.get e).value.isSome = true)
    (fresh : (s.sensor.channels.get e).stale = false) (other : .valueStale e ∉ s.restarted) :
    ∃ t, exec (.valueStale e) s = .next t ∧ (t.sensor.channels.get e).stale = true ∧
      (t.sensor.channels.get e).held = false ∧ (t.sensor.channels.get e).value = (s.sensor.channels.get e).value ∧
      t.inputs = s.inputs ∧ t.face = s.face := by
  refine ⟨_, event_unlessRestarted_acts live other, ?_⟩
  rw [finish_sensor, finish_inputs, finish_face, becomeStale_fresh value fresh]
  dsimp only
  rw [Tbl.get_set_self]
  exact ⟨rfl, Bool.and_false _, rfl, rfl, rfl⟩

end

/-- Settles O60: every event but a good answer writes the sensor unit alone, by the equation of its position or failure; the gap
limit and the staleness of the same moment are taken away by the character or the answer taken first. -/
theorem sensorPollsAndFailures : Obligations.SensorPollsAndFailures := by
  intro s e live
  refine ⟨fun b parity stop valid => ?_, fun b parity stop marked => ⟨fun hunt => ?_, fun polled frame => ?_⟩,
    fun polls runs => event_sensor live (becomeDue_runs polls runs),
    fun may next => event_sensor live (sendPoll_may may next),
    event_sensor (f := fun s => s.withSensor fun u => { u with quietWait := false }) live rfl,
    fun polled hunt => event_sensor live (answerTimesOut_hunt polled hunt),
    fun b parity stop => goesOn_then_gapLimit live,
    fun polled frame other => event_sensor live ((unlessRestarted_act other).trans (gapLimitPasses_frame polled frame)),
    fun polled broken => event_sensor live (takeBreak_broken polled broken),
    sensorBreak_whole live,
    fun high low b parity => goodAnswer_then_stale live,
    valueStale_fresh live⟩
  · intro heard discarded address
    exact ⟨fun idle _ => sensorCharacter_valid live valid (assemble_noPoll (s := s.heard) b idle),
      fun polled hunt => sensorCharacter_valid live valid (assemble_hunt (s := s.heard) b polled hunt),
      fun polled position => sensorCharacter_valid live valid (assemble_channel (s := s.heard) b polled position),
      fun polled position => sensorCharacter_valid live valid (assemble_high (s := s.heard) b polled position),
      fun high polled position => sensorCharacter_valid live valid (assemble_low (s := s.heard) b polled position),
      fun high low polled position bad => sensorCharacter_valid live valid
        ((assemble_check (s := s.heard) b polled position).trans (if_neg bad))⟩
  · exact event_sensor live ((takeCharacter_marked marked).trans (if_pos (by rw [hunt]; rfl)))
  · exact event_sensor live (((takeCharacter_marked marked).trans (if_neg (by simpa using frame))).trans
      (discardAnswer_polled polled))

end Sys2Proof.Machine
end

section
/-! The STATUS code through every command, every tick and every step, and the pattern that shows it (R195). -/

namespace Sys2Proof.Machine

/-- The code shown and the code due read the STATUS output and the line unit alone. -/
theorem State.StatusSound.of_same {s t : State} (sound : s.StatusSound) (code : t.status.code = s.status.code)
    (line : t.line = s.line) : t.StatusSound := by
  simp only [State.StatusSound, State.statusCode, code, line]
  exact sound

/-! ## The pattern -/

/-- A step of the pattern keeps the code and moves on by the phase: pulse, gap, next pulse or pause. -/
theorem statusStep_pattern (o : StatusOut) :
    (statusStep o).code = o.code ∧
    match o.phase with
    | .pause => (statusStep o).phase = .on 1 ∧ (statusStep o).timer = some (ms 200)
    | .on k => (statusStep o).phase = .off k ∧ (statusStep o).timer = some (ms 200)
    | .off k =>
      if k < o.code then (statusStep o).phase = .on (k + 1) ∧ (statusStep o).timer = some (ms 200)
      else (statusStep o).phase = .pause ∧ (statusStep o).timer = some (sec 1) := by
  obtain ⟨code, phase, timer⟩ := o
  cases phase with
  | pause => exact ⟨rfl, rfl, rfl⟩
  | on k => exact ⟨rfl, rfl, rfl⟩
  | off k =>
    simp only [statusStep]
    split
    · exact ⟨rfl, rfl, rfl⟩
    · exact ⟨rfl, rfl, rfl⟩

/-- Settles O19: the command takes one step of the pattern and touches nothing else. -/
theorem statusPatternSteps : Obligations.StatusPatternSteps :=
  fun s => ⟨{ s with status := statusStep s.status }, rfl, rfl, statusStep_pattern s.status⟩

/-! ## Commands -/

theorem event_statusSound {f : State → State} {s t : State} (sound : s.StatusSound) (h : event f s = .next t) :
    t.StatusSound := by
  cases Host.Outcome.next.inj h; split
  · exact finish_statusSound s (f s)
  · exact sound

/-- Power-on shows START with its code. -/
theorem restart_statusSound (straps : BitVec 3) (s : State) : (restart straps s).StatusSound := rfl

theorem startFails_statusSound (s : State) : (startFails s).StatusSound := statusSync_statusSound _

theorem completeRead_statusSound (bytes : List Byte) {s : State} (sound : s.StatusSound) :
    (completeRead bytes s).StatusSound := by
  unfold completeRead; repeat' split
  · exact finish_statusSound _ _
  · exact startFails_statusSound s
  · exact sound

/-- Of the commands only start-up, RESET and the pattern do not end in `event`. -/
theorem exec_statusSound (c : Instr) {s t : State} (sound : s.StatusSound) (h : exec c s = .next t) : t.StatusSound := by
  cases c with
  | powerOn straps => cases Host.Outcome.next.inj h; exact restart_statusSound straps s
  | resetAssert => cases Host.Outcome.next.inj h; exact restart_statusSound s.straps s
  | imageReadStart =>
    cases Host.Outcome.next.inj h
    unfold startRead; split <;> exact sound
  | imageReadComplete bytes => cases Host.Outcome.next.inj h; exact completeRead_statusSound bytes sound
  | statusPatternStep =>
    cases Host.Outcome.next.inj h
    exact sound.of_same (statusStep_pattern s.status).1 rfl
  | quietWaitEnd => exact event_statusSound (f := fun s => s.withSensor fun u => { u with quietWait := false }) sound h
  | _ => exact event_statusSound sound h

/-! ## Every tick, and every step -/

theorem liveTick_status (s : State) : (liveTick s).status = s.status := by
  obtain ⟨inputs, pins, debounced, -⟩ := debounceTick_eq s
  unfold liveTick; rw [debounced]; dsimp only; split <;> rfl

theorem liveTick_line (s : State) : (liveTick s).line = s.line := by
  obtain ⟨-, -, -, -, -, -, line, -⟩ := liveTick_display s
  exact line

/-- A tick runs the pattern's timer; code and line state stay. -/
theorem passTick_statusSound {s : State} (sound : s.StatusSound) : (passTick s).StatusSound := by
  have part : (partTick s).StatusSound := sound.of_same rfl rfl
  unfold passTick; split
  · exact part.of_same (by rw [liveTick_status]) (liveTick_line _)
  · unfold restTick; split <;> exact part

/-- Settles O7: the end of an event makes the code follow the line state; a command outside `event` and a tick keep both or set
them together. -/
theorem statusSoundKept : Obligations.StatusSoundKept := by
  intro s t sound h
  unfold step at h; split at h
  · rename_i c queue _
    have popped : ({ s with pending := queue } : State).StatusSound := sound
    exact exec_statusSound c popped h
  · unfold idle at h; split at h
    · exact exec_statusSound _ sound h
    · cases Host.Outcome.next.inj h; exact passTick_statusSound sound

end Sys2Proof.Machine
end

section
/-! The image read: what the part samples on MISO, how the read begins, and how it fails (R192 to R195, R201). -/

namespace Sys2Proof.Machine

/-! ## The bytes sampled (R201) -/

/-- The cycles of SCK as the wave with MISO read through its pull-up. -/
theorem misoWave_cycles (cycles : List (Option Bool × Option Bool)) :
    (cycles.flatMap fun c => [(false, c.1), (true, c.2)]).map (fun x => (x.1, misoReads x.2)) =
      (cycles.map fun c => (misoReads c.1, misoReads c.2)).flatMap fun c => [(false, c.1), (true, c.2)] := by
  simp [List.map_flatMap, List.flatMap_map]

/-- The image's bytes are those sampled at the rising edges after as many bytes as the read command has. -/
theorem imageRead_cycles {cycles : List (Option Bool × Option Bool)} {sent bytes : List Byte} (four : sent.length = 4)
    (sampled : cycles.map (fun c => misoReads c.2) = bytesFromTop (sent ++ bytes)) :
    imageRead (cycles.flatMap fun c => [(false, c.1), (true, c.2)]) = .imageReadComplete bytes := by
  have edges : (cycles.map fun c => (misoReads c.1, misoReads c.2)).map (·.2) = bytesFromTop (sent ++ bytes) := by
    rw [← sampled, List.map_map]; rfl
  have behind : (sent ++ bytes).drop readCommand.length = bytes := List.drop_left' four
  rw [imageRead, misoWave_cycles, sampledBytes, sampledFrom_cycles, edges, bytesOfBits_bytesFromTop, behind]

/-! ## The read begins, and fails -/

theorem startRead_waiting {s : State} {n : Ticks} (start : s.line.state = .start) (released : s.resetHeld = false)
    (waiting : s.spi = .waiting n) : startRead s = { s with spi := .reading } := by
  simp [startRead, State.starting, Spi.isWaiting, start, released, waiting]

theorem completeRead_rejects {s : State} {bytes : List Byte} (start : s.line.state = .start) (released : s.resetHeld = false)
    (reading : s.spi = .reading) (rejected : readImage s.station bytes = none) : completeRead bytes s = startFails s := by
  simp [completeRead, State.starting, start, released, reading, rejected]

/-- The STATUS output follows the line state, and nothing else moves with it. -/
theorem statusSync_eq (s : State) : statusSync s = { s with status := (statusSync s).status } := by
  unfold statusSync; split <;> rfl

/-- A failed START leaves every item at its power-on value but the line state with its cause and the STATUS output (R194). -/
theorem startFails_eq (s : State) : startFails s = { restart s.straps s with
    spi := .idle, line := { LineUnit.reset with state := .inactive, cause := some .config }
    status := (startFails s).status } := statusSync_eq _

theorem startFails_statusCode (s : State) : (startFails s).statusCode = 6 := by rw [startFails_eq]; rfl

theorem startFails_pins (s : State) (k : Fin 4) :
    (startFails s).pins.get k = { high := (s.pins.get k).high, left := none } := by
  rw [startFails_eq]; exact restart_pins s.straps s k

/-- Settles O17: the wave is read by its rising edges; in START, the wait's end begins the read and a rejected image fails START. -/
theorem imageReadRunsAndFails : Obligations.ImageReadRunsAndFails := by
  refine ⟨⟨rfl, fun _ => rfl⟩, fun _ _ _ => imageRead_cycles, fun s bytes start released => ⟨?_, fun reading rejected => ?_⟩⟩
  · rintro ⟨n, waiting⟩
    exact congrArg Host.Outcome.next (startRead_waiting start released waiting)
  · refine ⟨startFails s, congrArg Host.Outcome.next (completeRead_rejects start released reading rejected),
      startFails_statusCode s, startFails_pins s, ?_⟩
    have pins : (startFails s).pins = (restart s.straps s).pins := by rw [startFails_eq]
    rw [pins]
    exact startFails_eq s

end Sys2Proof.Machine
end

section
/-! The step: the front command, the due expiry, or one tick (log entry 1). -/

namespace Sys2Proof.Machine

/-- Settles O1: the queue's front leaves it and is executed. -/
theorem stepTakesFront : Obligations.StepTakesFront := fun _ _ _ => rfl

/-- With no command waiting, a step is what the part does of itself. -/
theorem step_idle {s : State} (empty : s.pending = []) : step s = idle s := by
  unfold step; rw [empty]

/-- Settles O3: on an empty queue the step is `idle`, which asks what is due. -/
theorem idleTakesDueOrTick : Obligations.IdleTakesDueOrTick := fun _ empty => (step_idle empty).trans rfl

end Sys2Proof.Machine
end

section
/-! The 16-bit check (R198): its sum by shifts, and what it covers on the machine line, on the panel link and in the image. -/

namespace Sys2Proof.Machine

/-! ## The sum -/

/-- One shift of the check register, by the bit shifted out. -/
def checkShift (r : Word16) : Word16 := if r.msb then (r <<< 1) ^^^ 0x1021 else r <<< 1

/-- The check register after one byte. -/
def checkByte (r : Word16) (b : Byte) : Word16 := checkShift^[8] (r ^^^ (b.setWidth 16 <<< 8))

theorem evalFirst_eq {α : Type} (n : Nat) (f : Nat → α) : evalFirst n f = f n := by cases n <;> rfl

theorem crcBit_toNat (r : Word16) : crcBit r.toNat = (checkShift r).toNat := by
  have small := r.isLt
  unfold crcBit checkShift
  rw [BitVec.msb_eq_decide]
  by_cases top : 32768 ≤ r.toNat
  · simp [top, Nat.shiftLeft_eq, Nat.mul_comm]
  · simp [top, Nat.shiftLeft_eq]; omega

theorem crcBits_toNat (k : Nat) (r : Word16) : crcBits k r.toNat = (checkShift^[k] r).toNat := by
  induction k generalizing r with
  | zero => rfl
  | succ k ih => rw [crcBits, evalFirst_eq, crcBit_toNat, ih, Function.iterate_succ_apply]

theorem xor_byte_toNat (r : Word16) (b : Byte) : r.toNat ^^^ (b.toNat * 256) = (r ^^^ (b.setWidth 16 <<< 8)).toNat := by
  have small := b.isLt
  have shifted : (b.setWidth 16 <<< 8).toNat = b.toNat * 256 := by
    simp [Nat.shiftLeft_eq]; omega
  rw [BitVec.toNat_xor, shifted]

theorem crcFrom_toNat (bytes : List Byte) (r : Word16) : crcFrom bytes r.toNat = (bytes.foldl checkByte r).toNat := by
  induction bytes generalizing r with
  | nil => rfl
  | cons b bytes ih => rw [crcFrom, evalFirst_eq, xor_byte_toNat, crcBits_toNat, ih]; rfl

theorem crc16_eq_foldl (bytes : List Byte) : crc16 bytes = bytes.foldl checkByte 0xFFFF := by
  rw [crc16, show (0xFFFF : Nat) = (0xFFFF : Word16).toNat from rfl, crcFrom_toNat, BitVec.ofNat_toNat, BitVec.setWidth_eq]

/-- The sum in the words of R198: per byte, eight shifts. -/
theorem crc16_byShifts (bytes : List Byte) : crc16 bytes = bytes.foldl (fun (r : BitVec 16) (b : Byte) =>
    (List.range 8).foldl (fun (r : BitVec 16) _ => if r.msb then (r <<< 1) ^^^ 0x1021 else r <<< 1)
      (r ^^^ (b.setWidth 16 <<< 8))) 0xFFFF := by
  rw [crc16_eq_foldl]; rfl

/-! ## What it covers -/

/-- A frame's check covers header, length and payload, 2 plus the length characters. -/
theorem outFrame_covered (n : Station) (f : OutFrame) :
    ∃ covered, f.bytes n = covered ++ be16 (crc16 covered) ∧ covered.length = 2 + f.payload.length :=
  ⟨_, rfl, Nat.add_comm f.payload.length 2⟩

/-- The check of a sound image is that of its 786 bytes from the lead word on. -/
theorem imageSound_check {b : List Byte} (sound : imageSound b = true) :
    (b.drop 786).take 2 = be16 (crc16 (b.take 786)) := by
  simp only [imageSound, Bool.and_eq_true, beq_iff_eq] at sound
  obtain ⟨_, check⟩ := sound
  exact check

/-- Characters that pass from position `read.length` on end their frame in the check of the 2 plus the length first ones. -/
theorem checkBody_covered {cls : FrameClass} {len : Nat} (chars : List LineChar) (read : List Byte)
    (early : read.length ≤ 3 + len) (passes : checkBody cls len chars read.length read = none) :
    ∃ covered after, covered.length = 2 + len ∧
      read ++ chars.map (·.data) = covered ++ be16 (crc16 covered) ++ after := by
  induction chars generalizing read with
  | nil => cases passes
  | cons c chars ih =>
    unfold checkBody at passes
    split at passes
    · cases passes
    · split at passes
      · rename_i last
        dsimp only at passes
        split at passes
        · rename_i check
          refine ⟨(read ++ [c.data]).take (2 + len), chars.map (·.data), ?_, ?_⟩
          · rw [List.length_take, List.length_append, last]; simp; omega
          · rw [check, List.take_append_drop]; simp
        · cases passes
      · rename_i more
        have length : (read ++ [c.data]).length = read.length + 1 := by simp
        rw [← length] at passes
        obtain ⟨covered, after, sized, whole⟩ := ih (read ++ [c.data]) (by omega) passes
        exact ⟨covered, after, sized, by rw [← whole]; simp⟩

/-- A frame that passes every check of R136 carries the check of its first 2 plus the length characters. -/
theorem checkFrame_covered {chars : List LineChar} (passes : checkFrame chars = none) :
    ∃ length covered after, chars[1]? = some length ∧ covered.length = 2 + length.data.toNat ∧
      chars.map (·.data) = covered ++ be16 (crc16 covered) ++ after := by
  unfold checkFrame at passes
  repeat' split at passes
  any_goals cases passes
  rename_i c0 _ _ _ _ _ _ c1 left _ _
  obtain ⟨covered, after, sized, whole⟩ := checkBody_covered left [c0.data, c1.data] (by simp; omega) passes
  exact ⟨c1, covered, after, rfl, sized, whole⟩

/-- A key report that passes: the bytes passed over, lead byte, length, codes, and the check of length and codes (R126). -/
theorem readKeyReport_covered {bytes codes : List Byte} (passes : readKeyReport bytes = some codes) :
    ∃ before after, bytes = before ++ [0xA6, BitVec.ofNat 8 codes.length] ++ codes
      ++ be16 (crc16 (BitVec.ofNat 8 codes.length :: codes)) ++ after := by
  unfold readKeyReport at passes
  split at passes
  · rename_i lead n rest found
    split at passes
    · rename_i fits
      obtain ⟨few, long, check⟩ := fits
      have whole := List.takeWhile_append_dropWhile (p := fun b => b != 0xA6) (l := bytes)
      have leads : lead = 0xA6 := by
        have := List.head?_dropWhile_not (fun b : Byte => b != 0xA6) bytes
        rw [found] at this
        simpa using this
      have taken : rest.take n.toNat = codes := Option.some.inj passes
      have count : codes.length = n.toNat := by rw [← taken, List.length_take]; omega
      have length : BitVec.ofNat 8 codes.length = n := by rw [count, BitVec.ofNat_toNat, BitVec.setWidth_eq]
      refine ⟨bytes.takeWhile fun b => b != 0xA6, (rest.drop n.toNat).drop 2, ?_⟩
      have split : rest = codes ++ (be16 (crc16 (n :: codes)) ++ (rest.drop n.toNat).drop 2) := by
        rw [← taken, ← check, List.take_append_drop, List.take_append_drop]
      calc bytes = _ ++ lead :: n :: rest := by rw [← found, whole]
        _ = _ := by rw [length, leads]; conv_lhs => rw [split]
                    simp
    · cases passes
  · cases passes

/-- Settles O14: the model's register on numbers is the one of R198 on words, and each layout ends in the check of what it covers. -/
theorem checkIsTheStatedSum : Obligations.CheckIsTheStatedSum :=
  ⟨crc16_byShifts, Tests.test_check_of_the_nine_characters, outFrame_covered, fun _ => ⟨_, rfl⟩, fun _ => imageSound_check,
    fun _ => checkFrame_covered, fun _ _ => readKeyReport_covered⟩

end Sys2Proof.Machine
end

section
/-! A sensor answer at its check (R184, R199): good where the check character is the stated value, else discarded. -/

namespace Sys2Proof.Machine

theorem readySync_sensor (s : State) : ∃ ready, (readySync s).sensor = { s.sensor with ready := ready } := by
  unfold readySync; split
  · exact ⟨true, rfl⟩
  · exact ⟨s.sensor.ready, rfl⟩

/-- What a good answer leaves in the sensor unit: its value entered, the poll ended; the ready flag may be set. -/
theorem goodAnswer_sensor (e : Fin 16) (v : Word16) (s : State) : ∃ ready, (goodAnswer e v s).sensor = { s.sensor with
    polled := none, assembly := .hunt, ready := ready
    channels := s.sensor.channels.set e (goodChannel v (s.sensor.channels.get e)) } := by
  unfold goodAnswer; extract_lets entered
  obtain ⟨ready, synced⟩ := readySync_sensor entered
  exact ⟨ready, (sameSensing_handOn e v (readySync entered)).sensor.trans synced⟩

/-- The sensor unit after the check character. -/
theorem checkCharacter_sensor {s : State} {e : Fin 16} {high low b : Byte} {parity : Bool}
    (polled : s.sensor.polled = some e) (check : s.sensor.assembly = .check high low)
    (valid : characterValid s.cfg.parity b parity true = true) :
    let u := (takeCharacter b parity true s).sensor
    u.polled = none ∧ u.assembly = .hunt ∧
      if b = sensorCheck (s.cfg.channels.get e).address high low then
        u.channels.get e = goodChannel (high ++ low) (s.sensor.channels.get e) ∧ u.quietWait = s.sensor.quietWait
      else u.channels.get e = countMiss (s.sensor.channels.get e) ∧ u.quietWait = true := by
  rw [takeCharacter_valid valid, assemble_check (s := s.heard) b polled check]
  have address : s.heard.cfg = s.cfg := rfl
  rw [address]
  split
  · obtain ⟨ready, sensor⟩ := goodAnswer_sensor e (high ++ low) s.heard
    rw [sensor]
    exact ⟨rfl, rfl, Tbl.get_set_self .., rfl⟩
  · exact ⟨rfl, rfl, Tbl.get_set_self .., rfl⟩

/-- Settles O15: the character at the check is compared with the value, and the end of the event leaves the sensor unit. -/
theorem sensorCheckIsTheStatedValue : Obligations.SensorCheckIsTheStatedValue := by
  refine ⟨fun _ _ _ => rfl, Tests.test_sensor_check, fun s e high low b parity live polled check valid => ?_⟩
  refine ⟨_, event_live live, ?_⟩
  rw [finish_sensor]
  exact checkCharacter_sensor polled check valid

end Sys2Proof.Machine
end

section
/-! The acts of the commands leave the queue of commands as it stands: the line, frames and claims. -/

namespace Sys2Proof.Machine

/-- An act leaves the commands that wait. -/
abbrev KeepsQueue (f : State → State) : Prop := ∀ s, (f s).pending = s.pending

/-- An order's own rule leaves the commands that wait. -/
abbrev OrderKeepsQueue (owner : State → AnswerCode × State) : Prop := ∀ s, (owner s).2.pending = s.pending

theorem keepsQueue_ite {p : State → Prop} [DecidablePred p] {f g : State → State} (hf : KeepsQueue f) (hg : KeepsQueue g) :
    KeepsQueue fun s => if p s then f s else g s := by
  intro s; dsimp only; split
  · exact hf s
  · exact hg s

/-- An act under a condition. -/
theorem keepsQueue_when {p : State → Prop} [DecidablePred p] {f : State → State} (h : KeepsQueue f) :
    KeepsQueue fun s => if p s then f s else s := keepsQueue_ite h fun _ => rfl

/-- An act where a condition does not hold. -/
theorem keepsQueue_unless {p : State → Prop} [DecidablePred p] {f : State → State} (h : KeepsQueue f) :
    KeepsQueue fun s => if p s then s else f s := keepsQueue_ite (fun _ => rfl) h

theorem KeepsQueue.comp {f g : State → State} (hg : KeepsQueue g) (hf : KeepsQueue f) : KeepsQueue fun s => g (f s) :=
  fun s => (hg (f s)).trans (hf s)

theorem keepsQueue_foldl {α : Type} {f : State → α → State} (h : ∀ a, KeepsQueue fun s => f s a) (l : List α) :
    KeepsQueue fun s => l.foldl f s := by
  induction l with
  | nil => exact fun _ => rfl
  | cons a l ih => exact ih.comp (h a)

/-! ## Notices -/

theorem NoticesOnly.pending {s t : State} (h : NoticesOnly s t) : t.pending = s.pending := by rw [h]
theorem LotsOnly.pending {s t : State} (h : LotsOnly s t) : t.pending = s.pending := by rw [h]

theorem keepsQueue_raiseNotice (c : NoticeCode) : KeepsQueue (raiseNotice c) := fun s => (noticesOnly_raiseNotice c s).pending
theorem keepsQueue_noteBreachEntered : KeepsQueue noteBreachEntered := keepsQueue_when fun _ => rfl
theorem keepsQueue_latchBreach : KeepsQueue latchBreach := fun _ =>
  (keepsQueue_noteBreachEntered _).trans (keepsQueue_raiseNotice _ _)
theorem keepsQueue_retryBreach : KeepsQueue retryBreach := fun s => pending_of_rest (rest_retryBreach s)
theorem keepsQueue_noteEarly (pre : State) : KeepsQueue (noteEarly pre) := fun s => pending_of_rest (rest_noteEarly pre s)

/-- What follows an event within a command leaves the queue. -/
theorem keepsQueue_subEvent {f : State → State} (h : KeepsQueue f) : KeepsQueue (subEvent f) := fun s =>
  (pending_of_rest (rest_subEvent f s)).trans (h s)

theorem orderKeepsQueue_ackNotice (slot raise : Byte) : OrderKeepsQueue (ackNotice slot raise) := by
  intro s; unfold ackNotice acknowledge; dsimp only; repeat' split
  all_goals rfl

/-! ## The line -/

theorem keepsQueue_followCounts : KeepsQueue followCounts := by
  intro s; unfold followCounts; dsimp only; repeat' split
  all_goals rfl
theorem keepsQueue_rejectFrame (kind : FaultKind) (cls : Option FrameClass) (position : Fin 68) :
    KeepsQueue (rejectFrame kind cls position) := fun _ => keepsQueue_followCounts _
theorem keepsQueue_rejectChars (chars : List LineChar) : KeepsQueue (rejectChars chars) := by
  intro s; unfold rejectChars lineAtGap; dsimp only; split
  · rfl
  · rename_i kind cls position _
    have rejected := keepsQueue_rejectFrame kind cls position s
    split <;> exact rejected
theorem keepsQueue_sendError (cls : FrameClass) (position : Fin 68) : KeepsQueue (sendError cls position) := by
  intro s; unfold sendError; dsimp only; split
  · rfl
  · exact keepsQueue_followCounts _
theorem keepsQueue_meetSendError (character : Fin 68) : KeepsQueue (meetSendError character) := by
  intro s; unfold meetSendError; split
  · rfl
  · exact keepsQueue_sendError _ _ s
theorem keepsQueue_enterCandidate (n : Station) (c : ClaimFrame) : KeepsQueue (enterCandidate n c) := by
  intro s; unfold enterCandidate; dsimp only; repeat' split
  all_goals rfl
theorem keepsQueue_enterClaim (cause : Option (Station × ClaimFrame)) : KeepsQueue (enterClaim cause) := by
  intro s; cases cause with
  | none => rfl
  | some sent => exact keepsQueue_enterCandidate sent.1 sent.2 _
theorem keepsQueue_lineGap : KeepsQueue lineGap := by
  intro s; unfold lineGap countGap; repeat' split
  all_goals rfl
theorem keepsQueue_movePermit : KeepsQueue movePermit := by
  intro s; unfold movePermit; repeat' split
  all_goals rfl
theorem keepsQueue_enterInactive (cause : InactiveCause) : KeepsQueue (enterInactive cause) := by
  have evaluated : KeepsQueue applyReasons := fun _ => keepsQueue_movePermit _
  exact fun _ => keepsQueue_when (p := fun s => s.isRole .cutter) evaluated _
theorem keepsQueue_loseArbitration (character : Fin 68) : KeepsQueue (loseArbitration character) := by
  intro s; unfold loseArbitration; repeat' split
  · rfl
  · exact keepsQueue_sendError _ _ s
  · exact keepsQueue_enterInactive .duplicate _
  · rfl

/-! ## Frames sent whole -/

theorem keepsQueue_leaveSlot (f : OutFrame) : KeepsQueue (leaveSlot f) := by
  intro s; unfold leaveSlot placeMapFrame; repeat' split
  all_goals rfl
theorem keepsQueue_reportSent (f : OutFrame) : KeepsQueue (reportSent f) := by
  intro s
  cases f with
  | trip n => rfl
  | claim c => simp only [reportSent, claimSent]; split <;> rfl
  | order o =>
    simp only [reportSent, requestSent]; repeat' split
    all_goals rfl
  | map r => rfl
  | state f => simp only [reportSent, stateSent]; rw [entries_sent]
theorem keepsQueue_sentWhole (c : FrameClass) : KeepsQueue (sentWhole c) := by
  intro s; unfold sentWhole; split
  · rfl
  · exact ((keepsQueue_reportSent _ _).trans (keepsQueue_leaveSlot _ _)).trans (keepsQueue_followCounts _)

/-! ## Claims -/

theorem keepsQueue_takeOwnNumber (c : ClaimFrame) : KeepsQueue (takeOwnNumber c) := by
  intro s; unfold takeOwnNumber; repeat' split
  · exact keepsQueue_enterInactive .duplicate _
  all_goals rfl
theorem keepsQueue_withdrawnTakes (n : Station) (c : ClaimFrame) : KeepsQueue (withdrawnTakes n c) := by
  intro s; unfold withdrawnTakes; dsimp only; split
  · exact keepsQueue_enterInactive _ _
  · rfl
theorem keepsQueue_takeClaim (n : Station) (c : ClaimFrame) : KeepsQueue (takeClaim n c) := by
  intro s; unfold takeClaim; split
  · exact keepsQueue_takeOwnNumber c s
  · have discarded : (if c.joining || s.serialChanged n c then discardRecords n s else s).pending = s.pending := by
      split
      · rw [discardRecords_eq]
      · rfl
    dsimp only
    refine Eq.trans ?_ discarded
    generalize (if c.joining || s.serialChanged n c then discardRecords n s else s) = v
    split
    · exact keepsQueue_enterClaim _ v
    · exact keepsQueue_enterClaim _ v
    · have entered := keepsQueue_enterCandidate n c v
      split <;> exact entered
    · exact keepsQueue_withdrawnTakes n c v
    · rfl
theorem keepsQueue_takeClaimPayload (n : Station) (payload : List Byte) : KeepsQueue (takeClaimPayload n payload) := by
  intro s; unfold takeClaimPayload; split
  · exact keepsQueue_takeClaim n _ s
  · rfl
theorem keepsQueue_closeClaim : KeepsQueue closeClaim := by
  intro s
  cases hc : s.claim.candidate with
  | none => unfold closeClaim; rw [hc]
  | some cand =>
    by_cases excluded : ((closedRoster s cand).get s.station).map (·.state) = some .excluded
    · rw [closeClaim_excluded hc excluded]; exact keepsQueue_enterInactive .role s
    · rw [closeClaim_runs hc excluded]; split
      · rw [cutterClose_eq]; rfl
      · rfl
theorem keepsQueue_windowExpires : KeepsQueue windowExpires :=
  keepsQueue_when (keepsQueue_ite (fun _ => rfl) keepsQueue_closeClaim)
theorem keepsQueue_silenceExpires (n : Station) : KeepsQueue (silenceExpires n) := by
  intro s; unfold silenceExpires; repeat' split
  all_goals rfl

end Sys2Proof.Machine
end

section
/-! The acts of the commands leave the queue of commands as it stands: entries, orders, units and panel. -/

namespace Sys2Proof.Machine

/-! ## Entries, TRIP and MAP frames (R168, R172, R176) -/

/-- An entry stores a record of its sender and moves units. -/
theorem keepsQueue_takeEntry (n : Station) (e : Entry) : KeepsQueue fun s => takeEntry n s e := by
  intro s
  have moved : (takeEntry n s e).pending = (entryStored n s e).pending := by rw [unitsOnly_takeEntry n s e]
  have stored : (entryStored n s e).pending = s.pending := by rw [entryStored_eq n s e]
  exact moved.trans stored
theorem keepsQueue_takeState (n : Station) (payload : List Byte) : KeepsQueue (takeState n payload) := by
  have onState : KeepsQueue (claimOnState n) := keepsQueue_when fun _ => rfl
  intro s
  have accepted := keepsQueue_subEvent onState s
  unfold takeState takeEntries; dsimp only; split
  · exact accepted
  · exact (keepsQueue_foldl (fun e => keepsQueue_subEvent (keepsQueue_takeEntry n e)) _ _).trans accepted
theorem keepsQueue_takeTrip (n : Station) (payload : List Byte) : KeepsQueue (takeTrip n payload) := by
  intro s; unfold takeTrip; repeat' split
  · rfl
  · rw [takeNotice_eq]; rfl
  · rfl
theorem keepsQueue_takeMapRow (n : Station) (e : RowEntry) : KeepsQueue (takeMapRow n e) := by
  have adopted : ∀ a, KeepsQueue (adoptMap a) := fun _ _ => rfl
  intro s; unfold takeMapRow; split
  · split
    · rfl
    · extract_lets stored
      have same : stored.pending = s.pending := rfl
      split
      · exact (adopted _ stored).trans same
      · exact same
  · rfl
theorem keepsQueue_takeMap (n : Station) (payload : List Byte) : KeepsQueue (takeMap n payload) := by
  intro s; unfold takeMap; split
  · exact keepsQueue_takeMapRow n _ s
  · rfl
theorem keepsQueue_requestTimesOut : KeepsQueue requestTimesOut := by
  intro s; unfold requestTimesOut; repeat' split
  all_goals rfl

/-! ## Orders (R170) -/

theorem keepsQueue_setTagRange (i : Fin 2) (r : TagRange) : KeepsQueue (setTagRange i r) := by
  intro s; rw [setTagRange_eq]
theorem keepsQueue_changeRange (a b : Cell) (src dst : CellState) : KeepsQueue (changeRange a b src dst) := by
  intro s; rw [changeRange_eq]
theorem orderKeepsQueue_faceOrder (breaks : Bool) (n : Station) {rule : Fin 2 → State → AnswerCode × State}
    (hr : ∀ i, OrderKeepsQueue (rule i)) : OrderKeepsQueue (faceOrder breaks n rule) := by
  intro s; unfold faceOrder; repeat' split
  · rfl
  · rfl
  · rfl
  · exact (hr _ _).trans (keepsQueue_setTagRange _ _ s)
  · exact hr _ s

section
variable (args : List Byte) (i : Fin 2) (n : Station)

theorem orderKeepsQueue_tagFirstRule : OrderKeepsQueue (tagFirstRule args i) := by
  intro s; unfold tagFirstRule; split <;> exact keepsQueue_setTagRange _ _ s
theorem orderKeepsQueue_tagLastRule : OrderKeepsQueue (tagLastRule args i) := by
  intro s; unfold tagLastRule; repeat' split
  all_goals exact keepsQueue_setTagRange _ _ s
theorem orderKeepsQueue_releaseRule : OrderKeepsQueue (releaseRule i) := by
  intro s; unfold releaseRule; repeat' split
  · exact keepsQueue_setTagRange _ _ s
  · rename_i a b _ _
    have released := keepsQueue_changeRange a b .solid .released s
    dsimp only; exact (keepsQueue_setTagRange i .none _).trans released
  · exact keepsQueue_setTagRange _ _ s
theorem orderKeepsQueue_withdrawRule : OrderKeepsQueue (withdrawRule i) := by
  intro s; unfold withdrawRule; split
  · rename_i a b _
    have withdrawn := keepsQueue_changeRange a b .released .solid s
    dsimp only; exact (keepsQueue_setTagRange i .none _).trans withdrawn
  · exact keepsQueue_setTagRange _ _ s
theorem orderKeepsQueue_protectRule : OrderKeepsQueue (protectRule args i) := by
  intro s; unfold protectRule; dsimp only; repeat' split
  · rfl
  · rfl
  · exact keepsQueue_latchBreach _
  · rfl
theorem orderKeepsQueue_unprotectRule : OrderKeepsQueue (unprotectRule args i) := by
  intro s; unfold unprotectRule; repeat' split
  all_goals rfl
theorem orderKeepsQueue_advanceRule : OrderKeepsQueue (advanceRule i) := by
  intro s; unfold advanceRule; split
  · exact (keepsQueue_setTagRange _ _ _).trans (keepsQueue_setTagRange _ _ _)
  · rfl
theorem orderKeepsQueue_washNowOrder : OrderKeepsQueue (washNowOrder n) := by
  intro s; unfold washNowOrder; repeat' split
  all_goals rfl
theorem orderKeepsQueue_scrubResetOrder : OrderKeepsQueue (scrubResetOrder n) := by
  intro s; unfold scrubResetOrder; repeat' split
  all_goals rfl
theorem orderKeepsQueue_conveyOrder (on : Bool) : OrderKeepsQueue (conveyOrder on n) := by
  intro s; unfold conveyOrder; split <;> rfl
theorem orderKeepsQueue_conveyResetOrder : OrderKeepsQueue (conveyResetOrder n) := by
  intro s; unfold conveyResetOrder; repeat' split
  all_goals rfl
theorem orderKeepsQueue_mapRequestOrder : OrderKeepsQueue (mapRequestOrder n) := by
  intro s; unfold mapRequestOrder placeMapFrame; dsimp only; repeat' split
  all_goals rfl
theorem orderKeepsQueue_ackOrder : OrderKeepsQueue (ackOrder n args) := by
  intro s; unfold ackOrder; split
  · rfl
  · exact orderKeepsQueue_ackNotice _ _ s
theorem orderKeepsQueue_clearFaultOrder : OrderKeepsQueue (clearFaultOrder n) := by
  intro s; unfold clearFaultOrder; split <;> rfl
theorem orderKeepsQueue_relinkOrder : OrderKeepsQueue (relinkOrder n) := by
  intro s; unfold relinkOrder; repeat' split
  all_goals rfl

end

theorem keepsQueue_takeOrder {n : Station} {k : Byte} {kind : OrderKind} {args : List Byte}
    {owner : State → AnswerCode × State} (ho : OrderKeepsQueue owner) : KeepsQueue (takeOrder n k kind args owner) := by
  intro s
  have accepted := acceptFrame_pending n s
  unfold takeOrder; dsimp only; repeat' split
  · exact accepted
  · exact accepted
  · exact accepted
  · exact (ho _).trans accepted
theorem keepsQueue_takeUnknown (n : Station) (k : Byte) : KeepsQueue (takeUnknown n k) := by
  intro s
  have accepted := acceptFrame_pending n s
  unfold takeUnknown; dsimp only; split <;> exact accepted

/-! ## Inputs and the CUTTER's units -/

theorem keepsQueue_takeInput (r : Role) (k : Fin 4) (active : Bool) {act : State → State} (ha : KeepsQueue act) :
    KeepsQueue (takeInput r k active act) := keepsQueue_when fun s => (ha _).trans (State.withInput_pending s k active)
theorem keepsQueue_poseExpires : KeepsQueue poseExpires := by
  intro s; unfold poseExpires; repeat' split
  all_goals rfl
theorem keepsQueue_creditMass (mass : Nat) : KeepsQueue (creditMass mass) := by
  have opened : KeepsQueue openLotIfNone := keepsQueue_unless fun _ => rfl
  intro s; unfold creditMass; dsimp only; split <;> exact opened s
theorem keepsQueue_dwellCompletes : KeepsQueue dwellCompletes := by
  intro s; unfold dwellCompletes; repeat' split
  · rfl
  · exact keepsQueue_creditMass _ _
  · rfl
  · rfl
theorem keepsQueue_deliverPose (isX : Bool) (v : Word16) : KeepsQueue (deliverPose isX v) := by
  have pose : KeepsQueue poseEvent := by
    intro s; unfold poseEvent; extract_lets _ _ moved
    have same : moved.pending = s.pending := rfl
    split
    · exact (keepsQueue_latchBreach moved).trans same
    · exact (keepsQueue_retryBreach moved).trans same
  exact fun _ => pose _
theorem keepsQueue_midLowers : KeepsQueue midLowers := by
  intro s; unfold midLowers; repeat' split
  all_goals rfl

/-! ## The sequencers -/

theorem keepsQueue_abortWash : KeepsQueue abortWash := keepsQueue_when fun _ => rfl
theorem keepsQueue_convFault (why : ConvFault) : KeepsQueue (convFault why) := keepsQueue_unless fun _ => rfl
theorem keepsQueue_lotRetires : KeepsQueue lotRetires := by
  intro s; unfold lotRetires; repeat' split
  · exact (lotsOnly_openWindows 17 _).pending.trans (lotsOnly_retireHead _ _ s).pending
  · rfl
  · rfl

/-! ## The sensor line -/

theorem keepsQueue_handOn (e : Fin 16) (v : Word16) : KeepsQueue (handOn e v) := by
  intro s; unfold handOn; dsimp only; repeat' split
  · rfl
  · exact keepsQueue_deliverPose _ _ s
  · exact keepsQueue_deliverPose _ _ s
  all_goals rfl
theorem keepsQueue_goodAnswer (e : Fin 16) (v : Word16) : KeepsQueue (goodAnswer e v) := by
  have ready : KeepsQueue readySync := keepsQueue_when fun _ => rfl
  exact fun _ => (keepsQueue_handOn _ _ _).trans (ready _)
theorem keepsQueue_failPoll : KeepsQueue failPoll := by
  intro s; unfold failPoll; split <;> rfl
theorem keepsQueue_discardAnswer : KeepsQueue discardAnswer := fun s => keepsQueue_failPoll s
theorem keepsQueue_assemble (b : Byte) : KeepsQueue (assemble b) := by
  intro s; unfold assemble; repeat' split
  · rfl
  · rfl
  · rfl
  · exact keepsQueue_discardAnswer s
  · rfl
  · rfl
  · exact keepsQueue_goodAnswer _ _ s
  · exact keepsQueue_discardAnswer s
  · rfl
theorem keepsQueue_takeCharacter (data : Byte) (parity stop : Bool) : KeepsQueue (takeCharacter data parity stop) :=
  keepsQueue_ite (fun _ => keepsQueue_assemble _ _) (keepsQueue_unless keepsQueue_discardAnswer)
theorem keepsQueue_takeBreak : KeepsQueue takeBreak := by
  intro s; unfold takeBreak; dsimp only; repeat' split
  · exact keepsQueue_discardAnswer s
  · rfl
  · exact keepsQueue_discardAnswer s
  · rfl
theorem keepsQueue_sendPoll : KeepsQueue sendPoll := by
  intro s; unfold sendPoll; repeat' split
  all_goals rfl

/-! ## The CAB's times and the panel -/

theorem keepsQueue_vigWarns : KeepsQueue vigWarns := by
  intro s; unfold vigWarns; repeat' split
  all_goals rfl
theorem keepsQueue_vigilB : KeepsQueue vigilB := by
  intro s; unfold vigilB keyedPair; repeat' split
  all_goals rfl
theorem keepsQueue_pendingTimesOut (k : Byte) : KeepsQueue (pendingTimesOut k) := by
  intro s; unfold pendingTimesOut; repeat' split
  all_goals rfl
theorem keepsQueue_keyWaitEnds : KeepsQueue keyWaitEnds := by
  intro s; unfold keyWaitEnds replyMissing; dsimp only; repeat' split
  all_goals rfl
theorem composeOrder_pending (kind : OrderKind) (target : Option Station) (args : List Byte) (s : State) :
    (composeOrder kind target args s).2.pending = s.pending := by
  have own : KeepsQueue (executeOwn kind args) := by
    intro s; unfold executeOwn
    cases kind with
    | ack => exact orderKeepsQueue_ackNotice _ _ s
    | _ => rfl
  unfold composeOrder; dsimp only; repeat' split
  · exact own s
  all_goals rfl
theorem keepsQueue_composeTag (kind : OrderKind) (args : List Byte) (step : Bool) :
    KeepsQueue (composeTag kind args step) := by
  intro s
  have composed := composeOrder_pending kind (s.presentOf .cutter) args s
  unfold composeTag; dsimp only; split <;> exact composed
theorem keepsQueue_pageKey {act : Page → State → State} (ha : ∀ p, KeepsQueue (act p)) : KeepsQueue (pageKey act) := by
  intro s; unfold pageKey; split
  · rfl
  · exact ha _ s
theorem keepsQueue_faceKey {act : State → State} (ha : KeepsQueue act) : KeepsQueue (faceKey act) :=
  keepsQueue_pageKey fun _ => keepsQueue_when ha
theorem keepsQueue_keyUpDown (down : Bool) (move : Cell → Cell) : KeepsQueue (keyUpDown down move) := by
  intro s; unfold keyUpDown; split <;> rfl
theorem keepsQueue_keySelect : KeepsQueue keySelect := by
  intro s; unfold keySelect selectOffer faceSelect openOffer; repeat' split
  · exact composeOrder_pending _ _ _ (closeOffer s)
  · rfl
  · exact keepsQueue_composeTag _ _ _ s
  · exact keepsQueue_composeTag _ _ _ s
  · rfl
  · rfl
theorem keepsQueue_keyAck : KeepsQueue keyAck :=
  keepsQueue_pageKey fun p s => by
    unfold ackSelected clearFirstOut; repeat' split
    · exact composeOrder_pending .ack _ _ s
    all_goals rfl
theorem keepsQueue_takeKey {act : State → State} (ha : KeepsQueue act) : KeepsQueue (takeKey act) := by
  intro s
  refine Eq.trans ?_ (keepsQueue_subEvent ha s)
  unfold takeKey; dsimp only
  generalize subEvent act s = v
  split <;> rfl
theorem keepsQueue_pressKey (key : Key) : KeepsQueue (pressKey key) := by
  cases key with
  | page => exact keepsQueue_takeKey fun _ => rfl
  | up | down => exact keepsQueue_takeKey (keepsQueue_keyUpDown _ _)
  | left | right => exact keepsQueue_takeKey (keepsQueue_faceKey fun _ => rfl)
  | select => exact keepsQueue_takeKey keepsQueue_keySelect
  | release | withdraw | protect | advance =>
    exact keepsQueue_takeKey (keepsQueue_faceKey fun s => keepsQueue_composeTag _ _ _ s)
  | ack => exact keepsQueue_takeKey keepsQueue_keyAck
  | vigilA => exact keepsQueue_subEvent fun _ => rfl
  | vigilB => exact keepsQueue_subEvent keepsQueue_vigilB
theorem keepsQueue_takeKeyReport (bytes : List Byte) : KeepsQueue (takeKeyReport bytes) := by
  have up : KeepsQueue panelUp := fun _ => rfl
  intro s; unfold takeKeyReport; repeat' split
  · refine (keepsQueue_foldl (fun b v => ?_) _ _).trans (keepsQueue_subEvent up s)
    split
    · exact keepsQueue_pressKey _ v
    · rfl
  all_goals rfl

end Sys2Proof.Machine
end

section
/-! Every command answers a next state with the queue of commands as it stood (log entry 25). -/

namespace Sys2Proof.Machine

/-- A command answers a next state, and the commands that wait stay. -/
def Answers (run : State → Host.Outcome State Fault Refusal) : Prop := ∀ s, ∃ t, run s = .next t ∧ t.pending = s.pending

theorem answers_next {f : State → State} (h : KeepsQueue f) : Answers fun s => .next (f s) := fun s => ⟨f s, rfl, h s⟩

/-- The end of an event leaves the queue as the act does. -/
theorem answers_event {f : State → State} (h : KeepsQueue f) : Answers (event f) := by
  intro s; refine ⟨_, rfl, ?_⟩; split
  · exact (finish_pending s (f s)).trans (h s)
  · rfl

theorem keepsQueue_ifHeard {f : State → State} (h : KeepsQueue f) : KeepsQueue (ifHeard f) := keepsQueue_unless h

theorem answers_takeFrame (c : FrameClass) (n : Station) (payload : List Byte) {f : State → State} (h : KeepsQueue f) :
    Answers (event (takeFrame c n payload f)) := by
  have taken : KeepsQueue fun s => f (noteEarly s (acceptFrame n s)) := fun s =>
    ((h _).trans (keepsQueue_noteEarly s _)).trans (acceptFrame_pending n s)
  exact answers_event (keepsQueue_ifHeard (keepsQueue_ite taken (keepsQueue_rejectFrame .length (some c) 1)))

theorem answers_unlessRestarted (c : Instr) {f : State → State} (h : KeepsQueue f) :
    Answers (event (unlessRestarted c f)) := answers_event (keepsQueue_ite (fun _ => rfl) h)

theorem answers_orderEvent {n : Station} {k : Byte} {kind : OrderKind} {args : List Byte}
    {owner : State → AnswerCode × State} (h : OrderKeepsQueue owner) : Answers (orderEvent n k kind args owner) :=
  answers_event (keepsQueue_ifHeard (keepsQueue_ite (keepsQueue_takeOrder h) (keepsQueue_rejectFrame .length (some .order) 1)))

/-! ## Start-up -/

theorem keepsQueue_completeRead (bytes : List Byte) : KeepsQueue (completeRead bytes) := by
  intro s; unfold completeRead; repeat' split
  · exact (finish_pending s _).trans (keepsQueue_enterClaim none _)
  · rw [startFails_eq]; rfl
  · rfl

/-! ## Every command -/

theorem exec_answers (c : Instr) : Answers (exec c) := by
  cases c with
  -- START, RESET and the STATUS pattern
  | powerOn | resetAssert | statusPatternStep => exact answers_next fun _ => rfl
  | imageReadStart => exact answers_next (keepsQueue_when fun _ => rfl)
  | imageReadComplete bytes => exact answers_next (keepsQueue_completeRead bytes)
  -- acts that write units under one condition
  | contentionDelayEnd | recoveryExpiry | publicationTimerExpiry | earlyStatePlace | periodStart | allowanceExhausted | quietTime10s
  | washTimeExpiry | settlingExpiry | warningExpiry | runOffExpiry | beltTimeTick | hornTimeExpiry | graceExpiry | vigilPairExpiry
  | channelDue => exact answers_event (keepsQueue_when fun _ => rfl)
  -- the line
  | lineGap => exact answers_event keepsQueue_lineGap
  | arbitrationLost character => exact answers_event (keepsQueue_loseArbitration character)
  | sendError character => exact answers_event (keepsQueue_meetSendError character)
  | frameRejected chars => exact answers_event (keepsQueue_ifHeard (keepsQueue_rejectChars chars))
  | stateSentWhole | orderSentWhole | claimSentWhole | mapSentWhole | tripSentWhole =>
    exact answers_event (keepsQueue_sentWhole _)
  -- frames taken, claim, roster, publication and recovery times
  | claimTaken n payload => exact answers_takeFrame _ n payload (keepsQueue_takeClaimPayload n payload)
  | claimWindowExpiry => exact answers_unlessRestarted _ keepsQueue_windowExpires
  | lineSilenceWatchExpiry => exact answers_unlessRestarted _ (keepsQueue_when fun _ => rfl)
  | silenceTimerExpiry n => exact answers_unlessRestarted _ (keepsQueue_silenceExpires n)
  | stateTaken n payload => exact answers_takeFrame _ n payload (keepsQueue_takeState n payload)
  | tripTaken n payload => exact answers_takeFrame _ n payload (keepsQueue_takeTrip n payload)
  | mapTaken n payload => exact answers_takeFrame _ n payload (keepsQueue_takeMap n payload)
  | mapRequestTimeout => exact answers_event keepsQueue_requestTimesOut
  -- orders
  | tagFirst n k args => exact answers_orderEvent (orderKeepsQueue_faceOrder _ n (orderKeepsQueue_tagFirstRule args))
  | tagLast n k args => exact answers_orderEvent (orderKeepsQueue_faceOrder _ n (orderKeepsQueue_tagLastRule args))
  | release n k => exact answers_orderEvent (orderKeepsQueue_faceOrder _ n orderKeepsQueue_releaseRule)
  | withdraw n k => exact answers_orderEvent (orderKeepsQueue_faceOrder _ n orderKeepsQueue_withdrawRule)
  | protect n k args => exact answers_orderEvent (orderKeepsQueue_faceOrder _ n (orderKeepsQueue_protectRule args))
  | unprotect n k args => exact answers_orderEvent (orderKeepsQueue_faceOrder _ n (orderKeepsQueue_unprotectRule args))
  | advance n k => exact answers_orderEvent (orderKeepsQueue_faceOrder _ n orderKeepsQueue_advanceRule)
  | washNow n k => exact answers_orderEvent (orderKeepsQueue_washNowOrder n)
  | scrubReset n k => exact answers_orderEvent (orderKeepsQueue_scrubResetOrder n)
  | conveyOn n k => exact answers_orderEvent (orderKeepsQueue_conveyOrder n true)
  | conveyOff n k => exact answers_orderEvent (orderKeepsQueue_conveyOrder n false)
  | conveyReset n k => exact answers_orderEvent (orderKeepsQueue_conveyResetOrder n)
  | mapRequest n k => exact answers_orderEvent (orderKeepsQueue_mapRequestOrder n)
  | ack n k args => exact answers_orderEvent (orderKeepsQueue_ackOrder args n)
  | clearFault n k => exact answers_orderEvent (orderKeepsQueue_clearFaultOrder n)
  | relink n k => exact answers_orderEvent (orderKeepsQueue_relinkOrder n)
  | orderUnknownKind n k kind => exact answers_event (keepsQueue_ifHeard (keepsQueue_takeUnknown n k))
  | orderOtherTarget n target => exact answers_event (keepsQueue_ifHeard (acceptFrame_pending n))
  -- inputs
  | cutRequestChange | headRunningChange | fanProvenChange | sprayPressureChange | beltProvenChange | chainProvenChange =>
    exact answers_event (keepsQueue_takeInput _ _ _ fun _ => rfl)
  | pullWireChange active =>
    refine answers_event (keepsQueue_takeInput _ _ _ ?_)
    cases active with
    | true => exact keepsQueue_convFault _
    | false => exact fun _ => rfl
  -- the CUTTER's times
  | poseExpiry => exact answers_event (keepsQueue_when keepsQueue_poseExpires)
  | dwellComplete => exact answers_event (keepsQueue_when keepsQueue_dwellCompletes)
  | midPeriodLowering => exact answers_event keepsQueue_midLowers
  -- the sequencers' times
  | startWindowExpiry | proofLossExpiry | runOnExpiry => exact answers_event (keepsQueue_when fun _ => keepsQueue_abortWash _)
  | beltWindowExpiry | chainWindowExpiry | beltLossExpiry | chainLossExpiry | stallExpiry =>
    exact answers_event (keepsQueue_when (keepsQueue_convFault _))
  | lotWindowOpen => exact answers_event (keepsQueue_when fun s => (lotsOnly_openWindows 17 s).pending)
  | lotRetirement => exact answers_event keepsQueue_lotRetires
  -- the CAB's times and its panel
  | vigilancePeriodExpiry => exact answers_event keepsQueue_vigWarns
  | panelFrameSend => exact answers_event (keepsQueue_when (keepsQueue_when fun _ => rfl))
  | keyReport bytes => exact answers_event (keepsQueue_when (keepsQueue_takeKeyReport bytes))
  | keyReportMissing => exact answers_event (keepsQueue_when keepsQueue_keyWaitEnds)
  | keyPage | keyUp | keyDown | keyLeft | keyRight | keySelect | keyRelease | keyWithdraw | keyProtect | keyAdvance | keyAck
  | keyVigilA | keyVigilB => exact answers_event (keepsQueue_when (keepsQueue_pressKey _))
  | pendingOrderTimeout k => exact answers_event (keepsQueue_pendingTimesOut k)
  -- the sensor line
  | pollSend => exact answers_event keepsQueue_sendPoll
  | quietWaitEnd => exact answers_event fun s => State.withSensor_pending s _
  | answerTimeout => exact answers_event (keepsQueue_when keepsQueue_failPoll)
  | gapLimitExpiry => exact answers_unlessRestarted _ (keepsQueue_unless keepsQueue_discardAnswer)
  | sensorCharacter data parity stop => exact answers_event (keepsQueue_takeCharacter data parity stop)
  | sensorBreak => exact answers_event keepsQueue_takeBreak
  | valueStale e => exact answers_unlessRestarted _ (keepsQueue_when fun _ => rfl)

/-- Settles O2: each command's act keeps the queue, and so does the end of its event. -/
theorem execAnswersNext : Obligations.ExecAnswersNext := exec_answers

end Sys2Proof.Machine
end

section
/-! The permit through every command, every tick and every step (R28 to R35): its reasons as the rules give them, and on only with
none set. -/

namespace Sys2Proof.Machine

/-! ## Commands -/

theorem State.PermitStands.permitSound {s : State} (h : s.PermitStands) : s.PermitSound := fun _ _ => h

/-- A station whose blocks do not run is bound by nothing. -/
theorem permitSound_notLive {s : State} (h : s.live = false) : s.PermitSound := fun live => absurd live (by simp [h])

theorem finish_permitSound (pre s : State) : (finish pre s).PermitSound := by
  intro live cutter
  rw [finish_live] at live
  rw [finish_isRole] at cutter
  exact finish_permitStands live cutter

theorem event_permitSound {f : State → State} {s t : State} (h : s.PermitSound) (ht : event f s = .next t) :
    t.PermitSound := by
  cases Host.Outcome.next.inj ht; split
  · exact finish_permitSound s (f s)
  · exact h

/-- The permit stands on nothing of START's own. -/
theorem startRead_permitSound {s : State} (h : s.PermitSound) : (startRead s).PermitSound := by
  unfold startRead; split <;> exact h

theorem completeRead_permitSound (bytes : List Byte) {s : State} (h : s.PermitSound) : (completeRead bytes s).PermitSound := by
  unfold completeRead; repeat' split
  · exact finish_permitSound _ _
  · exact permitSound_notLive (live_of_rest (rest_statusSync _))
  · exact h

theorem exec_permitSound (c : Instr) {s t : State} (h : s.PermitSound) (ht : exec c s = .next t) : t.PermitSound := by
  cases c with
  | powerOn straps => cases Host.Outcome.next.inj ht; exact permitSound_notLive rfl
  | resetAssert => cases Host.Outcome.next.inj ht; exact permitSound_notLive rfl
  | imageReadStart => cases Host.Outcome.next.inj ht; exact startRead_permitSound h
  | imageReadComplete bytes => cases Host.Outcome.next.inj ht; exact completeRead_permitSound bytes h
  | statusPatternStep => cases Host.Outcome.next.inj ht; exact h
  | quietWaitEnd => exact event_permitSound (f := fun s => s.withSensor fun u => { u with quietWait := false }) h ht
  | _ => exact event_permitSound h ht

/-! ## A tick: no time that passes sets or clears a hold reason -/

/-- A tick of the units at a CUTTER, the inputs its blocks read as they stand. -/
theorem liveTick_cutter {s : State} (cutter : s.isRole .cutter = true) :
    ∃ inputs pins, inputs.i0 = s.inputs.i0 ∧ inputs.i1 = s.inputs.i1 ∧ liveTick s = { s with
      inputs := inputs, pins := pins, claim := s.claim.tick, pub := s.pub.tick, sensor := s.sensorTick
      recovery := s.recovery.tick, permit := s.permitTick, dust := s.dustTick, ring := s.ring.tick } := by
  have role := role_of_isRole cutter
  obtain ⟨inputs, pins, debounced, read⟩ := debounceTick_eq s
  have i0 : inputs.i0 = s.inputs.i0 := read 0 true (by rw [role]; rfl)
  have i1 : inputs.i1 = s.inputs.i1 := read 1 true (by rw [role]; rfl)
  refine ⟨inputs, pins, i0, i1, ?_⟩
  have runs : ({ s with inputs := inputs, pins := pins } : State).dwellRuns = s.dwellRuns := by
    simp only [State.dwellRuns, i1]; rfl
  have permit : ({ s with inputs := inputs, pins := pins } : State).permitTick = s.permitTick := by
    unfold State.permitTick; rw [runs]; rfl
  unfold liveTick; rw [debounced]; dsimp only
  rw [show ({ s with inputs := inputs, pins := pins } : State).role = some .cutter from role]
  dsimp only
  rw [permit]; rfl

theorem permitTick_keeps (s : State) : s.permitTick.reasons = s.permit.reasons ∧ s.permitTick.state = s.permit.state ∧
    s.permitTick.head = s.permit.head ∧ s.permitTick.fresh = s.permit.fresh := by
  unfold State.permitTick PermitUnit.work; dsimp only; repeat' split
  all_goals exact ⟨rfl, rfl, rfl, rfl⟩

/-- The last unit of the allowance is no tick's to take. -/
theorem spend_exhausted (u : DustUnit) : (u.spend.remaining == 0) = (u.remaining == 0) := by
  unfold DustUnit.spend; repeat' split
  · rfl
  · rfl
  · rfl
  · rw [Bool.eq_iff_iff]; simp only [beq_iff_eq]; omega

theorem dustTick_exhausted (s : State) : (s.dustTick.remaining == 0) = (s.dust.remaining == 0) := by
  unfold State.dustTick; dsimp only; split
  · exact spend_exhausted _
  · rfl

/-- The open span alone runs. -/
theorem ringTick_lots (g : LotRing) : g.tick.lots.length = g.lots.length ∧
    g.tick.lots.map (·.expected) = g.lots.map (·.expected) := by
  unfold LotRing.tick; repeat' split
  · exact ⟨rfl, rfl⟩
  · refine ⟨by simp, ?_⟩
    simp only [List.map_map]
    refine List.map_congr_left fun l _ => ?_
    simp only [Function.comp_apply]; split <;> rfl
  · exact ⟨rfl, rfl⟩

theorem claimTick_entry (s : State) (n : Station) :
    s.claim.tick.roster.get n = (s.entry n).map fun e => { e with silence := e.silence.tick } := by
  simp only [ClaimUnit.tick, Tbl.get_map, State.entry]

/-- No roster state, role or ready flag moves with a silence time. -/
theorem claimTick_roster {s t : State} (claim : t.claim = s.claim.tick) :
    t.isPresent = s.isPresent ∧ t.presentReady = s.presentReady ∧ t.entryState = s.entryState := by
  have entry (n : Station) : t.entry n = (s.entry n).map fun e => { e with silence := e.silence.tick } := by
    rw [State.entry, claim, claimTick_entry]
  have present : t.isPresent = s.isPresent := by
    funext r n
    simp only [State.isPresent, State.entryIs, entry n]
    cases s.entry n <;> rfl
  refine ⟨present, ?_, ?_⟩
  · funext r n
    simp only [State.presentReady, present, entry n, Option.map_map]; rfl
  · funext n
    simp only [State.entryState, entry n, Option.map_map]; rfl

theorem liveTick_reasonsNow {s : State} (cutter : s.isRole .cutter = true) : (liveTick s).reasonsNow = s.reasonsNow := by
  obtain ⟨inputs, pins, i0, -, ticked⟩ := liveTick_cutter cutter
  obtain ⟨-, -, head, fresh⟩ := permitTick_keeps s
  obtain ⟨count, expected⟩ := ringTick_lots s.ring
  rw [ticked]
  generalize ht : ({ s with
      inputs := inputs, pins := pins, claim := s.claim.tick, pub := s.pub.tick, sensor := s.sensorTick
      recovery := s.recovery.tick, permit := s.permitTick, dust := s.dustTick, ring := s.ring.tick } : State) = t
  obtain ⟨present, ready, entries⟩ := claimTick_roster (s := s) (t := t) (by rw [← ht])
  have headOf : t.permit.head = s.permit.head := by rw [← ht]; exact head
  have freshOf : t.permit.fresh = s.permit.fresh := by rw [← ht]; exact fresh
  have exhausted : (t.dust.remaining == 0) = (s.dust.remaining == 0) := by rw [← ht]; exact dustTick_exhausted s
  have lots : t.ring.lots.length = s.ring.lots.length := by rw [← ht]; exact count
  have outstanding : t.outstanding = s.outstanding := by
    rw [State.outstanding, ← ht]; exact congrArg List.sum expected
  have demand : t.inputs.i0 = s.inputs.i0 := by rw [← ht]; exact i0
  have same : t.image = s.image ∧ t.station = s.station ∧ t.line = s.line ∧ t.notices = s.notices ∧
      t.replicas = s.replicas ∧ t.face = s.face ∧ t.recovery.adopted = s.recovery.adopted ∧
      t.recovery.state = s.recovery.state ∧ t.recovery.lostAcked = s.recovery.lostAcked := by
    rw [← ht]; exact ⟨rfl, rfl, rfl, rfl, rfl, rfl, rfl, rfl, rfl⟩
  obtain ⟨image, station, line, notices, replicas, face, adopted, lost, acked⟩ := same
  simp only [State.reasonsNow, State.reasonRoster, State.reasonPose, State.reasonCell, State.reasonZone, State.reasonDust,
    State.reasonSpoil, State.reasonTrip, State.reasonVigil, State.reasonRestore, State.vigilanceCab, State.cabPart,
    State.replica, State.cell, State.zoneProtected, State.capacityRead, State.presentScrubber, State.presentOf,
    State.presentConveyor, State.counted, State.cfg, present, ready, entries, headOf, freshOf, exhausted, lots,
    outstanding, demand, image, station, line, notices, replicas, face, adopted, lost, acked]

theorem liveTick_permitStands {s : State} (cutter : s.isRole .cutter = true) (h : s.PermitStands) :
    (liveTick s).PermitStands := by
  obtain ⟨held, on⟩ := h
  obtain ⟨reasons, state, head, -⟩ := permitTick_keeps s
  have permit : (liveTick s).permit = s.permitTick ∧ (liveTick s).image = s.image := by
    obtain ⟨inputs, pins, -, -, ticked⟩ := liveTick_cutter cutter
    rw [ticked]; exact ⟨rfl, rfl⟩
  obtain ⟨permit, image⟩ := permit
  have onState : (liveTick s).onState = s.onState := by
    have kind : (liveTick s).kind = s.kind := by funext c; simp only [State.kind, image]
    simp only [State.onState, permit, head, kind]
  refine ⟨?_, fun isOn => ?_⟩
  · rw [liveTick_reasonsNow cutter, permit, reasons]; exact held
  · rw [permit, reasons, state, onState]
    refine on ?_
    rwa [State.permitOn, permit, state] at isOn

theorem passTick_permitSound {s : State} (h : s.PermitSound) : (passTick s).PermitSound := by
  have part : (partTick s).PermitSound := h
  unfold passTick; split
  · rename_i live
    intro _ cutter
    obtain ⟨-, -, -, -, image, station, -, -⟩ := liveTick_display (partTick s)
    have role : (partTick s).isRole .cutter = true := by
      simpa only [State.isRole, State.role, State.cfg, image, station] using cutter
    exact liveTick_permitStands role (part live role)
  · unfold restTick; split <;> exact part

theorem step_permitSound {s t : State} (h : s.PermitSound) (ht : step s = .next t) : t.PermitSound := by
  unfold step at ht; split at ht
  · rename_i c queue _
    have popped : ({ s with pending := queue } : State).PermitSound := h
    exact exec_permitSound c popped ht
  · unfold idle at ht; split at ht
    · exact exec_permitSound _ h ht
    · cases Host.Outcome.next.inj ht; exact passTick_permitSound h

/-- Settles O4: the end of an event evaluates the permit (R34), and a tick leaves all that the reasons read. -/
theorem permitSoundKept : Obligations.PermitSoundKept := fun _ _ => step_permitSound

/-! ## The outputs (R142, R190, R194) -/

theorem outputs_cutter {s : State} (live : s.live = true) (cutter : s.isRole .cutter = true) :
    s.outputs = (s.permitOn, s.permit.state == .trim, s.permit.state == .stopped, false) := by
  unfold State.outputs; rw [live, role_of_isRole cutter]; rfl

/-- TRIM is the state of a head over a TRIM cell (R35). -/
theorem onState_trim (s : State) : s.onState = .trim ↔ s.permit.head.map s.kind = some .trim := by
  unfold State.onState; split
  · rename_i inside; simp [inside]
  · rename_i trim; simp [trim]
  · rename_i other
    simp only [reduceCtorEq, false_iff]
    exact other

/-- Settles O5: a CUT_PERMIT that is active is that of a live CUTTER whose sound permit is on. -/
theorem permitOnNeedsNoReason : Obligations.PermitOnNeedsNoReason := by
  refine ⟨fun s off => outputs_notLive (by rcases off with h | h <;> simp [State.live, h]), ?_⟩
  intro s t sound ht cutter active
  have live : t.live = true := by
    by_contra off
    rw [outputs_notLive (Bool.eq_false_iff.2 off)] at active
    cases active
  rw [outputs_cutter live cutter] at active ⊢
  obtain ⟨held, on⟩ := step_permitSound sound ht live cutter
  obtain ⟨none, state⟩ := on active
  refine ⟨held ▸ none, state, ?_, ?_⟩
  · rw [← onState_trim, ← state]; exact beq_iff_eq
  · revert active
    dsimp only [State.permitOn]
    cases t.permit.state <;> simp [PermitState.on]

/-! ## Reset -/

/-- The ring of power-on holds no lot (R91). -/
theorem ringReset_sound : LotRing.reset.Sound := ⟨Nat.zero_le 16, rfl, fun _ _ h => by cases h⟩

/-- Settles O9: at reset no block runs, the lists and the ring are empty, and the STATUS code is that of START. -/
theorem soundAtReset : Obligations.SoundAtReset :=
  ⟨permitSound_notLive rfl, State.ListsSound.displaySound (powerOn_lists 0 0b111 []) rfl,
    restart_statusSound 0b111 State.reset, ringReset_sound⟩

end Sys2Proof.Machine
end

section
/-! The acts of the commands keep the lot ring in order: the line, frames and claims (R78 to R82). -/

namespace Sys2Proof.Machine

/-- An act keeps the lot ring in order. -/
abbrev KeepsRing (f : State → State) : Prop := ∀ s, s.ring.Sound → (f s).ring.Sound

/-- An order's own rule keeps the lot ring in order. -/
abbrev OrderKeepsRing (owner : State → AnswerCode × State) : Prop := ∀ s, s.ring.Sound → (owner s).2.ring.Sound

theorem keepsRing_ite {p : State → Prop} [DecidablePred p] {f g : State → State} (hf : KeepsRing f) (hg : KeepsRing g) :
    KeepsRing fun s => if p s then f s else g s := by
  intro s h; dsimp only; split
  · exact hf s h
  · exact hg s h

/-- An act under a condition. -/
theorem keepsRing_when {p : State → Prop} [DecidablePred p] {f : State → State} (h : KeepsRing f) :
    KeepsRing fun s => if p s then f s else s := keepsRing_ite h fun _ sound => sound

/-- An act where a condition does not hold. -/
theorem keepsRing_unless {p : State → Prop} [DecidablePred p] {f : State → State} (h : KeepsRing f) :
    KeepsRing fun s => if p s then s else f s := keepsRing_ite (fun _ sound => sound) h

theorem keepsRing_foldl {α : Type} {f : State → α → State} (h : ∀ a, KeepsRing fun s => f s a) (l : List α) :
    KeepsRing fun s => l.foldl f s := by
  induction l with
  | nil => exact fun _ sound => sound
  | cons a l ih => exact fun s sound => ih _ (h a s sound)

/-! ## The end of an event -/

/-- A ring that stays, or whose open lot is committed, stays in order. -/
theorem RingFollows.sound {s t : State} (follows : RingFollows s t) (h : s.ring.Sound) : t.ring.Sound := by
  rcases follows with same | ⟨-, -, committed⟩
  · rw [same]; exact h
  · rw [committed]; exact commitLot_sound h

theorem keepsRing_sync : KeepsRing sync := by
  intro s h
  cases role : s.isRole .cutter with
  | true => exact (sync_ring role).sound h
  | false => rw [ring_of_rest_other (rest_sync s) role]; exact h

theorem keepsRing_noteEarly (pre : State) : KeepsRing (noteEarly pre) := by
  intro s h; rw [noteEarly_eq]; exact h

/-- What follows an event within a command. -/
theorem keepsRing_subEvent {f : State → State} (hf : KeepsRing f) : KeepsRing (subEvent f) :=
  fun s h => keepsRing_noteEarly s _ (keepsRing_sync _ (hf s h))

theorem finish_ringSound {pre s : State} (h : s.ring.Sound) : (finish pre s).ring.Sound := by
  cases role : s.isRole .cutter with
  | false => rw [ring_of_rest_other (finish_rest pre s) role]; exact h
  | true =>
    cases live : s.live with
    | true => exact (finish_ring live role).sound h
    | false =>
      have off : finish pre s = statusSync s := by unfold finish; simp [live]
      rw [off, statusSync_ring]; exact h

/-! ## Notices -/

theorem NoticesOnly.ring {s t : State} (h : NoticesOnly s t) : t.ring = s.ring := by rw [h]
theorem LotsOnly.ring {s t : State} (h : LotsOnly s t) : t.ring = s.ring := by rw [h]

theorem keepsRing_raiseNotice (c : NoticeCode) : KeepsRing (raiseNotice c) := by
  intro s h; rw [(noticesOnly_raiseNotice c s).ring]; exact h
theorem keepsRing_noteBreachEntered : KeepsRing noteBreachEntered := keepsRing_when fun _ h => h
/-- A breach commits the open lot (R36, R80). -/
theorem keepsRing_latchBreach : KeepsRing latchBreach := fun _ h =>
  keepsRing_noteBreachEntered _ (keepsRing_raiseNotice _ _ (commitLot_sound h))
theorem keepsRing_retryBreach : KeepsRing retryBreach := by
  intro s h; rw [(retryBreach_ring s).1]; exact h
theorem orderKeepsRing_ackNotice (slot raise : Byte) : OrderKeepsRing (ackNotice slot raise) := by
  intro s h; unfold ackNotice acknowledge; dsimp only; repeat' split
  all_goals exact h

/-! ## The line -/

theorem keepsRing_followCounts : KeepsRing followCounts := by
  intro s h; unfold followCounts; dsimp only; repeat' split
  all_goals exact h
theorem keepsRing_rejectFrame (kind : FaultKind) (cls : Option FrameClass) (position : Fin 68) :
    KeepsRing (rejectFrame kind cls position) := fun _ h => keepsRing_followCounts _ h
theorem keepsRing_rejectChars (chars : List LineChar) : KeepsRing (rejectChars chars) := by
  intro s h; unfold rejectChars lineAtGap; dsimp only; split
  · exact h
  · rename_i kind cls position _
    have rejected := keepsRing_rejectFrame kind cls position s h
    split <;> exact rejected
theorem keepsRing_sendError (cls : FrameClass) (position : Fin 68) : KeepsRing (sendError cls position) := by
  intro s h; unfold sendError; dsimp only; split
  · exact h
  · exact keepsRing_followCounts _ h
theorem keepsRing_meetSendError (character : Fin 68) : KeepsRing (meetSendError character) := by
  intro s h; unfold meetSendError; split
  · exact h
  · exact keepsRing_sendError _ _ s h
theorem keepsRing_enterCandidate (n : Station) (c : ClaimFrame) : KeepsRing (enterCandidate n c) := by
  intro s h; unfold enterCandidate; dsimp only; repeat' split
  all_goals exact h
/-- Every entry to CLAIMING commits the open lot (R80). -/
theorem keepsRing_enterClaim (cause : Option (Station × ClaimFrame)) : KeepsRing (enterClaim cause) := by
  intro s h
  have committed := commitLot_sound h
  cases cause with
  | none => exact committed
  | some sent => exact keepsRing_enterCandidate sent.1 sent.2 _ committed
theorem keepsRing_lineGap : KeepsRing lineGap := by
  intro s h; unfold lineGap countGap; repeat' split
  · exact h
  · exact keepsRing_enterClaim none _ h
  · exact h
  · exact h
/-- The permit that an entry to INACTIVE takes off commits the open lot (R80). -/
theorem keepsRing_enterInactive (cause : InactiveCause) : KeepsRing (enterInactive cause) := by
  have evaluated : KeepsRing applyReasons := fun s h =>
    (movePermit_ring { s with permit := { s.permit with reasons := s.reasonsNow } }).sound h
  exact fun _ h => keepsRing_when (p := fun s => s.isRole .cutter) evaluated _ h
theorem keepsRing_loseArbitration (character : Fin 68) : KeepsRing (loseArbitration character) := by
  intro s h; unfold loseArbitration; repeat' split
  · exact h
  · exact keepsRing_sendError _ _ s h
  · exact keepsRing_enterInactive .duplicate _ h
  · exact h

/-! ## Frames sent whole -/

theorem keepsRing_leaveSlot (f : OutFrame) : KeepsRing (leaveSlot f) := by
  intro s h; unfold leaveSlot placeMapFrame; repeat' split
  all_goals exact h
theorem keepsRing_reportSent (f : OutFrame) : KeepsRing (reportSent f) := by
  intro s h
  cases f with
  | trip n => exact h
  | claim c => simp only [reportSent, claimSent]; split <;> exact h
  | order o =>
    simp only [reportSent, requestSent]; repeat' split
    all_goals exact h
  | map r => exact h
  | state f => simp only [reportSent, stateSent]; rw [entries_sent]; exact h
theorem keepsRing_sentWhole (c : FrameClass) : KeepsRing (sentWhole c) := by
  intro s h; unfold sentWhole; split
  · exact h
  · exact keepsRing_reportSent _ _ (keepsRing_leaveSlot _ _ (keepsRing_followCounts _ h))

/-! ## Claims -/

theorem keepsRing_takeOwnNumber (c : ClaimFrame) : KeepsRing (takeOwnNumber c) := by
  intro s h; unfold takeOwnNumber; repeat' split
  · exact keepsRing_enterInactive .duplicate _ h
  · exact keepsRing_enterClaim none s h
  · exact keepsRing_enterClaim none s h
  all_goals exact h
theorem keepsRing_withdrawnTakes (n : Station) (c : ClaimFrame) : KeepsRing (withdrawnTakes n c) := by
  intro s h; unfold withdrawnTakes; dsimp only; split
  · exact keepsRing_enterInactive _ _ h
  · exact h
/-- A CONVEYOR's records discarded set the resync flag alone (R82, R158). -/
theorem keepsRing_discardRecords (n : Station) : KeepsRing (discardRecords n) := by
  intro s h
  have kept : (discardRecords n s).ring.lots = s.ring.lots ∧ (discardRecords n s).ring.issued = s.ring.issued ∧
      (discardRecords n s).ring.retiredHeld = s.ring.retiredHeld := by
    unfold discardRecords discardLots; dsimp only; repeat' split
    any_goals rw [setTagRange_eq]
    all_goals exact ⟨rfl, rfl, rfl⟩
  obtain ⟨lots, issued, retired⟩ := kept
  unfold LotRing.Sound; rw [lots, issued, retired]; exact h
theorem keepsRing_takeClaim (n : Station) (c : ClaimFrame) : KeepsRing (takeClaim n c) := by
  intro s h; unfold takeClaim; split
  · exact keepsRing_takeOwnNumber c s h
  · have discarded : (if c.joining || s.serialChanged n c then discardRecords n s else s).ring.Sound := by
      split
      · exact keepsRing_discardRecords n s h
      · exact h
    dsimp only
    generalize (if c.joining || s.serialChanged n c then discardRecords n s else s) = v at discarded
    split
    · exact keepsRing_enterClaim _ v discarded
    · exact keepsRing_enterClaim _ v discarded
    · have entered := keepsRing_enterCandidate n c v discarded
      split <;> exact entered
    · exact keepsRing_withdrawnTakes n c v discarded
    · exact discarded
theorem keepsRing_takeClaimPayload (n : Station) (payload : List Byte) : KeepsRing (takeClaimPayload n payload) := by
  intro s h; unfold takeClaimPayload; split
  · exact keepsRing_takeClaim n _ s h
  · exact h
theorem keepsRing_closeClaim : KeepsRing closeClaim := by
  intro s h
  cases hc : s.claim.candidate with
  | none => unfold closeClaim; rw [hc]; exact h
  | some cand =>
    by_cases excluded : ((closedRoster s cand).get s.station).map (·.state) = some .excluded
    · rw [closeClaim_excluded hc excluded]; exact keepsRing_enterInactive .role s h
    · rw [closeClaim_runs hc excluded]; split
      · rw [cutterClose_eq]; exact h
      · exact h
theorem keepsRing_windowExpires : KeepsRing windowExpires :=
  keepsRing_when (keepsRing_ite (fun _ h => h) keepsRing_closeClaim)
theorem keepsRing_watchExpires : KeepsRing watchExpires := keepsRing_when (keepsRing_enterClaim none)
theorem keepsRing_silenceExpires (n : Station) : KeepsRing (silenceExpires n) := by
  intro s h; unfold silenceExpires; repeat' split
  all_goals exact h

end Sys2Proof.Machine
end

section
/-! The acts of the commands keep the lot ring in order: entries, orders, units and panel (R78 to R82). -/

namespace Sys2Proof.Machine

/-! ## Entries, TRIP and MAP frames (R168, R172, R176) -/

/-- Of the entries only a CONVEYOR's STATUS moves the ring (R82). -/
theorem keepsRing_takeEntry (n : Station) (e : Entry) : KeepsRing fun s => takeEntry n s e := by
  intro s h; dsimp only
  rcases takeEntry_ring n s e with same | ⟨p, taken⟩
  · rw [same]; exact h
  · have moved : (cutterTakesConveyor p s).ring = s.ring.takesConveyor p := by rw [cutterTakesConveyor_eq]
    rw [taken, ← moved]; exact cutterTakesConveyor_sound p h
theorem keepsRing_takeState (n : Station) (payload : List Byte) : KeepsRing (takeState n payload) := by
  have onState : KeepsRing (claimOnState n) := keepsRing_when (keepsRing_enterClaim none)
  intro s h
  have accepted := keepsRing_subEvent onState s h
  unfold takeState takeEntries; dsimp only; split
  · exact accepted
  · exact keepsRing_foldl (fun e => keepsRing_subEvent (keepsRing_takeEntry n e)) _ _ accepted
theorem keepsRing_takeTrip (n : Station) (payload : List Byte) : KeepsRing (takeTrip n payload) := by
  intro s h; unfold takeTrip; repeat' split
  · exact h
  · rw [takeNotice_eq]; exact h
  · exact h
theorem keepsRing_takeMap (n : Station) (payload : List Byte) : KeepsRing (takeMap n payload) := by
  have row (e : RowEntry) : KeepsRing (takeMapRow n e) := by
    intro s h; unfold takeMapRow; split
    · split
      · exact h
      · extract_lets stored
        have same : stored.ring.Sound := h
        split <;> exact same
    · exact h
  intro s h; unfold takeMap; split
  · exact row _ s h
  · exact h
theorem keepsRing_requestTimesOut : KeepsRing requestTimesOut := by
  intro s h; unfold requestTimesOut; repeat' split
  all_goals exact h

/-! ## Orders (R170) -/

theorem keepsRing_setTagRange (i : Fin 2) (r : TagRange) : KeepsRing (setTagRange i r) := by
  intro s h; rw [setTagRange_eq]; exact h
theorem keepsRing_changeRange (a b : Cell) (src dst : CellState) : KeepsRing (changeRange a b src dst) := by
  intro s h; rw [changeRange_eq]; exact h
theorem orderKeepsRing_faceOrder (breaks : Bool) (n : Station) {rule : Fin 2 → State → AnswerCode × State}
    (hr : ∀ i, OrderKeepsRing (rule i)) : OrderKeepsRing (faceOrder breaks n rule) := by
  intro s h; unfold faceOrder; repeat' split
  · exact h
  · exact h
  · exact h
  · exact hr _ _ (keepsRing_setTagRange _ _ s h)
  · exact hr _ s h

section
variable (args : List Byte) (i : Fin 2) (n : Station)

theorem orderKeepsRing_tagFirstRule : OrderKeepsRing (tagFirstRule args i) := by
  intro s h; unfold tagFirstRule; split <;> exact keepsRing_setTagRange _ _ s h
theorem orderKeepsRing_tagLastRule : OrderKeepsRing (tagLastRule args i) := by
  intro s h; unfold tagLastRule; repeat' split
  all_goals exact keepsRing_setTagRange _ _ s h
theorem orderKeepsRing_releaseRule : OrderKeepsRing (releaseRule i) := by
  intro s h; unfold releaseRule; repeat' split
  · exact keepsRing_setTagRange _ _ s h
  · rename_i a b _ _
    have released := keepsRing_changeRange a b .solid .released s h
    dsimp only; exact keepsRing_setTagRange i .none _ released
  · exact keepsRing_setTagRange _ _ s h
theorem orderKeepsRing_withdrawRule : OrderKeepsRing (withdrawRule i) := by
  intro s h; unfold withdrawRule; split
  · rename_i a b _
    have withdrawn := keepsRing_changeRange a b .released .solid s h
    dsimp only; exact keepsRing_setTagRange i .none _ withdrawn
  · exact keepsRing_setTagRange _ _ s h
theorem orderKeepsRing_protectRule : OrderKeepsRing (protectRule args i) := by
  intro s h; unfold protectRule; dsimp only; repeat' split
  · exact h
  · exact h
  · exact keepsRing_latchBreach _ h
  · exact h
theorem orderKeepsRing_unprotectRule : OrderKeepsRing (unprotectRule args i) := by
  intro s h; unfold unprotectRule; repeat' split
  all_goals exact h
/-- An executed ADVANCE commits the open lot (R17, R80). -/
theorem orderKeepsRing_advanceRule : OrderKeepsRing (advanceRule i) := by
  intro s h; unfold advanceRule; split
  · rw [advanceFace_ring]; exact commitLot_sound h
  · exact h
theorem orderKeepsRing_washNowOrder : OrderKeepsRing (washNowOrder n) := by
  intro s h; unfold washNowOrder; repeat' split
  all_goals exact h
theorem orderKeepsRing_scrubResetOrder : OrderKeepsRing (scrubResetOrder n) := by
  intro s h; unfold scrubResetOrder; repeat' split
  all_goals exact h
theorem orderKeepsRing_conveyOrder (on : Bool) : OrderKeepsRing (conveyOrder on n) := by
  intro s h; unfold conveyOrder; split <;> exact h
theorem orderKeepsRing_conveyResetOrder : OrderKeepsRing (conveyResetOrder n) := by
  intro s h; unfold conveyResetOrder; repeat' split
  all_goals exact h
theorem orderKeepsRing_mapRequestOrder : OrderKeepsRing (mapRequestOrder n) := by
  intro s h; unfold mapRequestOrder placeMapFrame; dsimp only; repeat' split
  all_goals exact h
theorem orderKeepsRing_ackOrder : OrderKeepsRing (ackOrder n args) := by
  intro s h; unfold ackOrder; split
  · exact h
  · exact orderKeepsRing_ackNotice _ _ s h
theorem orderKeepsRing_clearFaultOrder : OrderKeepsRing (clearFaultOrder n) := by
  intro s h; unfold clearFaultOrder; split <;> exact h
theorem orderKeepsRing_relinkOrder : OrderKeepsRing (relinkOrder n) := by
  intro s h; unfold relinkOrder; repeat' split
  · exact h
  · exact h
  · exact keepsRing_enterClaim none _ h

end

theorem keepsRing_acceptFrame (n : Station) : KeepsRing (acceptFrame n) := by
  intro s h; rw [acceptFrame_ring]; exact h
theorem keepsRing_takeOrder {n : Station} {k : Byte} {kind : OrderKind} {args : List Byte}
    {owner : State → AnswerCode × State} (ho : OrderKeepsRing owner) : KeepsRing (takeOrder n k kind args owner) := by
  intro s h
  have accepted := keepsRing_acceptFrame n s h
  unfold takeOrder; dsimp only; repeat' split
  · exact accepted
  · exact accepted
  · exact accepted
  · exact ho _ accepted
theorem keepsRing_takeUnknown (n : Station) (k : Byte) : KeepsRing (takeUnknown n k) := by
  intro s h
  have accepted := keepsRing_acceptFrame n s h
  unfold takeUnknown; dsimp only; split <;> exact accepted

/-! ## Inputs and the CUTTER's units -/

theorem keepsRing_takeInput (r : Role) (k : Fin 4) (active : Bool) {act : State → State} (ha : KeepsRing act) :
    KeepsRing (takeInput r k active act) :=
  keepsRing_when fun s h => ha _ (by rw [State.withInput_ring]; exact h)
theorem keepsRing_poseExpires : KeepsRing poseExpires := by
  intro s h; unfold poseExpires; repeat' split
  all_goals exact h
theorem keepsRing_deliverPose (isX : Bool) (v : Word16) : KeepsRing (deliverPose isX v) := by
  have pose : KeepsRing poseEvent := by
    intro s h; unfold poseEvent; extract_lets _ _ moved
    have same : moved.ring.Sound := h
    split
    · exact keepsRing_latchBreach moved same
    · exact keepsRing_retryBreach moved same
  exact fun _ h => pose _ h
theorem keepsRing_midLowers : KeepsRing midLowers := by
  intro s h; unfold midLowers; repeat' split
  all_goals exact h

/-- Where a credit finds no lot open there is room for one: the permit is on, and 16 lots would hold it on SPOIL (R31, R83). -/
theorem dwell_room {s : State} (permit : s.PermitStands) (runs : s.dwellRuns = true) : s.ring.lots.length < 16 := by
  obtain ⟨held, on⟩ := permit
  simp only [State.dwellRuns, Bool.and_eq_true] at runs
  obtain ⟨⟨isOn, -⟩, -⟩ := runs
  obtain ⟨none, -⟩ := on isOn
  have spoil : s.reasonSpoil = false := by
    rw [held] at none
    simp only [Reasons.none, State.reasonsNow, Bool.not_eq_true', Bool.or_eq_false_iff] at none
    obtain ⟨⟨⟨⟨-, spoil⟩, -⟩, -⟩, -⟩ := none
    exact spoil
  simp only [State.reasonSpoil, Bool.or_eq_false_iff, decide_eq_false_iff_not, Nat.not_le] at spoil
  exact spoil.2

theorem dwellCompletes_ringSound {s : State} (permit : s.PermitStands) (h : s.ring.Sound) : (dwellCompletes s).ring.Sound := by
  unfold dwellCompletes; repeat' split
  · exact h
  · rename_i runs
    have room := dwell_room permit runs
    exact creditMass_sound _ h fun _ => room
  · exact h
  · exact h

/-! ## The sequencers -/

theorem keepsRing_abortWash : KeepsRing abortWash := keepsRing_when fun _ h => h
theorem keepsRing_convFault (why : ConvFault) : KeepsRing (convFault why) := keepsRing_unless fun _ h => h
theorem keepsRing_openWindow : KeepsRing openWindow := by
  intro s h; rw [openWindow, (lotsOnly_openWindows 17 s).ring]; exact h
theorem keepsRing_lotRetires : KeepsRing lotRetires := by
  intro s h; unfold lotRetires; repeat' split
  · refine keepsRing_openWindow _ ?_
    rw [(lotsOnly_retireHead _ _ s).ring]; exact h
  · exact h
  · exact h

/-! ## The sensor line -/

theorem keepsRing_handOn (e : Fin 16) (v : Word16) : KeepsRing (handOn e v) := by
  intro s h; unfold handOn; dsimp only; repeat' split
  · exact h
  · exact keepsRing_deliverPose _ _ s h
  · exact keepsRing_deliverPose _ _ s h
  all_goals exact h
theorem keepsRing_goodAnswer (e : Fin 16) (v : Word16) : KeepsRing (goodAnswer e v) := by
  have ready : KeepsRing readySync := keepsRing_when fun _ h => h
  exact fun _ h => keepsRing_handOn _ _ _ (ready _ h)
theorem keepsRing_failPoll : KeepsRing failPoll := by
  intro s h; unfold failPoll; split <;> exact h
theorem keepsRing_discardAnswer : KeepsRing discardAnswer := fun s h => keepsRing_failPoll s h
theorem keepsRing_assemble (b : Byte) : KeepsRing (assemble b) := by
  intro s h; unfold assemble; repeat' split
  · exact h
  · exact h
  · exact h
  · exact keepsRing_discardAnswer s h
  · exact h
  · exact h
  · exact keepsRing_goodAnswer _ _ s h
  · exact keepsRing_discardAnswer s h
  · exact h
theorem keepsRing_takeCharacter (data : Byte) (parity stop : Bool) : KeepsRing (takeCharacter data parity stop) :=
  keepsRing_ite (fun _ h => keepsRing_assemble _ _ h) (keepsRing_unless keepsRing_discardAnswer)
theorem keepsRing_takeBreak : KeepsRing takeBreak := by
  intro s h; unfold takeBreak; dsimp only; repeat' split
  · exact keepsRing_discardAnswer s h
  · exact h
  · exact keepsRing_discardAnswer s h
  · exact h
theorem keepsRing_sendPoll : KeepsRing sendPoll := by
  intro s h; unfold sendPoll; repeat' split
  all_goals exact h

/-! ## The CAB's times and the panel -/

theorem keepsRing_vigWarns : KeepsRing vigWarns := by
  intro s h; unfold vigWarns; repeat' split
  all_goals exact h
theorem keepsRing_vigilB : KeepsRing vigilB := by
  intro s h; unfold vigilB keyedPair; repeat' split
  all_goals exact h
theorem keepsRing_pendingTimesOut (k : Byte) : KeepsRing (pendingTimesOut k) := by
  intro s h; unfold pendingTimesOut; repeat' split
  all_goals exact h
theorem keepsRing_keyWaitEnds : KeepsRing keyWaitEnds := by
  intro s h; unfold keyWaitEnds replyMissing; dsimp only; repeat' split
  all_goals exact h
theorem composeOrder_ringSound (kind : OrderKind) (target : Option Station) (args : List Byte) {s : State}
    (h : s.ring.Sound) : (composeOrder kind target args s).2.ring.Sound := by
  have own : KeepsRing (executeOwn kind args) := by
    intro s h; unfold executeOwn
    cases kind with
    | ack => exact orderKeepsRing_ackNotice _ _ s h
    | _ => exact h
  unfold composeOrder; dsimp only; repeat' split
  · exact own s h
  all_goals exact h
theorem keepsRing_composeTag (kind : OrderKind) (args : List Byte) (step : Bool) : KeepsRing (composeTag kind args step) := by
  intro s h
  have composed := composeOrder_ringSound kind (s.presentOf .cutter) args h
  unfold composeTag; dsimp only; split <;> exact composed
theorem keepsRing_pageKey {act : Page → State → State} (ha : ∀ p, KeepsRing (act p)) : KeepsRing (pageKey act) := by
  intro s h; unfold pageKey; split
  · exact h
  · exact ha _ s h
theorem keepsRing_faceKey {act : State → State} (ha : KeepsRing act) : KeepsRing (faceKey act) :=
  keepsRing_pageKey fun _ => keepsRing_when ha
theorem keepsRing_keyUpDown (down : Bool) (move : Cell → Cell) : KeepsRing (keyUpDown down move) := by
  intro s h; unfold keyUpDown; split <;> exact h
theorem keepsRing_keySelect : KeepsRing keySelect := by
  intro s h; unfold keySelect selectOffer faceSelect openOffer; repeat' split
  · exact composeOrder_ringSound _ _ _ (s := closeOffer s) h
  · exact h
  · exact keepsRing_composeTag _ _ _ s h
  · exact keepsRing_composeTag _ _ _ s h
  · exact h
  · exact h
theorem keepsRing_keyAck : KeepsRing keyAck :=
  keepsRing_pageKey fun p s h => by
    unfold ackSelected clearFirstOut; repeat' split
    · exact composeOrder_ringSound .ack _ _ h
    all_goals exact h
theorem keepsRing_takeKey {act : State → State} (ha : KeepsRing act) : KeepsRing (takeKey act) := by
  intro s h
  have acted := keepsRing_subEvent ha s h
  unfold takeKey; dsimp only
  generalize subEvent act s = v at acted
  split <;> exact acted
theorem keepsRing_pressKey (key : Key) : KeepsRing (pressKey key) := by
  cases key with
  | page => exact keepsRing_takeKey fun _ h => h
  | up | down => exact keepsRing_takeKey (keepsRing_keyUpDown _ _)
  | left | right => exact keepsRing_takeKey (keepsRing_faceKey fun _ h => h)
  | select => exact keepsRing_takeKey keepsRing_keySelect
  | release | withdraw | protect | advance =>
    exact keepsRing_takeKey (keepsRing_faceKey fun s h => keepsRing_composeTag _ _ _ s h)
  | ack => exact keepsRing_takeKey keepsRing_keyAck
  | vigilA => exact keepsRing_subEvent fun _ h => h
  | vigilB => exact keepsRing_subEvent keepsRing_vigilB
theorem keepsRing_takeKeyReport (bytes : List Byte) : KeepsRing (takeKeyReport bytes) := by
  have up : KeepsRing panelUp := fun _ h => h
  intro s h; unfold takeKeyReport; repeat' split
  · refine keepsRing_foldl (fun b v hv => ?_) _ _ (keepsRing_subEvent up s h)
    dsimp only; split
    · exact keepsRing_pressKey _ v hv
    · exact hv
  all_goals exact h

end Sys2Proof.Machine
end

section
/-! The lot ring through every command, every tick and every step (R78 to R83). -/

namespace Sys2Proof.Machine

/-! ## Commands -/

/-- A command run where the permit is sound keeps the lot ring in order. -/
def RunKeepsRing (run : State → Host.Outcome State Fault Refusal) : Prop :=
  ∀ s t, s.PermitSound → s.ring.Sound → run s = .next t → t.ring.Sound

theorem runKeepsRing_next {f : State → State} (h : KeepsRing f) : RunKeepsRing fun s => .next (f s) := by
  intro s t _ sound ht; cases Host.Outcome.next.inj ht; exact h s sound

theorem runKeepsRing_event {f : State → State} (h : KeepsRing f) : RunKeepsRing (event f) := by
  intro s t _ sound ht; cases Host.Outcome.next.inj ht; split
  · exact finish_ringSound (h s sound)
  · exact sound

theorem keepsRing_ifHeard {f : State → State} (h : KeepsRing f) : KeepsRing (ifHeard f) := keepsRing_unless h

theorem runKeepsRing_takeFrame (c : FrameClass) (n : Station) (payload : List Byte) {f : State → State} (h : KeepsRing f) :
    RunKeepsRing (event (takeFrame c n payload f)) := by
  have taken : KeepsRing fun s => f (noteEarly s (acceptFrame n s)) := fun s sound =>
    h _ (keepsRing_noteEarly s _ (keepsRing_acceptFrame n s sound))
  exact runKeepsRing_event (keepsRing_ifHeard (keepsRing_ite taken (keepsRing_rejectFrame .length (some c) 1)))

theorem runKeepsRing_unlessRestarted (c : Instr) {f : State → State} (h : KeepsRing f) :
    RunKeepsRing (event (unlessRestarted c f)) := runKeepsRing_event (keepsRing_ite (fun _ sound => sound) h)

theorem runKeepsRing_orderEvent {n : Station} {k : Byte} {kind : OrderKind} {args : List Byte}
    {owner : State → AnswerCode × State} (h : OrderKeepsRing owner) : RunKeepsRing (orderEvent n k kind args owner) :=
  runKeepsRing_event (keepsRing_ifHeard
    (keepsRing_ite (keepsRing_takeOrder h) (keepsRing_rejectFrame .length (some .order) 1)))

/-- A completion credits the head cell where the ring has room (R40, R79). -/
theorem runKeepsRing_dwellComplete : RunKeepsRing execDwellComplete := by
  intro s t permit sound ht; cases Host.Outcome.next.inj ht; split
  · rename_i live
    refine finish_ringSound ?_
    unfold atCutter; split
    · rename_i cutter; exact dwellCompletes_ringSound (permit live cutter) sound
    · exact sound
  · exact sound

theorem keepsRing_completeRead (bytes : List Byte) : KeepsRing (completeRead bytes) := by
  intro s h; unfold completeRead; repeat' split
  · exact finish_ringSound (keepsRing_enterClaim none (loadImage _ s) h)
  · rw [startFails_eq]; exact ringReset_sound
  · exact h

theorem exec_keepsRing (c : Instr) : RunKeepsRing (exec c) := by
  cases c with
  -- START, RESET and the STATUS pattern
  | powerOn | resetAssert => exact runKeepsRing_next fun _ _ => ringReset_sound
  | statusPatternStep => exact runKeepsRing_next fun _ sound => sound
  | imageReadStart => exact runKeepsRing_next (keepsRing_when fun _ sound => sound)
  | imageReadComplete bytes => exact runKeepsRing_next (keepsRing_completeRead bytes)
  -- acts that write other units under one condition
  | contentionDelayEnd | recoveryExpiry | publicationTimerExpiry | earlyStatePlace | periodStart | allowanceExhausted | quietTime10s
  | washTimeExpiry | settlingExpiry | warningExpiry | runOffExpiry | beltTimeTick | hornTimeExpiry | graceExpiry | vigilPairExpiry
  | channelDue => exact runKeepsRing_event (keepsRing_when fun _ sound => sound)
  -- the line
  | lineGap => exact runKeepsRing_event keepsRing_lineGap
  | arbitrationLost character => exact runKeepsRing_event (keepsRing_loseArbitration character)
  | sendError character => exact runKeepsRing_event (keepsRing_meetSendError character)
  | frameRejected chars => exact runKeepsRing_event (keepsRing_ifHeard (keepsRing_rejectChars chars))
  | stateSentWhole | orderSentWhole | claimSentWhole | mapSentWhole | tripSentWhole =>
    exact runKeepsRing_event (keepsRing_sentWhole _)
  -- frames taken, claim, roster, publication and recovery times
  | claimTaken n payload => exact runKeepsRing_takeFrame _ n payload (keepsRing_takeClaimPayload n payload)
  | claimWindowExpiry => exact runKeepsRing_unlessRestarted _ keepsRing_windowExpires
  | lineSilenceWatchExpiry => exact runKeepsRing_unlessRestarted _ keepsRing_watchExpires
  | silenceTimerExpiry n => exact runKeepsRing_unlessRestarted _ (keepsRing_silenceExpires n)
  | stateTaken n payload => exact runKeepsRing_takeFrame _ n payload (keepsRing_takeState n payload)
  | tripTaken n payload => exact runKeepsRing_takeFrame _ n payload (keepsRing_takeTrip n payload)
  | mapTaken n payload => exact runKeepsRing_takeFrame _ n payload (keepsRing_takeMap n payload)
  | mapRequestTimeout => exact runKeepsRing_event keepsRing_requestTimesOut
  -- orders
  | tagFirst n k args => exact runKeepsRing_orderEvent (orderKeepsRing_faceOrder _ n (orderKeepsRing_tagFirstRule args))
  | tagLast n k args => exact runKeepsRing_orderEvent (orderKeepsRing_faceOrder _ n (orderKeepsRing_tagLastRule args))
  | release n k => exact runKeepsRing_orderEvent (orderKeepsRing_faceOrder _ n orderKeepsRing_releaseRule)
  | withdraw n k => exact runKeepsRing_orderEvent (orderKeepsRing_faceOrder _ n orderKeepsRing_withdrawRule)
  | protect n k args => exact runKeepsRing_orderEvent (orderKeepsRing_faceOrder _ n (orderKeepsRing_protectRule args))
  | unprotect n k args => exact runKeepsRing_orderEvent (orderKeepsRing_faceOrder _ n (orderKeepsRing_unprotectRule args))
  | advance n k => exact runKeepsRing_orderEvent (orderKeepsRing_faceOrder _ n orderKeepsRing_advanceRule)
  | washNow n k => exact runKeepsRing_orderEvent (orderKeepsRing_washNowOrder n)
  | scrubReset n k => exact runKeepsRing_orderEvent (orderKeepsRing_scrubResetOrder n)
  | conveyOn n k => exact runKeepsRing_orderEvent (orderKeepsRing_conveyOrder n true)
  | conveyOff n k => exact runKeepsRing_orderEvent (orderKeepsRing_conveyOrder n false)
  | conveyReset n k => exact runKeepsRing_orderEvent (orderKeepsRing_conveyResetOrder n)
  | mapRequest n k => exact runKeepsRing_orderEvent (orderKeepsRing_mapRequestOrder n)
  | ack n k args => exact runKeepsRing_orderEvent (orderKeepsRing_ackOrder args n)
  | clearFault n k => exact runKeepsRing_orderEvent (orderKeepsRing_clearFaultOrder n)
  | relink n k => exact runKeepsRing_orderEvent (orderKeepsRing_relinkOrder n)
  | orderUnknownKind n k kind => exact runKeepsRing_event (keepsRing_ifHeard (keepsRing_takeUnknown n k))
  | orderOtherTarget n target => exact runKeepsRing_event (keepsRing_ifHeard (keepsRing_acceptFrame n))
  -- inputs
  | cutRequestChange | headRunningChange | fanProvenChange | sprayPressureChange | beltProvenChange | chainProvenChange =>
    exact runKeepsRing_event (keepsRing_takeInput _ _ _ fun _ h => h)
  | pullWireChange active =>
    refine runKeepsRing_event (keepsRing_takeInput _ _ _ ?_)
    cases active with
    | true => exact keepsRing_convFault _
    | false => exact fun _ h => h
  -- the CUTTER's times
  | poseExpiry => exact runKeepsRing_event (keepsRing_when keepsRing_poseExpires)
  | dwellComplete => exact runKeepsRing_dwellComplete
  | midPeriodLowering => exact runKeepsRing_event keepsRing_midLowers
  -- the sequencers' times
  | startWindowExpiry | proofLossExpiry | runOnExpiry => exact runKeepsRing_event (keepsRing_when fun _ h => keepsRing_abortWash _ h)
  | beltWindowExpiry | chainWindowExpiry | beltLossExpiry | chainLossExpiry | stallExpiry =>
    exact runKeepsRing_event (keepsRing_when (keepsRing_convFault _))
  | lotWindowOpen => exact runKeepsRing_event (keepsRing_when keepsRing_openWindow)
  | lotRetirement => exact runKeepsRing_event keepsRing_lotRetires
  -- the CAB's times and its panel
  | vigilancePeriodExpiry => exact runKeepsRing_event keepsRing_vigWarns
  | panelFrameSend => exact runKeepsRing_event (keepsRing_when (keepsRing_when fun _ h => h))
  | keyReport bytes => exact runKeepsRing_event (keepsRing_when (keepsRing_takeKeyReport bytes))
  | keyReportMissing => exact runKeepsRing_event (keepsRing_when keepsRing_keyWaitEnds)
  | keyPage | keyUp | keyDown | keyLeft | keyRight | keySelect | keyRelease | keyWithdraw | keyProtect | keyAdvance | keyAck
  | keyVigilA | keyVigilB => exact runKeepsRing_event (keepsRing_when (keepsRing_pressKey _))
  | pendingOrderTimeout k => exact runKeepsRing_event (keepsRing_pendingTimesOut k)
  -- the sensor line
  | pollSend => exact runKeepsRing_event keepsRing_sendPoll
  | quietWaitEnd =>
    exact runKeepsRing_event (f := fun s => s.withSensor fun u => { u with quietWait := false }) (fun _ h => h)
  | answerTimeout => exact runKeepsRing_event (keepsRing_when keepsRing_failPoll)
  | gapLimitExpiry => exact runKeepsRing_unlessRestarted _ (keepsRing_unless keepsRing_discardAnswer)
  | sensorCharacter data parity stop => exact runKeepsRing_event (keepsRing_takeCharacter data parity stop)
  | sensorBreak => exact runKeepsRing_event keepsRing_takeBreak
  | valueStale e => exact runKeepsRing_unlessRestarted _ (keepsRing_when fun _ h => h)

/-! ## Every tick, and every step -/

/-- A tick runs the open span, at a CUTTER alone. -/
theorem passTick_ringSound {s : State} (h : s.ring.Sound) : (passTick s).ring.Sound := by
  obtain ⟨inputs, pins, debounced, -⟩ := debounceTick_eq (partTick s)
  unfold passTick; split
  · unfold liveTick; rw [debounced]; dsimp only; split
    · exact LotRing.tick_sound h
    all_goals exact h
  · unfold restTick; split <;> exact h

/-- Settles O8: the acts of the commands keep the ring in order, a credit by the room a sound permit leaves, and the end of an
event commits the open lot at most. -/
theorem lotRingSoundKept : Obligations.LotRingSoundKept := by
  intro s t permit hs h
  unfold step at h; split at h
  · rename_i c queue _
    have popped : ({ s with pending := queue } : State).PermitSound := permit
    exact exec_keepsRing c _ _ popped hs h
  · unfold idle at h; split at h
    · exact exec_keepsRing _ _ _ permit hs h
    · cases Host.Outcome.next.inj h; exact passTick_ringSound hs

end Sys2Proof.Machine
end

section
/-! "PROFILE BREACH" in the own queue through the judging of the other conditions: it keeps its slot, and does not come back once
it has left (R37, R93 to R97). -/

namespace Sys2Proof.Machine

/-! ## What the other codes leave of the breach -/

/-- "PROFILE BREACH" stands in no slot and does not wait. -/
def NoticeQueue.BreachGone (q : NoticeQueue) : Prop :=
  (∀ i x, q.slots.get i = some x → x.code ≠ .profileBreach) ∧ q.waiting.get NoticeCode.profileBreach.index = false

/-- Between `q` and `r` a notice of "PROFILE BREACH" keeps its slot, and where the code is gone it stays so. -/
structure KeepsBreach (q r : NoticeQueue) : Prop where
  stands : ∀ i x, q.slots.get i = some x → x.code = .profileBreach → r.slots.get i = some x
  gone : q.BreachGone → r.BreachGone

theorem KeepsBreach.refl (q : NoticeQueue) : KeepsBreach q q := ⟨fun _ _ h _ => h, id⟩

theorem KeepsBreach.trans {q r v : NoticeQueue} (h : KeepsBreach q r) (g : KeepsBreach r v) : KeepsBreach q v :=
  ⟨fun i x hx code => g.stands i x (h.stands i x hx code) code, fun absent => g.gone (h.gone absent)⟩

/-- A slot that does not hold the breach written with no breach, and the breach not made to wait. -/
theorem keepsBreach_of_set {q r : NoticeQueue} {j : Fin 8} {o : Option Notice} (slots : r.slots = q.slots.set j o)
    (other : ∀ x, q.slots.get j = some x → x.code ≠ .profileBreach) (made : ∀ x, o = some x → x.code ≠ .profileBreach)
    (waiting : q.waiting.get NoticeCode.profileBreach.index = false → r.waiting.get NoticeCode.profileBreach.index = false) :
    KeepsBreach q r := by
  refine ⟨fun i x hx code => ?_, fun ⟨absent, idle⟩ => ⟨fun i x hx => ?_, waiting idle⟩⟩
  · have apart : i ≠ j := by rintro rfl; exact other x hx code
    rw [slots, Tbl.get_set, if_neg apart]; exact hx
  · rw [slots] at hx
    rcases Tbl.get_set_some hx with ⟨-, new⟩ | stays
    · exact made x new
    · exact absent i x stays

/-- The slots as they stand, and the breach not made to wait. -/
theorem keepsBreach_of_slots {q r : NoticeQueue} (slots : r.slots = q.slots)
    (waiting : q.waiting.get NoticeCode.profileBreach.index = false → r.waiting.get NoticeCode.profileBreach.index = false) :
    KeepsBreach q r := by
  refine ⟨fun i x hx _ => by rw [slots]; exact hx, fun ⟨absent, idle⟩ => ⟨fun i x hx => ?_, waiting idle⟩⟩
  rw [slots] at hx; exact absent i x hx

theorem breachIndex_ne {c : NoticeCode} (hc : c ≠ .profileBreach) : NoticeCode.profileBreach.index ≠ c.index :=
  fun e => hc (NoticeCode.index_inj e).symm

/-- The code of a slot that the code `c` is found in is `c`. -/
theorem slotOf_code {q : NoticeQueue} {c : NoticeCode} {j : Fin 8} (slot : q.slotOf c = some j) {x : Notice}
    (hx : q.slots.get j = some x) : x.code = c := by
  obtain ⟨y, hy, code⟩ := NoticeQueue.slotOf_some slot
  rw [hx] at hy; cases hy; exact code

theorem keepsBreach_enterSlot {s : State} {i : Fin 8} {c : NoticeCode} (hc : c ≠ .profileBreach)
    (other : ∀ x, s.notices.slots.get i = some x → x.code ≠ .profileBreach) :
    KeepsBreach s.notices (enterSlot i c s).notices := by
  rw [enterSlot_notices]
  refine keepsBreach_of_set rfl other (fun x hx => ?_) fun idle => ?_
  · cases hx; exact hc
  · rw [Tbl.get_set, if_neg (breachIndex_ne hc)]; exact idle

theorem keepsBreach_displaceNote {s : State} {i : Fin 8} {x : Notice} (hx : s.notices.slots.get i = some x)
    (note : x.code.cls = .note) : KeepsBreach s.notices (displaceNote i s).notices := by
  have hc : x.code ≠ .profileBreach := by intro e; rw [e] at note; cases note
  rw [displaceNote_eq hx]
  refine keepsBreach_of_slots rfl fun idle => ?_
  simp only [State.withNotices_notices]
  split
  · rw [Tbl.get_set, if_neg (breachIndex_ne hc)]; exact idle
  · exact idle

theorem keepsBreach_refuseRaise {s : State} {c : NoticeCode} (hc : c ≠ .profileBreach) :
    KeepsBreach s.notices (refuseRaise c s).notices := by
  refine keepsBreach_of_slots rfl fun idle => ?_
  rw [refuseRaise, State.withNotices_notices, Tbl.get_set, if_neg (breachIndex_ne hc)]; exact idle

theorem freeSlot_free {q : NoticeQueue} {i : Fin 8} (h : freeSlot q = some i) : q.slots.get i = none := by
  have := List.find?_some h
  simpa using this

/-- A raise of another code renews its own slot, enters a free one, or displaces a NOTE: "PROFILE BREACH" is a TRIP. -/
theorem keepsBreach_raiseNotice {s : State} {c : NoticeCode} (hc : c ≠ .profileBreach) :
    KeepsBreach s.notices (raiseNotice c s).notices := by
  cases slot : s.notices.slotOf c with
  | some i =>
    rw [raiseNotice_renews slot]
    exact keepsBreach_enterSlot hc fun x hx code => hc ((slotOf_code slot hx).symm.trans code)
  | none =>
    cases free : freeSlot s.notices with
    | some i =>
      rw [raiseNotice_enters slot free]
      exact keepsBreach_enterSlot hc fun x hx => by rw [freeSlot_free free] at hx; cases hx
    | none =>
      by_cases waits : oldestNote s.notices = none ∨ c.cls = .note
      · rw [raiseNotice_waits slot free waits]; exact keepsBreach_refuseRaise hc
      · rw [not_or] at waits
        obtain ⟨some, notNote⟩ := waits
        obtain ⟨i, oldest⟩ := Option.ne_none_iff_exists'.1 some
        obtain ⟨x, hx, note⟩ := oldestNote_some oldest
        rw [raiseNotice_displaces slot free oldest notNote]
        refine (keepsBreach_displaceNote hx note).trans (keepsBreach_enterSlot hc fun y hy => ?_)
        rw [displaceNote_eq hx] at hy
        have same : y = x := Option.some.inj (hy.symm.trans hx)
        rw [same]; intro e; rw [e] at note; cases note

/-- A refill takes no occupied slot, and enters no code that does not wait. -/
theorem keepsBreach_fillSlot {s : State} {i : Fin 8} (free : (s.notices.slots.get i).isNone = true) :
    KeepsBreach s.notices (fillSlot i s).notices := by
  have empty := Option.isNone_iff_eq_none.1 free
  unfold fillSlot; split
  · rename_i c next
    by_cases hc : c = .profileBreach
    · subst hc
      refine ⟨fun j x hx code => ?_, fun ⟨_, idle⟩ => ?_⟩
      · have apart : j ≠ i := by rintro rfl; rw [empty] at hx; cases hx
        rw [enterSlot_notices]; simp only [Tbl.get_set, if_neg apart]; exact hx
      · rw [nextWaiting_waits next] at idle; cases idle
    · exact keepsBreach_enterSlot hc fun x hx => by rw [empty] at hx; cases hx
  · exact .refl _

theorem keepsBreach_foldl {α : Type} {f : State → α → State} {l : List α}
    (h : ∀ s, ∀ a ∈ l, KeepsBreach s.notices (f s a).notices) (s : State) :
    KeepsBreach s.notices (l.foldl f s).notices := by
  induction l generalizing s with
  | nil => exact .refl _
  | cons a l ih =>
    rw [List.foldl_cons]
    exact (h s a List.mem_cons_self).trans (ih (fun s b hb => h s b (List.mem_cons_of_mem a hb)) _)

theorem keepsBreach_refill (s : State) : KeepsBreach s.notices (refill s).notices := by
  unfold refill
  refine keepsBreach_foldl (fun s i _ => ?_) s
  split
  · rename_i free; exact keepsBreach_fillSlot free
  · exact .refl _

/-- A clear of another code writes its own slot. -/
theorem keepsBreach_clearNotice {s : State} {c : NoticeCode} (hc : c ≠ .profileBreach) :
    KeepsBreach s.notices (clearNotice c s).notices := by
  cases slot : s.notices.slotOf c with
  | none =>
    rw [clearNotice_waiting slot]
    refine keepsBreach_of_slots rfl fun idle => ?_
    simp only [Tbl.get_set, if_neg (breachIndex_ne hc)]; exact idle
  | some j =>
    have other : ∀ x, s.notices.slots.get j = some x → x.code ≠ .profileBreach :=
      fun x hx code => hc ((slotOf_code slot hx).symm.trans code)
    obtain ⟨y, hy, code⟩ := NoticeQueue.slotOf_some slot
    by_cases leaves : c.cls = .note ∨ y.state = .acked
    · rw [clearNotice_vacates slot hy leaves]
      exact keepsBreach_of_set (o := none) rfl other nofun id
    · rw [clearNotice_stands slot hy leaves]; split
      · exact keepsBreach_of_set (o := some { y with state := .cleared }) rfl other
          (fun x hx => by cases hx; exact fun e => hc (code.symm.trans e)) id
      · exact .refl _

theorem keepsBreach_setHolds (c : NoticeCode) (b : Bool) (s : State) : KeepsBreach s.notices (setHolds c b s).notices :=
  keepsBreach_of_slots rfl id

theorem keepsBreach_judgeClear {s : State} {c : NoticeCode} (hc : c ≠ .profileBreach) :
    KeepsBreach s.notices (judgeClear s c).notices := by
  unfold judgeClear; rw [if_neg (by simpa using hc)]; split
  · exact (keepsBreach_clearNotice hc).trans (keepsBreach_setHolds _ _ _)
  · exact .refl _

theorem keepsBreach_judgeRaise (s : State) (c : NoticeCode) : KeepsBreach s.notices (judgeRaise s c).notices := by
  unfold judgeRaise; split
  · rename_i raised
    have hc : c ≠ .profileBreach := by
      simp only [Bool.and_eq_true, bne_iff_ne] at raised
      obtain ⟨⟨hc, -⟩, -⟩ := raised
      exact hc
    exact (keepsBreach_raiseNotice hc).trans (keepsBreach_setHolds _ _ _)
  · exact .refl _

theorem keepsBreach_updateSilentDetail (s : State) : KeepsBreach s.notices (updateSilentDetail s).notices := by
  unfold updateSilentDetail; split
  · rename_i j slot
    split
    · rename_i y hy
      have silent := slotOf_code slot hy
      have other : y.code ≠ .profileBreach := by rw [silent]; decide
      split
      · exact keepsBreach_of_set (o := some { y with detail := s.silentSet }) rfl
          (fun x hx => by rw [hy] at hx; cases hx; exact other) (fun x hx => by cases hx; exact other) id
      · exact .refl _
    · exact .refl _
  · exact .refl _

/-! ## The judging -/

/-- "PROFILE BREACH" is the first code of the catalogue, and stands in it once. -/
theorem allCodes_cons : ∃ others, NoticeCode.all = .profileBreach :: others ∧ ∀ c ∈ others, c ≠ .profileBreach :=
  ⟨_, rfl, by decide⟩

/-- After the breach itself has been judged, what follows of the judging keeps it. -/
theorem judgeNotices_keepsBreach (s : State) :
    KeepsBreach (judgeClear s .profileBreach).notices (judgeNotices s).notices := by
  obtain ⟨others, all, other⟩ := allCodes_cons
  unfold judgeNotices
  rw [show NoticeCode.all.foldl judgeClear s = others.foldl judgeClear (judgeClear s .profileBreach) by rw [all]; rfl]
  refine (keepsBreach_foldl (fun s c hc => keepsBreach_judgeClear (other c hc)) _).trans
    ((keepsBreach_refill _).trans (.trans ?_ (keepsBreach_updateSilentDetail _)))
  exact keepsBreach_foldl (fun s c _ => keepsBreach_judgeRaise s c) _

theorem breachNotice_eq_none {s : State} (h : s.notices.BreachGone) : s.breachNotice = none := by
  rw [← Option.not_isSome_iff_eq_none, breachNotice_isSome]
  rintro ⟨i, x, hx, code⟩
  exact h.1 i x hx code

theorem judgeClear_breachIllegal {s : State} (h : s.headIllegal = true) : judgeClear s .profileBreach = s := by
  simp [judgeClear, h]

theorem judgeClear_noBreach {s : State} (h : s.breachNotice = none) : judgeClear s .profileBreach = s := by
  simp [judgeClear, h]

/-- With the head where it may not be, the notice keeps its slot. -/
theorem judgeNotices_breachStands {s : State} (h : s.headIllegal = true) (stands : s.breachNotice.isSome = true) :
    (judgeNotices s).breachNotice.isSome = true := by
  have kept := judgeNotices_keepsBreach s
  rw [judgeClear_breachIllegal h] at kept
  obtain ⟨i, x, hx, code⟩ := (breachNotice_isSome s).1 stands
  exact (breachNotice_isSome _).2 ⟨i, x, kept.stands i x hx code, code⟩

theorem judgeNotices_breachGone {s : State} (h : s.notices.BreachGone) : (judgeNotices s).notices.BreachGone := by
  have kept := judgeNotices_keepsBreach s
  rw [judgeClear_noBreach (breachNotice_eq_none h)] at kept
  exact kept.gone h

theorem vacateSlot_breachGone {s : State} {i : Fin 8}
    (only : ∀ j, (s.notices.slots.get j).map (·.code) = some .profileBreach → j = i)
    (idle : s.notices.waiting.get NoticeCode.profileBreach.index = false) : (vacateSlot i s).notices.BreachGone := by
  refine ⟨fun j x hx code => ?_, idle⟩
  rcases Tbl.get_set_some hx with ⟨-, gone⟩ | stays
  · cases gone
  · have same := only j (by rw [stays]; exact congrArg some code)
    subst same
    rw [vacateSlot, State.withNotices_notices] at hx
    simp at hx

/-- With the head in a legal cell, an acknowledged notice leaves the queue (R38, R97). -/
theorem judgeNotices_breachLeaves {s : State} {i : Fin 8} {x : Notice} (cutter : s.isRole .cutter = true)
    (legal : s.headIllegal = false) (hx : s.notices.slots.get i = some x) (code : x.code = .profileBreach)
    (acked : x.state = .acked) (only : ∀ j, (s.notices.slots.get j).map (·.code) = some .profileBreach → j = i)
    (idle : s.notices.waiting.get NoticeCode.profileBreach.index = false) : (judgeNotices s).notices.BreachGone := by
  have stands : s.breachNotice.isSome = true := (breachNotice_isSome s).2 ⟨i, x, hx, code⟩
  have slot : s.notices.slotOf .profileBreach = some i := by
    cases found : s.notices.slotOf .profileBreach with
    | none => exact absurd code (NoticeQueue.slotOf_none found i x hx)
    | some j =>
      obtain ⟨y, hy, same⟩ := NoticeQueue.slotOf_some found
      rw [only j (by rw [hy]; exact congrArg some same)]
  have cleared : judgeClear s .profileBreach = vacateSlot i s := by
    rw [← clearNotice_vacates slot hx (.inr acked)]
    simp [judgeClear, cutter, stands, legal]
  have kept := judgeNotices_keepsBreach s
  rw [cleared] at kept
  exact kept.gone (vacateSlot_breachGone only idle)

end Sys2Proof.Machine
end

section
/-! A breach latched, and a breach over, through the end of an event (R36 to R38). -/

namespace Sys2Proof.Machine

/-! ## A breach that stands -/

/-- A breach is latched: STOPPED over a head that is where it may not be, the notice marked as entered only while it stands. -/
def State.Latched (s : State) : Prop :=
  s.headIllegal = true ∧ s.permit.state = .stopped ∧ (s.permit.breachEntered = true → s.breachNotice.isSome = true)

theorem headIllegal_of_rest {s t : State} (h : t.rest = s.rest) : t.headIllegal = s.headIllegal := by
  have legal : t.legalCell = s.legalCell := by
    funext c; simp only [State.legalCell, State.cell, State.zoneProtected, face_of_rest h, image_of_rest h]
  simp only [State.headIllegal, head_of_rest h, legal]

theorem breachNotice_of_notices {s t : State} (h : t.notices = s.notices) : t.breachNotice = s.breachNotice := by
  simp only [State.breachNotice, h]

theorem State.Latched.of_same {s t : State} (h : s.Latched) (rest : t.rest = s.rest) (permit : t.permit = s.permit)
    (notices : t.notices = s.notices) : t.Latched := by
  obtain ⟨illegal, stopped, entered⟩ := h
  refine ⟨(headIllegal_of_rest rest).trans illegal, by rw [permit]; exact stopped, fun e => ?_⟩
  rw [breachNotice_of_notices notices]; exact entered (by rw [← permit]; exact e)

/-- A step that writes the notices alone, and keeps the breach's. -/
theorem State.Latched.of_notices {s t : State} (h : s.Latched) (only : NoticesOnly s t)
    (kept : s.breachNotice.isSome = true → t.breachNotice.isSome = true) : t.Latched := by
  obtain ⟨illegal, stopped, entered⟩ := h
  have permit : t.permit = s.permit := by rw [only]
  refine ⟨?_, by rw [permit]; exact stopped, fun e => kept (entered (by rw [← permit]; exact e))⟩
  rw [only]; exact illegal

theorem raiseBreach_stands {s : State} (h : s.breachNotice.isSome = true) :
    (raiseNotice .profileBreach s).breachNotice.isSome = true := by
  obtain ⟨i, x, hx, code⟩ := (breachNotice_isSome s).1 h
  cases slot : s.notices.slotOf .profileBreach with
  | none => exact absurd code (NoticeQueue.slotOf_none slot i x hx)
  | some j =>
    rw [raiseNotice_renews slot]
    refine (breachNotice_isSome _).2 ⟨j, s.madeNotice .profileBreach, ?_, rfl⟩
    obtain ⟨-, slots, -⟩ := entersSlot_enterSlot j .profileBreach s
    rw [slots, Tbl.get_set, if_pos rfl]

theorem judgeBreach_stands {s : State} (illegal : s.headIllegal = true) (h : s.breachNotice.isSome = true) :
    (judgeBreach s).breachNotice.isSome = true := by
  unfold judgeBreach; split
  · rename_i none; rw [none] at h; cases h
  · rw [illegal]; split
    · contradiction
    · split
      · exact raiseBreach_stands h
      · exact h

/-- The notice that stands is marked as entered. -/
theorem State.Latched.noteEntered {s : State} (h : s.Latched) : (noteBreachEntered s).Latched ∧
    ((noteBreachEntered s).permit.breachEntered = true → (noteBreachEntered s).breachNotice.isSome = true) := by
  obtain ⟨illegal, stopped, entered⟩ := h
  unfold noteBreachEntered; split
  · rename_i stands
    simp only [Bool.and_eq_true, beq_iff_eq] at stands
    exact ⟨⟨illegal, stopped, fun _ => stands.2⟩, fun _ => stands.2⟩
  · exact ⟨⟨illegal, stopped, entered⟩, entered⟩

/-- While the notice stands, or has not entered, the permit does not leave STOPPED (R38). -/
theorem State.Latched.notReleased {s : State} (h : s.Latched) : releaseBreach s = s := by
  obtain ⟨-, -, entered⟩ := h
  unfold releaseBreach
  cases mark : s.permit.breachEntered with
  | false => simp
  | true => simp [Option.isNone_eq_false_iff.2 (entered mark)]

/-- No reason takes the permit out of STOPPED (R35). -/
theorem State.Latched.applied {s : State} (h : s.Latched) : (applyReasons s).Latched := by
  obtain ⟨illegal, stopped, entered⟩ := h
  have moved : movePermit { s with permit := { s.permit with reasons := s.reasonsNow } } =
      { s with permit := { s.permit with reasons := s.reasonsNow } } := by
    unfold movePermit; rw [show _ = PermitState.stopped from stopped]
  unfold applyReasons; rw [moved]
  exact ⟨illegal, stopped, entered⟩

theorem permitSync_latched {s : State} (h : s.Latched) : (permitSync s).Latched := by
  unfold permitSync; split
  · obtain ⟨noted, -⟩ := (h.of_notices (noticesOnly_judgeBreach s) (judgeBreach_stands h.1)).noteEntered
    unfold evaluatePermit; rw [noted.notReleased]; exact noted.applied
  · exact h

theorem sync_latched {s : State} (cutter : s.isRole .cutter = true) (h : s.Latched) : (sync s).Latched := by
  unfold sync; rw [unitSync_cutter cutter]
  have judged := permitSync_latched (h.of_notices (noticesOnly_judgeNotices s) (judgeNotices_breachStands h.1))
  generalize permitSync (judgeNotices s) = v at judged
  refine judged.of_same (by simp) ?_ ?_
  · rw [displaySync_permit, requestSync_permit]
  · rw [displaySync_notices, requestSync_notices]

theorem retryBreach_latched {s : State} (h : s.Latched) : (retryBreach s).Latched := by
  unfold retryBreach; split
  · exact (h.of_notices (noticesOnly_raiseNotice _ s) raiseBreach_stands).noteEntered.1
  · exact h

/-- The end of an event leaves a breach latched while the head stays where it may not be. -/
theorem finish_latched {pre s : State} (live : s.live = true) (cutter : s.isRole .cutter = true) (h : s.Latched) :
    (finish pre s).Latched := by
  have synced := sync_latched cutter h
  have retried : (retrySync pre (sync s)).Latched := by
    unfold retrySync; split
    · refine sync_latched ?_ (retryBreach_latched synced)
      exact (isRole_of_rest (by simp : (retryBreach (sync s)).rest = s.rest) .cutter).trans cutter
    · exact synced
  unfold finish; rw [if_pos live]; unfold settle
  generalize retrySync pre (sync s) = v at retried
  refine retried.of_same (by simp) ?_ ?_
  · rw [statusSync_permit, State.noteRestarted_permit, beginFrame_permit, earlySync_permit, fillOrderSlot_permit]
  · rw [statusSync_notices, State.noteRestarted_notices, beginFrame_notices, earlySync_notices, fillOrderSlot_notices]

/-- STOPPED, with the cut spell ended: the first step of a breach (R36, R80). -/
def stopPermit (s : State) : State := commitLot { s with permit := { s.permit with state := .stopped, breachEntered := false } }

theorem latchBreach_eq (s : State) : latchBreach s = noteBreachEntered (raiseNotice .profileBreach (stopPermit s)) := rfl

/-- A breach latches STOPPED and raises the notice (R36, R37). -/
theorem latchBreach_latched {s : State} (illegal : s.headIllegal = true) : (latchBreach s).Latched := by
  have stopped : (stopPermit s).Latched := ⟨illegal, rfl, nofun⟩
  rw [latchBreach_eq]
  exact (stopped.of_notices (noticesOnly_raiseNotice _ _) raiseBreach_stands).noteEntered.1

theorem latchBreach_openLot (s : State) : (latchBreach s).openLot = none := by
  have closed : (raiseNotice .profileBreach (stopPermit s)).openLot = none := by
    rw [State.openLot, (noticesOnly_raiseNotice _ (stopPermit s)).ring]; exact commitLot_openLot _
  rw [latchBreach_eq]; unfold noteBreachEntered; split <;> exact closed

/-! ## A breach that is over -/

/-- The breach is over: its notice has left the queue, and the permit STOPPED (R38). -/
def State.BreachOver (s : State) : Prop :=
  s.breachNotice = none ∧ s.permit.breachEntered = false ∧ s.permit.state ≠ .stopped

theorem State.BreachOver.of_same {s t : State} (h : s.BreachOver) (permit : t.permit = s.permit)
    (notices : t.notices = s.notices) : t.BreachOver := by
  unfold State.BreachOver; rw [breachNotice_of_notices notices, permit]; exact h

theorem onState_not_stopped (s : State) : s.onState ≠ .stopped := by
  unfold State.onState; split <;> exact nofun

/-- A permit that is not STOPPED does not come to be by its reasons (R35). -/
theorem applyReasons_breachOver {s : State} (h : s.BreachOver) : (applyReasons s).BreachOver := by
  obtain ⟨absent, clear, going⟩ := h
  have moved (v : State) (same : v.notices = s.notices) (mark : v.permit.breachEntered = false)
      (state : v.permit.state ≠ .stopped) : (movePermit v).BreachOver := by
    have gone : v.breachNotice = none := (breachNotice_of_notices same).trans absent
    unfold movePermit; split
    · rename_i stopped; exact absurd stopped state
    · split
      · exact ⟨gone, mark, onState_not_stopped v⟩
      · exact ⟨gone, mark, state⟩
    all_goals
      split
      · exact ⟨gone, mark, onState_not_stopped v⟩
      · exact ⟨gone, mark, nofun⟩
  exact moved { s with permit := { s.permit with reasons := s.reasonsNow } } rfl clear going

/-- The permit leaves STOPPED once the notice, having entered, has left the queue (R38). -/
theorem permitSync_breachOver {s : State} (cutter : s.isRole .cutter = true) (gone : s.notices.BreachGone)
    (stopped : s.permit.state = .stopped) (entered : s.permit.breachEntered = true) : (permitSync s).BreachOver := by
  have absent := breachNotice_eq_none gone
  have judged : judgeBreach s = s := by unfold judgeBreach; rw [absent]
  have noted : noteBreachEntered s = s := by unfold noteBreachEntered; simp [absent]
  have released : releaseBreach s = { s with permit := { s.permit with state := .held, breachEntered := false } } := by
    unfold releaseBreach; simp [absent, stopped, entered]
  unfold permitSync; rw [if_pos cutter]
  unfold evaluatePermit; rw [judged, noted, released]
  exact applyReasons_breachOver ⟨absent, rfl, nofun⟩

/-- Where the judging leaves no breach in the queue, the end of the event lets the permit leave STOPPED. -/
theorem finish_breachOver {pre s : State} (live : s.live = true) (cutter : s.isRole .cutter = true)
    (gone : (judgeNotices s).notices.BreachGone) (stopped : s.permit.state = .stopped)
    (entered : s.permit.breachEntered = true) : (finish pre s).BreachOver := by
  have ended : (sync s).BreachOver := by
    unfold sync; rw [unitSync_cutter cutter]
    have permit := judgeNotices_permit s
    have left := permitSync_breachOver ((isRole_of_rest (rest_judgeNotices s) .cutter).trans cutter) gone
      (by rw [permit]; exact stopped) (by rw [permit]; exact entered)
    generalize permitSync (judgeNotices s) = v at left
    refine left.of_same ?_ ?_
    · rw [displaySync_permit, requestSync_permit]
    · rw [displaySync_notices, requestSync_notices]
  have noRetry : retrySync pre (sync s) = sync s := by
    obtain ⟨-, -, going⟩ := ended
    have idle : (sync s).breachWaits = false := by simp [State.breachWaits, going]
    unfold retrySync; simp [idle]
  unfold finish; rw [if_pos live]; unfold settle; rw [noRetry]
  generalize sync s = v at ended
  refine ended.of_same ?_ ?_
  · rw [statusSync_permit, State.noteRestarted_permit, beginFrame_permit, earlySync_permit, fillOrderSlot_permit]
  · rw [statusSync_notices, State.noteRestarted_notices, beginFrame_notices, earlySync_notices, fillOrderSlot_notices]

end Sys2Proof.Machine
end

section
/-! PROTECT over the head cell (R36), and ACK of a notice by slot and raise number (R38, R98, R99). -/

namespace Sys2Proof.Machine

/-! ## PROTECT over the head cell (R36) -/

/-- A zone whose temporary flag is set is protected (R4, R5). -/
theorem zoneProtected_set {s : State} {z : Fin 6} (h : s.face.temp.getLsbD z.val = true) : s.zoneProtected z.val = true := by
  rw [State.zoneProtected, h, Bool.or_true]

theorem twoPow_set (temp : BitVec 6) (z : Fin 6) : (temp ||| BitVec.twoPow 6 z.val).getLsbD z.val = true := by
  simp

theorem headIllegal_of_protected {s : State} {c : Cell} (head : s.permit.head = some c)
    (h : s.zoneProtected (zoneOf c.row) = true) : s.headIllegal = true := by
  simp [State.headIllegal, head, State.legalCell, h]

/-- The zone's temporary flag set (R5). -/
def protectZone (z : Fin 6) (s : State) : State :=
  { s with face := { s.face with temp := s.face.temp ||| BitVec.twoPow 6 z.val } }

theorem protectZone_protected (z : Fin 6) (s : State) : (protectZone z s).zoneProtected z.val = true :=
  zoneProtected_set (twoPow_set s.face.temp z)

/-- A PROTECT of the zone the head works in, at a moment at which the permit is on, is a breach. -/
theorem protectRule_latches {s : State} {args : List Byte} {z : Fin 6} {c : Cell} (i : Fin 2) (zone : argZone args = some z)
    (unprotected : s.zoneProtected z.val = false) (on : s.permitOn = true) (head : s.permit.head = some c)
    (inZone : zoneOf c.row = z.val) : protectRule args i s = (.done, latchBreach (protectZone z s)) := by
  have breach : (protectZone z s).headInZone z.val = true := by
    have headP : (protectZone z s).permit.head = some c := head
    have onP : (protectZone z s).permitOn = true := on
    simp [State.headInZone, headP, onP, inZone]
  simp only [protectRule, zone, unprotected, Bool.false_eq_true, if_false]
  exact congrArg (Prod.mk _) (if_pos breach)

/-- STOPPED shows at a live CUTTER as BREACH alone (R36, R190). -/
theorem outputs_stopped {s : State} (live : s.live = true) (cutter : s.isRole .cutter = true)
    (stopped : s.permit.state = .stopped) : s.outputs = (false, false, true, false) := by
  rw [outputs_cutter live cutter, State.permitOn, stopped]; rfl

/-- An answer joins the queue in the same way in states of one rest. -/
theorem rest_pushAnswer (n : Station) (k : Byte) (a : AnswerCode) {s t : State} (h : t.rest = s.rest) :
    (pushAnswer n k a t).rest = (pushAnswer n k a s).rest := by
  have answered (v : State) : (pushAnswer n k a v).rest = pushAnswer n k a v.rest := rfl
  rw [answered, answered, h]

/-- What a breach shows once its event has ended (R36). -/
theorem finish_breach {pre s : State} (live : s.live = true) (cutter : s.isRole .cutter = true) (latched : s.Latched)
    (closed : s.openLot = none) : (finish pre s).permit.state = .stopped ∧
      (finish pre s).outputs = (false, false, true, false) ∧ (finish pre s).openLot = none := by
  obtain ⟨-, stopped, -⟩ := finish_latched (pre := pre) live cutter latched
  exact ⟨stopped, outputs_stopped ((finish_live _ _).trans live) ((finish_isRole _ _ _).trans cutter) stopped,
    finish_openLot live cutter closed⟩

/-- A head in a protected zone holds the permit on ZONE (R30). -/
theorem reasonZone_of_protected {s : State} {c : Cell} (head : s.permit.head = some c)
    (h : s.zoneProtected (zoneOf c.row) = true) : s.reasonZone = true := by
  simp [State.reasonZone, head, h]

/-- Settles O36: the order's rule latches the breach, and the end of the event leaves it latched over the protected zone. -/
theorem protectOverTheHeadStopsThePermit : Obligations.ProtectOverTheHeadStopsThePermit := by
  intro s n k args i c z hears cutter room present bound notRestoring hargs h61 zone unprotected on head inZone
  have o : s.TakesFaceOrder n i := ⟨hears, cutter, room, present, bound, notRestoring⟩
  obtain ⟨b, hb⟩ : ∃ b, breakRange true i (acceptFrame n s) = b := ⟨_, rfl⟩
  have permit : b.permit = s.permit := by simp [← hb]
  have live : b.live = true := by simp [← hb, live_of_hears hears]
  have role : b.isRole .cutter = true := by simp [← hb, cutter]
  have flags : b.zoneProtected z.val = s.zoneProtected z.val := by simp [← hb, State.zoneProtected]
  have rule : protectRule args i b = (.done, latchBreach (protectZone z b)) :=
    protectRule_latches i zone (flags.trans unprotected) (by rw [State.permitOn, permit]; exact on)
      (by rw [permit]; exact head) inZone
  have next := faceOrder_reaches o (kind := .protect) rfl hargs h61 k true (protectRule args) (hb ▸ rule)
  have headP : (protectZone z b).permit.head = some c := (congrArg (·.head) permit).trans head
  have zoneP : (protectZone z b).zoneProtected (zoneOf c.row) = true := inZone ▸ protectZone_protected z b
  have roleP : (protectZone z b).isRole .cutter = true := role
  have dwellP : (protectZone z b).permit.dwell = s.permit.dwell := congrArg (·.dwell) permit
  have liveP : (protectZone z b).live = true := live
  rw [hb] at next
  generalize protectZone z b = p at next headP zoneP roleP dwellP liveP
  have rest := rest_pushAnswer n k .done (rest_latchBreach roleP)
  have liveU : (pushAnswer n k .done (latchBreach p)).live = true := (live_of_rest rest).trans liveP
  have roleU : (pushAnswer n k .done (latchBreach p)).isRole .cutter = true := (isRole_of_rest rest _).trans roleP
  have restT := (finish_rest s _).trans rest
  obtain ⟨stopped, shown, closed⟩ := finish_breach (pre := s) liveU roleU
    (latchBreach_latched (headIllegal_of_protected headP zoneP)) (latchBreach_openLot p)
  obtain ⟨held, -⟩ := finish_permitStands (pre := s) liveU roleU
  have headT := (head_of_rest restT).trans headP
  refine ⟨_, next, stopped, shown, ?_, closed, headT.trans head.symm, (dwell_of_rest restT).trans dwellP⟩
  rw [held]
  refine reasonZone_of_protected headT ?_
  rw [State.zoneProtected, face_of_rest restT, image_of_rest restT]; exact zoneP

/-! ## ACK (R98, R99) -/

/-- The overflow flag cleared, as every ACK from a PRESENT CAB clears it (R98). -/
def clearOverflow (s : State) : State := s.withNotices fun q => { q with overflow := false }

/-- The notice in the slot with that raise number is acknowledged. -/
theorem ackNotice_done {s : State} {i : Fin 8} {x : Notice} (h : s.notices.slots.get i = some x) :
    ackNotice (BitVec.ofNat 8 i.val) x.raise s = (.done, acknowledge i x (clearOverflow s)) := by
  have number : (BitVec.ofNat 8 i.val).toNat = i.val := by
    rw [BitVec.toNat_ofNat]; exact Nat.mod_eq_of_lt (by omega)
  unfold ackNotice
  simp only [number, i.isLt, dif_pos, State.withNotices_notices, h, if_true]
  rfl

/-- With no notice of that raise number in the slot, nothing but the flag changes. -/
theorem ackNotice_notFound {s : State} {slot raise : Byte}
    (h : ∀ i : Fin 8, slot = BitVec.ofNat 8 i.val → (s.notices.slots.get i).map (·.raise) ≠ some raise) :
    ackNotice slot raise s = (.notFound, clearOverflow s) := by
  unfold ackNotice; dsimp only; split
  · rename_i inRange
    have other := h ⟨slot.toNat, inRange⟩ (BitVec.eq_of_toNat_eq (by simp))
    simp only [State.withNotices_notices]
    split
    · rename_i x hx
      rw [if_neg fun same => other (by rw [hx, Option.map_some, same])]; rfl
    · rfl
  · rfl

/-- The acknowledged notice by its state: ACTIVE becomes ACKED, ACKED stays, and CLEARED leaves the queue. -/
theorem acknowledge_slot {s : State} {i : Fin 8} {x : Notice} (h : s.notices.slots.get i = some x) :
    (x.state ≠ .cleared → (acknowledge i x s).notices.slots.get i = some { x with state := .acked } ∧
      (acknowledge i x s).notices.overflow = s.notices.overflow) ∧
    (x.state = .cleared → (acknowledge i x s).notices.slots.get i = none) := by
  refine ⟨fun stays => ?_, fun cleared => ?_⟩
  · unfold acknowledge; split
    · dsimp only; split <;> simp [setNoticeState, markSlot]
    · rename_i cleared; exact absurd cleared stays
    · rename_i acked; rw [h, ← acked]; exact ⟨rfl, rfl⟩
  · unfold acknowledge; rw [cleared]; simp [vacateSlot]

/-- ACK is an order of every role. -/
theorem ack_takenBy (r : Role) : OrderKind.ack.takenBy r = true := by cases r <;> rfl

theorem ack_reaches {s : State} {n : Station} {k : Byte} {args : List Byte} {r : Role} (hears : s.hears = true)
    (role : s.isRole r = true) (room : s.pub.answers.length < 4) (present : (acceptFrame n s).isPresent .cab n = true)
    (two : 2 ≤ args.length) (h61 : args.length ≤ 61) : exec (.ack n k args) s =
      .next (finish s (pushAnswer n k (ackNotice (argByte args 0) (argByte args 1) (acceptFrame n s)).1
        (ackNotice (argByte args 0) (argByte args 1) (acceptFrame n s)).2)) := by
  have owner : ackOrder n args (acceptFrame n s) = ackNotice (argByte args 0) (argByte args 1) (acceptFrame n s) := by
    simp [ackOrder, State.fromCab, present]
  rw [← owner]
  exact order_reaches (kind := .ack) hears room role (ack_takenBy r) two h61

/-- The ACK of a CLEARED breach takes its notice from the queue (R38, R98). -/
theorem ackBreach_gone {s : State} {i : Fin 8} {x : Notice} (hx : s.notices.slots.get i = some x) (cleared : x.state = .cleared)
    (only : ∀ j, (s.notices.slots.get j).map (·.code) = some .profileBreach → j = i)
    (idle : s.notices.waiting.get NoticeCode.profileBreach.index = false) :
    ackNotice (BitVec.ofNat 8 i.val) x.raise s = (.done, vacateSlot i (clearOverflow s)) ∧
      (vacateSlot i (clearOverflow s)).notices.BreachGone := by
  refine ⟨?_, vacateSlot_breachGone (s := clearOverflow s) only idle⟩
  rw [ackNotice_done hx]; unfold acknowledge; rw [cleared]

/-- The breach gone from the queue, the answer sent, the permit leaves STOPPED (R38). -/
theorem ackBreach_releases {pre h : State} {i : Fin 8} (n : Station) (k : Byte) (live : h.live = true)
    (cutter : h.isRole .cutter = true) (stopped : h.permit.state = .stopped) (entered : h.permit.breachEntered = true)
    (gone : (vacateSlot i (clearOverflow h)).notices.BreachGone) :
    (finish pre (pushAnswer n k .done (vacateSlot i (clearOverflow h)))).BreachOver :=
  finish_breachOver live cutter (judgeNotices_breachGone (s := pushAnswer n k .done _) gone) stopped entered

/-- Settles O41: the order reaches the queue, where slot and raise number are matched; a breach gone from it frees the permit. -/
theorem ackMatchesSlotAndRaise : Obligations.AckMatchesSlotAndRaise := by
  refine ⟨fun s n k args hears role room present two h61 => ?_,
    fun s n k args i x hears cutter room present two h61 slot raise stopped entered hx code cleared only idle => ?_,
    fun s i x hx => ?_, fun s slot raise other => ackNotice_notFound other⟩
  · obtain ⟨r, role⟩ := Option.isSome_iff_exists.1 role
    exact ack_reaches (r := r) hears (by rw [State.isRole, role]; exact beq_self_eq_true _) room present two h61
  · have next := ack_reaches (k := k) hears cutter room present two h61
    obtain ⟨acked, gone⟩ := ackBreach_gone (s := acceptFrame n s) (by simpa using hx) cleared (by simpa using only)
      (by simpa using idle)
    rw [slot, raise, acked] at next
    obtain ⟨absent, clear, going⟩ := ackBreach_releases (pre := s) n k (by simp [live_of_hears hears]) (by simp [cutter])
      (by simp [stopped]) (by simp [entered]) gone
    exact ⟨_, next, absent, clear, going⟩
  · rw [ackNotice_done hx]
    exact ⟨rfl, acknowledge_slot (s := clearOverflow s) hx⟩

end Sys2Proof.Machine
end

section
/-! The dust allowance in time (R62 to R67): what a tick, the period's two compares and the end of the allowance make of it. -/

namespace Sys2Proof.Machine

/-! ## The permit on the reasons held -/

/-- A permit that stands on its reasons is off with one of them set. -/
theorem State.PermitStands.off {s : State} (h : s.PermitStands) (held : s.permit.reasons.none = false) :
    s.permitOn = false := by
  by_contra on
  obtain ⟨none, -⟩ := h.2 (Bool.not_eq_false _ ▸ on)
  rw [held] at none; cases none

theorem reasons_dust_held {r : Reasons} (h : r.dust = true) : r.none = false := by simp [Reasons.none, h]

/-- The DUST reason after an event at a live CUTTER (R31). -/
theorem finish_reasonDust {pre s : State} (live : s.live = true) (cutter : s.isRole .cutter = true) :
    (finish pre s).permit.reasons.dust = (s.dust.remaining == 0 || s.capacityRead == 0) := by
  rw [(finish_permitStands live cutter).1]
  simp only [State.reasonsNow, State.reasonDust, finish_dust,
    capacityRead_congr (finish_claim (pre := pre) (s := s)) (finish_replicas (pre := pre) (s := s))]

/-- With the allowance at 0 the permit is held (R66). -/
theorem finish_exhausted {pre s : State} (live : s.live = true) (cutter : s.isRole .cutter = true)
    (exhausted : s.dust.remaining = 0) :
    (finish pre s).permit.reasons.dust = true ∧ (finish pre s).permitOn = false := by
  have dust : (finish pre s).permit.reasons.dust = true := by rw [finish_reasonDust live cutter, exhausted]; rfl
  exact ⟨dust, (finish_permitStands live cutter).off (reasons_dust_held dust)⟩

/-! ## A tick -/

/-- A tick at a live CUTTER: the permit stays as it is, and the dust unit's time passes. -/
theorem passTick_dust {s : State} (live : s.live = true) (cutter : s.isRole .cutter = true) :
    (passTick s).permitOn = s.permitOn ∧ (passTick s).dust = s.dustTick ∧ (passTick s).live = true ∧
      (passTick s).isRole .cutter = true := by
  have pass : passTick s = liveTick (partTick s) := if_pos live
  obtain ⟨inputs, pins, -, -, ticked⟩ := liveTick_cutter (s := partTick s) cutter
  obtain ⟨-, state, -⟩ := permitTick_keeps s
  rw [pass, ticked]
  exact ⟨congrArg PermitState.on state, rfl, live, cutter⟩

theorem isSome_orElse {α : Type} (o : Option α) (f : Unit → Option α) : (o.orElse f).isSome = (o.isSome || (f ()).isSome) := by
  cases o <;> rfl

/-- A unit that waits at its whole for ALLOWANCE_EXHAUSTED is a command due. -/
theorem dueCommand_lastUnit {s : State} (live : s.live = true) (cutter : s.isRole .cutter = true) (on : s.permitOn = true)
    (last : s.dust.remaining = 1) (whole : s.dust.fraction = tenth) : (dueCommand s).isSome = true := by
  have due : s.dueCutter.isSome = true := by
    simp only [State.dueCutter, firstDue, if_pos cutter, Option.isSome_map, List.find?_isSome]
    exact ⟨(_, .allowanceExhausted), .tail _ (.tail _ (.head _)), by simp [on, last, whole]⟩
  simp only [dueCommand, if_pos live, isSome_orElse, due, Bool.or_true, Bool.true_or]

/-! ## The unit's own count -/

/-- Short of a whole unit the fraction is carried. -/
theorem spend_part {u : DustUnit} (left : u.remaining ≠ 0) (part : u.fraction + 1 < tenth) :
    u.spend = { u with fraction := u.fraction + 1 } := by
  unfold DustUnit.spend countTo
  rw [if_neg left]; split
  · rw [Nat.min_eq_right part.le]
  · rfl

/-- A whole unit is spent, where it is not the last. -/
theorem spend_whole {u : DustUnit} (left : 1 < u.remaining) (whole : tenth ≤ u.fraction + 1) :
    u.spend = { u with remaining := u.remaining - 1, used := u.used + 1, fraction := 0 } := by
  unfold DustUnit.spend
  rw [if_neg (by omega), if_neg (by omega), if_neg (Nat.not_lt.2 whole)]

/-- The last unit waits at its whole for ALLOWANCE_EXHAUSTED. -/
theorem spend_last {u : DustUnit} (last : u.remaining = 1) (whole : tenth ≤ u.fraction + 1) :
    u.spend = { u with fraction := tenth } := by
  unfold DustUnit.spend countTo
  rw [if_neg (by omega), if_pos last, Nat.min_eq_left whole]

theorem spend_none {u : DustUnit} (none : u.remaining = 0) : u.spend = u := if_pos none

/-- The period position runs alone where the permit is off or nothing is left to count. -/
theorem dustTick_stands {s : State} (h : s.permitOn = false ∨ s.dust.remaining = 0) :
    s.dustTick = { s.dust with position := s.dust.position.map (countTo (sec s.image.period)) } := by
  unfold State.dustTick; dsimp only; split
  · rename_i on
    exact spend_none (h.resolve_left (by simp [on]))
  · rfl

theorem dustTick_spends {s : State} (on : s.permitOn = true) :
    s.dustTick = { s.dust.spend with position := s.dust.position.map (countTo (sec s.image.period)) } := by
  unfold State.dustTick; rw [if_pos on]
  unfold DustUnit.spend; dsimp only; split_ifs <;> rfl

/-- What `k` ticks of permit-on time make of an allowance that they do not exhaust (R65). -/
def DustUnit.After (u v : DustUnit) (k : Nat) : Prop :=
  v.remaining = u.remaining - (u.fraction + k) / tenth ∧ v.used = u.used + (u.fraction + k) / tenth ∧
    v.fraction = (u.fraction + k) % tenth

/-- One tick more. -/
theorem DustUnit.After.spend {u v : DustUnit} {k : Nat} (h : u.After v k)
    (short : (u.fraction + (k + 1)) / tenth < u.remaining) : u.After v.spend (k + 1) := by
  obtain ⟨remaining, used, fraction⟩ := h
  dsimp only [DustUnit.After, tenth, Ticks] at short remaining used fraction ⊢
  by_cases part : v.fraction + 1 < tenth
  · rw [spend_part (by omega) part]
    dsimp only [tenth, Ticks] at part ⊢; omega
  · have whole : tenth ≤ v.fraction + 1 := Nat.not_lt.1 part
    rw [spend_whole (by dsimp only [tenth, Ticks] at whole; omega) whole]
    dsimp only [tenth, Ticks] at whole ⊢; omega

theorem spend_iterate (u : DustUnit) (part : u.fraction < tenth) (k : Nat) (short : (u.fraction + k) / tenth < u.remaining) :
    u.After (DustUnit.spend^[k] u) k := by
  induction k with
  | zero =>
    refine ⟨?_, ?_, ?_⟩ <;> simp [Nat.div_eq_of_lt part, Nat.mod_eq_of_lt part]
  | succ k ih =>
    rw [Function.iterate_succ_apply']
    have shorter : (u.fraction + k) / tenth ≤ (u.fraction + (k + 1)) / tenth := Nat.div_le_div_right (by omega)
    exact (ih (shorter.trans_lt short)).spend short

/-! ## The compares and the end of the allowance -/

theorem periodStarts_running {s : State} {p : Ticks} (cutter : s.isRole .cutter = true) (runs : s.dust.position = some p) :
    periodStarts s = startPeriod s := by
  unfold periodStarts; rw [if_pos (by simp [cutter, runs])]

theorem midLowers_running {s : State} {p : Ticks} (cutter : s.isRole .cutter = true) (runs : s.dust.position = some p)
    (first : s.dust.midDone = false) : midLowers s = { s with dust := { s.dust with
      midDone := true, position := some (max p (sec s.image.period / 2))
      remaining := min s.dust.remaining (10 * s.capacityRead - s.dust.used) } } := by
  simp only [midLowers, runs, cutter, first, Bool.not_false, Bool.and_self, if_true]

theorem allowanceEnds_counting {s : State} (cutter : s.isRole .cutter = true) (on : s.permitOn = true)
    (left : 0 < s.dust.remaining) : allowanceEnds s =
      { s with dust := { s.dust with used := s.dust.used + s.dust.remaining, remaining := 0, fraction := 0 } } := by
  unfold allowanceEnds; rw [if_pos (by simp [cutter, on, left])]

/-- Settles O48: a tick by the cases of `DustUnit.spend`, many of them by induction, and each command's event by its own
change of the dust unit with the permit's evaluation at its end. -/
theorem dustTimesActOnTheAllowance : Obligations.DustTimesActOnTheAllowance := by
  refine ⟨?_, fun u k part short => spend_iterate u part k short, ?_⟩
  · intro s queue due live cutter
    obtain ⟨on, dust, live', cutter'⟩ := passTick_dust live cutter
    refine ⟨passTick s, step_tick queue due, on, ?_⟩
    have lastUnit := dueCommand_lastUnit live' cutter'
    rw [on] at lastUnit
    rw [dust] at lastUnit ⊢
    by_cases stands : s.permitOn = false ∨ s.dust.remaining = 0
    · rw [if_pos stands, dustTick_stands stands]
      exact ⟨rfl, rfl, rfl, rfl, rfl⟩
    rw [if_neg stands]
    obtain ⟨isOn, left⟩ := not_or.1 stands
    have spends := dustTick_spends (Bool.not_eq_false _ ▸ isOn)
    by_cases part : s.dust.fraction + 1 < tenth
    · rw [if_pos part, spends, spend_part left part]
      exact ⟨rfl, rfl, rfl, rfl, rfl⟩
    have whole : tenth ≤ s.dust.fraction + 1 := Nat.not_lt.1 part
    rw [if_neg part]
    by_cases more : 1 < s.dust.remaining
    · rw [if_pos more, spends, spend_whole more whole]
      exact ⟨rfl, rfl, rfl, rfl, rfl⟩
    · have last : s.dust.remaining = 1 := by omega
      rw [spends, spend_last last whole] at lastUnit ⊢
      rw [if_neg more]
      exact ⟨rfl, rfl, last, rfl, rfl, lastUnit (Bool.not_eq_false _ ▸ isOn) last rfl⟩
  · intro s p live cutter runs
    have cutterAfter (d : DustUnit) : ({ s with dust := d } : State).isRole .cutter = true := cutter
    refine ⟨⟨_, event_live live, ?_⟩, fun first => ⟨_, event_live live, ?_⟩, fun on left => ⟨_, event_live live, ?_⟩⟩
    · rw [periodStarts_running cutter runs]
      refine ⟨by rw [finish_dust]; rfl, ?_, by rw [finish_rest, finish_dust]; rfl⟩
      have same : (startPeriod s).capacityRead = s.capacityRead := capacityRead_congr rfl rfl
      rw [finish_reasonDust (by exact live) (by exact cutter), same, Bool.eq_iff_iff]
      simp only [startPeriod, Bool.or_eq_true, beq_iff_eq]
      omega
    · rw [midLowers_running cutter runs first]
      rw [finish_dust]
      exact ⟨rfl, rfl, rfl, finish_exhausted (by exact live) (by exact cutter), finish_rest _ _⟩
    · rw [allowanceEnds_counting cutter on left]
      obtain ⟨dust, off⟩ := finish_exhausted (pre := s) (s := { s with dust := { s.dust with
        used := s.dust.used + s.dust.remaining, remaining := 0, fraction := 0 } }) live cutter rfl
      rw [finish_dust]
      exact ⟨rfl, rfl, dust, off, finish_rest _ _⟩

end Sys2Proof.Machine
end

section
/-! The dwell timer and its completion (R39 to R41). -/

namespace Sys2Proof.Machine

/-! ## The credit -/

/-- A mass handed to the ring changes the ring alone. -/
theorem creditMass_eq (mass : Nat) (s : State) : creditMass mass s = { s with ring := (creditMass mass s).ring } := by
  unfold creditMass openLotIfNone commitLot; dsimp only; split_ifs <;> rfl

/-- It is added to the mass cut, and a lot that opens for it takes the next number (R79). -/
theorem creditMass_counts (mass : Nat) (s : State) :
    (creditMass mass s).ring.cutMass = s.ring.cutMass + BitVec.ofNat 32 mass ∧
      (creditMass mass s).ring.issued = if s.openLot.isSome then s.ring.issued else s.ring.issued + 1 := by
  unfold creditMass openLotIfNone commitLot; dsimp only; split_ifs <;> exact ⟨rfl, rfl⟩

/-- The state at which a credit's mass is handed to the ring. -/
def cellCut (c : Cell) (s : State) : State :=
  let row := s.face.cells.get c.row
  let s := markRow c.row { s with face := { s.face with cells := s.face.cells.set c.row (row.set c.col .cut) } }
  { s with permit := { s.permit with dwell := 0, reached := false } }

theorem creditCell_eq (c : Cell) (s : State) :
    creditCell c s = { cellCut c s with ring := (creditMass (s.massOf (s.kind c)) (cellCut c s)).ring } :=
  creditMass_eq _ _

theorem cellCut_cell (c d : Cell) (s : State) : (cellCut c s).cell d = if d = c then .cut else s.cell d := by
  obtain ⟨ccol, crow⟩ := c
  obtain ⟨dcol, drow⟩ := d
  simp only [State.cell, cellCut, markRow, Cell.mk.injEq]
  by_cases row : drow = crow
  · subst row
    rw [Tbl.get_set_self, Tbl.get_set]
    simp only [and_true]
  · rw [Tbl.get_set_ne _ _ row, if_neg fun both => row both.2]

theorem cellCut_marked (c : Cell) (s : State) : ((cellCut c s).pub.rowMarks.get c.row).isSome = true := by
  simp [cellCut, markRow]

/-! ## A tick -/

/-- What a tick leaves of the timer, by the cases of R39. -/
theorem passTick_dwell {s : State} {c : Cell} (live : s.live = true) (cutter : s.isRole .cutter = true)
    (head : s.permit.head = some c) :
    (passTick s).permit.head = some c ∧ (passTick s).face = s.face ∧
      if s.dwellRuns = false then (passTick s).permit.dwell = s.permit.dwell ∧ (passTick s).permit.reached = s.permit.reached
      else if s.permit.dwell + 1 < s.dwellOf (s.kind c) then
        (passTick s).permit.dwell = s.permit.dwell + 1 ∧ (passTick s).permit.reached = false
      else (passTick s).permit.dwell = s.permit.dwell ∧ (passTick s).dwellReached = true := by
  obtain ⟨permit, face, running⟩ := passTick_cutter live cutter
  obtain ⟨headAfter, state, timer⟩ := permitTick_dwell head
  have runs : (passTick s).dwellRuns = s.dwellRuns := by
    simp only [State.dwellRuns, State.permitOn, State.cell, permit, face, running, headAfter, state, head]
  rw [State.dwellReached, runs, permit]
  refine ⟨headAfter, face, ?_⟩
  cases on : s.dwellRuns
  · simpa only [on, if_true] using timer
  · simpa only [on, Bool.true_and, Bool.true_eq_false, if_false] using timer

/-! ## The completion -/

theorem finish_superseded {pre s : State} : (finish pre s).permit.superseded = s.permit.superseded :=
  show (finish pre s).permit.rest.superseded = s.permit.rest.superseded by rw [permit_of_rest (finish_rest pre s)]

theorem finish_cell {pre s : State} : (finish pre s).cell = s.cell := by
  funext c; simp only [State.cell, finish_face]

/-- The ring's counts after an event at a live CUTTER: the lots alone follow the permit. -/
theorem finish_ringCounts {pre s : State} :
    (finish pre s).ring.cutMass = s.ring.cutMass ∧ (finish pre s).ring.issued = s.ring.issued :=
  have ring := ring_of_rest (finish_rest pre s)
  ⟨show (finish pre s).ring.rest.cutMass = s.ring.rest.cutMass by rw [ring],
    show (finish pre s).ring.rest.issued = s.ring.rest.issued by rw [ring]⟩

theorem dwellComplete_finishes {s : State} (live : s.live = true) (cutter : s.isRole .cutter = true) :
    exec .dwellComplete s = .next (finish s (dwellCompletes s)) := by
  have taken : atCutter dwellCompletes s = dwellCompletes s := if_pos cutter
  rw [← taken]; exact event_live live

theorem dwellCompletes_stopped {s : State} (off : s.dwellRuns = false) (stands : s.permit.superseded = false) :
    dwellCompletes s = s := by
  simp only [dwellCompletes, stands, off, Bool.false_eq_true, if_false]
  split <;> rfl

theorem dwellCompletes_superseded {s : State} (superseded : s.permit.superseded = true) :
    dwellCompletes s = { s with permit := { s.permit with superseded := false } } := if_pos superseded

theorem dwellCompletes_credits {s : State} {c : Cell} (stands : s.permit.superseded = false) (head : s.permit.head = some c)
    (runs : s.dwellRuns = true) : dwellCompletes s = creditCell c s := by
  simp only [dwellCompletes, stands, head, runs, Bool.false_eq_true, if_false, if_true]

/-- Settles O47: the tick by the timer's own cases, the completion by those of `dwellCompletes`, each read off at the end of
its event. -/
theorem dwellCompletesWithACredit : Obligations.DwellCompletesWithACredit := by
  refine ⟨?_, ?_, ?_, ?_⟩
  · intro s c queue due live cutter head _
    exact ⟨passTick s, step_tick queue due, passTick_dwell live cutter head⟩
  · intro s live cutter off stands
    refine ⟨_, dwellComplete_finishes live cutter, ?_⟩
    rw [dwellCompletes_stopped off stands]; exact finish_rest s s
  · intro s live cutter superseded
    refine ⟨_, dwellComplete_finishes live cutter, ?_⟩
    rw [dwellCompletes_superseded superseded]
    exact ⟨finish_superseded, finish_rest s _⟩
  · intro s c live cutter stands head runs
    refine ⟨_, dwellComplete_finishes live cutter, ?_⟩
    rw [dwellCompletes_credits stands head runs, creditCell_eq]
    obtain ⟨mass, issued⟩ := creditMass_counts (s.massOf (s.kind c)) (cellCut c s)
    obtain ⟨massAfter, issuedAfter⟩ := finish_ringCounts (pre := s)
      (s := { cellCut c s with ring := (creditMass (s.massOf (s.kind c)) (cellCut c s)).ring })
    rw [finish_cell, finish_face, finish_dwell, finish_head, finish_rowMarks, finish_dust, finish_inputs, finish_replicas,
      finish_claim]
    exact ⟨(cellCut_cell c c s).trans (if_pos rfl), fun d other => (cellCut_cell c d s).trans (if_neg other), rfl, rfl, head,
      cellCut_marked c s, massAfter.trans mass, issuedAfter.trans issued, rfl, rfl, rfl, rfl⟩

end Sys2Proof.Machine
end

section
/-! The head cell of a pose, and the pose event that takes it (R23 to R25, R36, R38). -/

namespace Sys2Proof.Machine

/-! ## The head cell (R24) -/

theorem headCellOf_iff (p : Nat) (x y : Word16) (c : Cell) : headCellOf p x y = some c ↔
    (c.col.val : Int) = (x.toInt + 16 * p).fdiv p ∧ (c.row.val : Int) = y.toInt.fdiv p := by
  obtain ⟨⟨col, colLt⟩, ⟨row, rowLt⟩⟩ := c
  unfold headCellOf poseCm; dsimp only
  by_cases on : 0 ≤ (x.toInt + 16 * p).fdiv p ∧ (x.toInt + 16 * p).fdiv p < 32 ∧ 0 ≤ y.toInt.fdiv p ∧ y.toInt.fdiv p < 24
  · rw [dif_pos on]
    simp only [Option.some.injEq, Cell.mk.injEq, Fin.ext_iff]; omega
  · rw [dif_neg on]
    simp only [reduceCtorEq, false_iff]; omega

/-! ## The pose event -/

/-- A value of the pose taken, of either coordinate (R23). -/
def poseTaken (isX : Bool) (v : Word16) (s : State) : State :=
  { s with permit :=
    if isX then { s.permit with poseX := some v, ageX := 0, lastX := true }
    else { s.permit with poseY := some v, ageY := 0, lastX := false } }

/-- The head moved to the cell of the pose held, before the breach test. -/
def headMoved (s : State) : State :=
  { s with permit := { s.permit with
      head := s.headNow, fresh := s.poseRecent, dwell := if s.headNow = s.permit.head then s.permit.dwell else 0
      reached := s.permit.reached && s.headNow == s.permit.head
      superseded := s.permit.superseded || (s.dwellRuns && s.headNow != s.permit.head) } }

theorem deliverPose_eq (isX : Bool) (v : Word16) (s : State) : deliverPose isX v s =
    if (headMoved (poseTaken isX v s)).poseBreach then latchBreach (headMoved (poseTaken isX v s))
    else retryBreach (headMoved (poseTaken isX v s)) := rfl

theorem rest_deliverPose {s : State} (cutter : s.isRole .cutter = true) (isX : Bool) (v : Word16) :
    (deliverPose isX v s).rest = (headMoved (poseTaken isX v s)).rest := by
  rw [deliverPose_eq]; split
  · exact rest_latchBreach cutter
  · exact rest_retryBreach _

/-- The pose unit as a value that arrives leaves it, by the coordinate it is. -/
structure PoseMoved (isX : Bool) (v : Word16) (s m : State) : Prop where
  poseX : m.permit.poseX = if isX then some v else s.permit.poseX
  poseY : m.permit.poseY = if isX then s.permit.poseY else some v
  head : m.permit.head = m.headNow
  dwell : m.permit.dwell = if m.permit.head = s.permit.head then s.permit.dwell else 0
  superseded : m.permit.superseded = (s.permit.superseded || (s.dwellRuns && m.permit.head != s.permit.head))
  state : m.permit.state = s.permit.state
  entered : m.permit.breachEntered = s.permit.breachEntered
  others : m = { s with permit := m.permit }

theorem headMoved_posed (isX : Bool) (v : Word16) (s : State) : PoseMoved isX v s (headMoved (poseTaken isX v s)) := by
  cases isX <;> exact ⟨rfl, rfl, rfl, rfl, rfl, rfl, rfl, rfl⟩

/-! ## The answer that carries it -/

/-- The lowest-numbered entry of a pose meaning hands its value to the permit unit (R187). -/
theorem handOn_pose {s : State} {e : Fin 16} (cutter : s.isRole .cutter = true) (isX : Bool) (v : Word16)
    (h : s.channelOf (if isX then .poseX else .poseY) = some e) : handOn e v s = deliverPose isX v s := by
  have role := role_of_isRole cutter
  cases isX <;> simp only [Bool.false_eq_true, if_false, if_true] at h <;> simp [handOn, channelOf_meaning h, h, role]

/-- A pose that moves the head where it may not be, with the permit on, latches the breach (R36). -/
theorem deliverPose_breach {isX : Bool} {v : Word16} {s m : State} (moved : m = headMoved (poseTaken isX v s))
    (breach : m.poseBreach = true) : deliverPose isX v s = latchBreach m := by
  rw [deliverPose_eq, ← moved, if_pos breach]

/-- With the permit STOPPED and the notice entered a pose moves the head and no more (R37). -/
theorem deliverPose_stopped {isX : Bool} {v : Word16} {s m : State} (moved : m = headMoved (poseTaken isX v s))
    (stopped : m.permit.state = .stopped) (entered : m.permit.breachEntered = true) : deliverPose isX v s = m := by
  have off : m.poseBreach = false := by simp [State.poseBreach, State.permitOn, stopped, PermitState.on]
  have idle : m.breachWaits = false := by simp [State.breachWaits, entered]
  rw [deliverPose_eq, ← moved, off]
  simp [retryBreach, idle]

/-- A head in no cell, in an OUTSIDE cell or in a protected zone, with the permit on, is a breach (R36). -/
theorem poseBreach_of_place {s : State} (on : s.permitOn = true)
    (place : ∀ c, s.permit.head = some c → s.cell c = .outside ∨ s.zoneProtected (zoneOf c.row) = true) :
    s.poseBreach = true := by
  unfold State.poseBreach; rw [on, Bool.true_and]
  cases head : s.permit.head with
  | none => rfl
  | some c => simpa only [Bool.or_eq_true, beq_iff_eq] using place c head

/-- A head off the grid, in an OUTSIDE cell or in a protected zone is where it may not be (R4, R36). -/
theorem headIllegal_of_poseBreach {s : State} (h : s.poseBreach = true) : s.headIllegal = true := by
  obtain ⟨-, place⟩ := (Bool.and_eq_true _ _).mp h
  unfold State.headIllegal
  cases head : s.permit.head with
  | none => rfl
  | some c =>
    rw [head] at place
    rcases (Bool.or_eq_true _ _).mp place with outside | zone
    · simp [State.legalCell, eq_of_beq outside]
    · simp [State.legalCell, zone]

theorem posed_of_rest {p q : PermitUnit} (h : p.rest = q.rest) :
    p.poseX = q.poseX ∧ p.poseY = q.poseY ∧ p.head = q.head ∧ p.dwell = q.dwell ∧ p.superseded = q.superseded :=
  ⟨congrArg (·.poseX) h, congrArg (·.poseY) h, congrArg (·.head) h, congrArg (·.dwell) h, congrArg (·.superseded) h⟩

section
variable {pre s : State} (live : s.live = true) (cutter : s.isRole .cutter = true) (isX : Bool) (v : Word16)
include cutter

/-- The pose, head cell and dwell after a pose event (R23, R24, R41). -/
theorem finish_pose {t : State} (ended : t = finish pre (deliverPose isX v s)) :
    t.permit.poseX = (if isX then some v else s.permit.poseX) ∧ t.permit.poseY = (if isX then s.permit.poseY else some v) ∧
      t.permit.head = ({ s with permit := t.permit } : State).headNow ∧
      t.permit.dwell = (if t.permit.head = s.permit.head then s.permit.dwell else 0) ∧ t.face = s.face ∧
      t.permit.superseded = (s.permit.superseded || (s.dwellRuns && t.permit.head != s.permit.head)) := by
  have rest : t.rest = (headMoved (poseTaken isX v s)).rest := by
    rw [ended]; exact (finish_rest pre _).trans (rest_deliverPose cutter isX v)
  have moved := headMoved_posed isX v s
  generalize headMoved (poseTaken isX v s) = m at rest moved
  obtain ⟨poseX, poseY, head, dwell, superseded⟩ := posed_of_rest (permit_of_rest rest)
  have image : m.image = s.image := by rw [moved.others]
  have face : m.face = s.face := by rw [moved.others]
  have now : ({ s with permit := t.permit } : State).headNow = m.headNow := by
    simp only [State.headNow, poseX, poseY, image]
  rw [poseX, poseY, now, head, dwell, superseded]
  exact ⟨moved.poseX, moved.poseY, moved.head, moved.dwell, (face_of_rest rest).trans face, moved.superseded⟩

theorem finish_poseHead :
    (finish pre (deliverPose isX v s)).permit.head = (headMoved (poseTaken isX v s)).permit.head :=
  head_of_rest ((finish_rest pre _).trans (rest_deliverPose cutter isX v))

include live

/-- A pose event that finds the head where it may not be, with the permit on, ends STOPPED (R36). -/
theorem finish_poseBreach (on : s.permitOn = true)
    (place : ∀ c, (finish pre (deliverPose isX v s)).permit.head = some c →
      s.cell c = .outside ∨ s.zoneProtected (zoneOf c.row) = true) :
    (finish pre (deliverPose isX v s)).permit.state = .stopped ∧
      (finish pre (deliverPose isX v s)).outputs = (false, false, true, false) ∧
      (finish pre (deliverPose isX v s)).openLot = none := by
  rw [finish_poseHead cutter] at place
  have moved := headMoved_posed isX v s
  have delivered := deliverPose_breach (isX := isX) (v := v) (s := s) rfl
  generalize hm : headMoved (poseTaken isX v s) = m at place moved delivered
  have onM : m.permitOn = true := by rw [State.permitOn, moved.state]; exact on
  have breach : m.poseBreach = true := poseBreach_of_place onM (by rw [← hm] at place ⊢; exact place)
  rw [delivered breach]
  have liveM : m.live = true := by rw [← hm]; exact live
  have cutterM : m.isRole .cutter = true := by rw [← hm]; exact cutter
  have rest : (latchBreach m).rest = m.rest := rest_latchBreach cutterM
  exact finish_breach ((live_of_rest rest).trans liveM) ((isRole_of_rest rest _).trans cutterM)
    (latchBreach_latched (headIllegal_of_poseBreach breach)) (latchBreach_openLot m)

/-- With the breach acknowledged, a pose event that moves the head into a legal cell ends it (R38). -/
theorem finish_poseLegal {i : Fin 8} {x : Notice} {c : Cell} (stopped : s.permit.state = .stopped)
    (entered : s.permit.breachEntered = true) (slot : s.notices.slots.get i = some x) (code : x.code = .profileBreach)
    (acked : x.state = .acked) (only : ∀ j, (s.notices.slots.get j).map (·.code) = some .profileBreach → j = i)
    (idle : s.notices.waiting.get NoticeCode.profileBreach.index = false)
    (head : (finish pre (deliverPose isX v s)).permit.head = some c) (legal : s.legalCell c = true) :
    (finish pre (deliverPose isX v s)).BreachOver := by
  rw [finish_poseHead cutter] at head
  generalize hm : headMoved (poseTaken isX v s) = m at head
  have moved : PoseMoved isX v s m := hm ▸ headMoved_posed isX v s
  have stoppedM : m.permit.state = .stopped := moved.state.trans stopped
  have enteredM : m.permit.breachEntered = true := moved.entered.trans entered
  rw [deliverPose_stopped hm.symm stoppedM enteredM]
  have liveM : m.live = true := by rw [← hm]; exact live
  have cutterM : m.isRole .cutter = true := by rw [← hm]; exact cutter
  have notices : m.notices = s.notices := by rw [moved.others]
  have legalM : m.headIllegal = false := by
    have same : m.legalCell c = s.legalCell c := by rw [← hm]; rfl
    simp [State.headIllegal, head, same, legal]
  rw [← notices] at slot only idle
  exact finish_breachOver liveM cutterM (judgeNotices_breachLeaves cutterM legalM slot code acked only idle) stoppedM enteredM

end

/-- Settles O46: a good answer of a pose entry is delivered, the head moved, and what the breach test finds stands at the end
of the event. -/
theorem poseGivesTheHeadCell : Obligations.PoseGivesTheHeadCell := by
  refine ⟨fun p x y c _ => headCellOf_iff p x y c, by decide, by decide, by decide, by decide, by decide, ?_⟩
  intro s e high low b parity isX live cutter polled check valid good _ entry
  obtain ⟨sensor, claim, taken⟩ := takeCharacter_good polled check valid good
  generalize hu : ({ s with sensor := sensor, claim := claim } : State) = u at taken
  have liveU : u.live = true := by rw [← hu]; exact live
  have cutterU : u.isRole .cutter = true := by rw [← hu]; exact cutter
  rw [handOn_pose cutterU isX _ (by rw [← hu]; exact entry)] at taken
  refine ⟨finish s (deliverPose isX (high ++ low) u), (event_live live).trans (by rw [taken]), ?_⟩
  obtain ⟨poseX, poseY, head, dwell, face, superseded⟩ := finish_pose (pre := s) cutterU isX (high ++ low) rfl
  have breach := finish_poseBreach (pre := s) liveU cutterU isX (high ++ low)
  have leaves := fun i x c => finish_poseLegal (pre := s) (i := i) (x := x) (c := c) liveU cutterU isX (high ++ low)
  generalize finish s (deliverPose isX (high ++ low) u) = t at poseX poseY head dwell face superseded breach leaves
  subst hu
  refine ⟨poseX, poseY, head, dwell, face, superseded, fun on place => breach on fun c hc => ?_,
    leaves⟩
  rw [hc] at place; exact place

end Sys2Proof.Machine
end

section
/-! The debounce of a pin in any role (R189), and the CUTTER's own inputs and pose expiry (R41). -/

namespace Sys2Proof.Machine

/-! ## A pin and its input -/

/-- A pin with the debounced value of its input. -/
def State.pinAt (s : State) (k : Fin 4) : Pin × Bool := (s.pins.get k, s.inputs.get k)

/-- A tick of one pin's debounce in a role, on the pin and its debounced value alone. -/
def pinAfter (role : Option Role) (k : Fin 4) (input : Pin × Bool) : Pin × Bool :=
  let left := (Timer.follow (input.1.active != input.2) Config.debounce input.1.left).tick
  if left.out && (role.bind fun r => r.inputChange k input.1.active).isNone then
    ({ high := input.1.high, left := none }, input.1.active)
  else ({ input.1 with left := left }, input.2)

theorem debouncePin_role (s : State) (k : Fin 4) : (debouncePin s k).role = s.role := by
  obtain ⟨inputs, pins, debounced, -⟩ := debouncePin_eq s k
  rw [debounced]; rfl

theorem withInput_pinAt_other {s : State} {j k : Fin 4} (other : k ≠ j) (active : Bool) :
    (s.withInput j active).pinAt k = s.pinAt k := by
  unfold State.withInput State.pinAt; split
  · rfl
  · rw [Tbl.get_set_ne _ _ other, Inputs.get_set, if_neg other]

theorem debouncePin_pinAt_other {s : State} {j k : Fin 4} (other : k ≠ j) : (debouncePin s j).pinAt k = s.pinAt k := by
  unfold debouncePin; extract_lets p left ticked
  have kept : ticked.pinAt k = s.pinAt k := by
    unfold State.pinAt; rw [Tbl.get_set_ne _ _ other]
  split
  · rw [withInput_pinAt_other other, kept]
  · exact kept

/-- No time runs out for a raw level that stands at the debounced value. -/
theorem follow_out {active value : Bool} {t : Timer} (h : (Timer.follow (active != value) Config.debounce t).tick.out = true) :
    value ≠ active := by
  rintro rfl
  simp [Timer.follow, Timer.tick, Timer.out] at h

theorem withInput_pinAt {s : State} {k : Fin 4} {active : Bool} (change : s.inputs.get k ≠ active) :
    (s.withInput k active).pinAt k = ({ high := !active, left := none }, active) := by
  unfold State.withInput State.pinAt
  rw [if_neg change]
  rw [Tbl.get_set_self, Inputs.get_set, if_pos rfl]

theorem debouncePin_pinAt (s : State) (k : Fin 4) : (debouncePin s k).pinAt k = pinAfter s.role k (s.pinAt k) := by
  unfold debouncePin pinAfter; extract_lets p left ticked left'
  have pin : ticked.pinAt k = ({ p with left := left }, s.inputs.get k) := by
    unfold State.pinAt; rw [Tbl.get_set_self]
  by_cases due : (left.out && (s.role.bind fun r => r.inputChange k p.active).isNone) = true
  · obtain ⟨out, -⟩ := (Bool.and_eq_true _ _).mp due
    have change : ticked.inputs.get k ≠ p.active := follow_out out
    rw [if_pos due, withInput_pinAt change]
    refine Eq.trans ?_ (if_pos due).symm
    rw [Pin.active, Bool.not_not]; rfl
  · rw [if_neg due, pin]
    exact (if_neg due).symm

/-- The four pins apart from one another: those before `k`, `k` itself and those after it. -/
theorem fourInputs_split : ∀ k : Fin 4, fourInputs = fourInputs.filter (· < k) ++ k :: fourInputs.filter (k < ·) := by
  decide

theorem foldl_debouncePin_other {k : Fin 4} (l : List (Fin 4)) (others : k ∉ l) (s : State) :
    (l.foldl debouncePin s).pinAt k = s.pinAt k ∧ (l.foldl debouncePin s).role = s.role := by
  induction l generalizing s with
  | nil => exact ⟨rfl, rfl⟩
  | cons j l ih =>
    obtain ⟨other, rest⟩ := not_or.1 (List.mem_cons.not.1 others)
    obtain ⟨pin, role⟩ := ih rest (debouncePin s j)
    exact ⟨pin.trans (debouncePin_pinAt_other other), role.trans (debouncePin_role s j)⟩

theorem debounceTick_pinAt (s : State) (k : Fin 4) : (debounceTick s).pinAt k = pinAfter s.role k (s.pinAt k) := by
  unfold debounceTick
  rw [fourInputs_split k, List.foldl_append, List.foldl_cons]
  obtain ⟨pin, role⟩ := foldl_debouncePin_other (k := k) (fourInputs.filter (· < k)) (by simp) s
  obtain ⟨after, -⟩ := foldl_debouncePin_other (k := k) (fourInputs.filter (k < ·)) (by simp)
    (debouncePin ((fourInputs.filter (· < k)).foldl debouncePin s) k)
  rw [after, debouncePin_pinAt, pin, role]

/-- A tick at a live station, on one pin. -/
theorem passTick_pinAt {s : State} (live : s.live = true) (k : Fin 4) : (passTick s).live = true ∧
    (passTick s).role = s.role ∧ (passTick s).pinAt k = pinAfter s.role k (s.pinAt k) := by
  have tick : (liveTick (partTick s)).live = true ∧ (liveTick (partTick s)).role = s.role ∧
      (liveTick (partTick s)).pinAt k = (debounceTick (partTick s)).pinAt k := by
    obtain ⟨inputs, pins, debounced, -⟩ := debounceTick_eq (partTick s)
    unfold liveTick; rw [debounced]; dsimp only; split
    all_goals exact ⟨live, rfl, rfl⟩
  rw [debounceTick_pinAt] at tick
  unfold passTick; rw [if_pos live]; exact tick

theorem passTick_iterate {s : State} (live : s.live = true) (k : Fin 4) (n : Nat) : (passTick^[n] s).live = true ∧
    (passTick^[n] s).role = s.role ∧ (passTick^[n] s).pinAt k = (pinAfter s.role k)^[n] (s.pinAt k) := by
  induction n with
  | zero => exact ⟨live, rfl, rfl⟩
  | succ n ih =>
    obtain ⟨liveN, role, pin⟩ := ih
    obtain ⟨liveS, roleS, pinS⟩ := passTick_pinAt liveN k
    rw [Function.iterate_succ_apply', Function.iterate_succ_apply', ← pin, ← role]
    exact ⟨liveS, roleS, pinS⟩

/-! ## The 20 ms (R189) -/

/-- A raw level that has stood at the other value for `n` ticks, short of the 20 ms. -/
def Counting (high : Bool) (n : Nat) (input : Pin × Bool) : Prop :=
  input.1.high = high ∧ input.2 = high ∧ input.1.left.getD Config.debounce = Config.debounce - n

/-- One more tick of it leaves what is left of the 20 ms, and the change where nothing is. -/
theorem Counting.tick {high : Bool} {n : Nat} {input : Pin × Bool} (h : Counting high n input) :
    (Timer.follow (input.1.active != input.2) Config.debounce input.1.left).tick = some (Config.debounce - (n + 1)) := by
  obtain ⟨raw, value, left⟩ := h
  have differs : (input.1.active != input.2) = true := by rw [Pin.active, raw, value]; cases high <;> rfl
  rw [differs]
  simp only [Timer.follow, if_true, left, Timer.tick, Option.map_some, Nat.sub_sub]

theorem pinAfter_counting (role : Option Role) (k : Fin 4) {high : Bool} {n : Nat} {input : Pin × Bool}
    (h : Counting high n input) (short : n + 1 < Config.debounce) : Counting high (n + 1) (pinAfter role k input) := by
  have ticked := h.tick
  have going : ¬ ((Timer.follow (input.1.active != input.2) Config.debounce input.1.left).tick.out &&
      (role.bind fun r => r.inputChange k input.1.active).isNone) = true := by
    rw [ticked]
    have left : Config.debounce - (n + 1) ≠ 0 := Nat.sub_ne_zero_of_lt short
    simp [Timer.out, left]
  obtain ⟨raw, value, -⟩ := h
  unfold pinAfter; dsimp only; rw [if_neg going, ticked]
  exact ⟨raw, value, rfl⟩

theorem counting_iterate (role : Option Role) (k : Fin 4) (high : Bool) {n : Nat} (short : n < Config.debounce) :
    Counting high n ((pinAfter role k)^[n] ({ high := high, left := none }, high)) := by
  induction n with
  | zero => exact ⟨rfl, rfl, rfl⟩
  | succ n ih =>
    rw [Function.iterate_succ_apply']
    exact pinAfter_counting role k (ih (Nat.lt_of_succ_lt short)) short

/-- The tick that completes the 20 ms: the change stands due where a block reads the input, and is made where none does. -/
theorem pinAfter_whole (role : Option Role) (k : Fin 4) {high : Bool} {n : Nat} {input : Pin × Bool} (h : Counting high n input)
    (whole : n + 1 = Config.debounce) : pinAfter role k input =
      if (role.bind fun r => r.inputChange k !high).isNone then ({ high := high, left := none }, !high)
      else ({ high := high, left := some 0 }, high) := by
  have ticked := h.tick
  obtain ⟨raw, value, -⟩ := h
  obtain ⟨⟨level, left⟩, debounced⟩ := input
  dsimp only at raw value
  subst raw value
  unfold pinAfter; dsimp only
  rw [ticked, whole, Nat.sub_self]
  rfl

/-- A raw level that stands at the debounced value starts no time. -/
theorem pinAfter_stands (role : Option Role) (k : Fin 4) (high : Bool) :
    pinAfter role k ({ high := !high, left := none }, high) = ({ high := !high, left := none }, high) := by
  cases high <;> rfl

theorem inputDue_eq (s : State) (k : Fin 4) : s.inputDue k =
    if (s.pinAt k).1.left.out && (s.pinAt k).1.active != (s.pinAt k).2 then
      s.role.bind fun r => r.inputChange k (s.pinAt k).1.active else none := rfl

theorem inputDue_running {s : State} {k : Fin 4} (going : (s.pinAt k).1.left.out = false) : s.inputDue k = none := by
  rw [inputDue_eq, going]; rfl

theorem withPinLevel_pinAt (s : State) (k : Fin 4) (high : Bool) :
    (s.withPinLevel k high).pinAt k = ({ high := high, left := none }, s.inputs.get k) := by
  unfold State.withPinLevel State.pinAt; rw [Tbl.get_set_self]

/-- A raw level that has not stood for its 20 ms changes nothing and makes nothing due. -/
theorem raw_short {s : State} {k : Fin 4} {high : Bool} (live : s.live = true) (input : s.inputs.get k = high) {n : Nat}
    (short : n < Config.debounce) : (passTick^[n] (s.withPinLevel k high)).inputDue k = none ∧
      (passTick^[n] (s.withPinLevel k high)).inputs.get k = high := by
  obtain ⟨-, -, pin⟩ := passTick_iterate (s := s.withPinLevel k high) live k n
  rw [withPinLevel_pinAt, input] at pin
  obtain ⟨-, value, left⟩ := counting_iterate (s.withPinLevel k high).role k high short
  rw [← pin] at value left
  refine ⟨inputDue_running ?_, value⟩
  by_contra out
  have ended : ((passTick^[n] (s.withPinLevel k high)).pinAt k).1.left = some 0 := eq_of_beq (Bool.not_eq_false _ ▸ out)
  rw [ended] at left
  exact Nat.sub_ne_zero_of_lt short left.symm

/-- A raw level that stands at the debounced value changes nothing, however long it stands. -/
theorem raw_stands {s : State} {k : Fin 4} {high : Bool} (live : s.live = true) (input : s.inputs.get k = high) (m : Nat) :
    (passTick^[m] (s.withPinLevel k !high)).inputDue k = none ∧
      (passTick^[m] (s.withPinLevel k !high)).inputs.get k = high := by
  obtain ⟨-, -, pin⟩ := passTick_iterate (s := s.withPinLevel k !high) live k m
  rw [withPinLevel_pinAt, input, Function.iterate_fixed (pinAfter_stands _ k high)] at pin
  exact ⟨inputDue_running (by rw [pin]; rfl), congrArg Prod.snd pin⟩

/-- A raw level that stands for its 20 ms. -/
theorem raw_whole {s : State} {k : Fin 4} {high : Bool} (live : s.live = true) (input : s.inputs.get k = high) :
    (passTick^[Config.debounce] (s.withPinLevel k high)).role = s.role ∧
    (passTick^[Config.debounce] (s.withPinLevel k high)).pinAt k =
      if (s.role.bind fun r => r.inputChange k !high).isNone then ({ high := high, left := none }, !high)
      else ({ high := high, left := some 0 }, high) := by
  obtain ⟨-, role, pin⟩ := passTick_iterate (s := s.withPinLevel k high) live k Config.debounce
  refine ⟨role, pin.trans ?_⟩
  rw [withPinLevel_pinAt, input]
  have size : Config.debounce = 79 + 1 := rfl
  rw [size, Function.iterate_succ_apply']
  exact pinAfter_whole _ k (counting_iterate _ k high (by decide)) rfl

/-- What the 20 ms come to: the change is due, or made. -/
theorem raw_comes {s : State} {k : Fin 4} {high : Bool} (live : s.live = true) (input : s.inputs.get k = high) :
    match s.role.bind fun r => r.inputChange k !high with
    | some c => (passTick^[ms 20] (s.withPinLevel k high)).inputDue k = some c ∧
        (passTick^[ms 20] (s.withPinLevel k high)).inputs.get k = high
    | none => (passTick^[ms 20] (s.withPinLevel k high)).inputs.get k = !high := by
  obtain ⟨role, pin⟩ := raw_whole live input
  change (passTick^[ms 20] _).role = _ at role
  change (passTick^[ms 20] _).pinAt k = _ at pin
  generalize passTick^[ms 20] (s.withPinLevel k high) = t at role pin
  cases reads : s.role.bind fun r => r.inputChange k !high with
  | none =>
    rw [reads] at pin
    exact congrArg Prod.snd pin
  | some c =>
    rw [reads] at pin
    refine ⟨?_, congrArg Prod.snd pin⟩
    rw [inputDue_eq, pin, role]
    exact (if_pos (by cases high <;> rfl)).trans reads

/-- Of the changes due the lowest-numbered input's is taken, before every time but those of the part itself. -/
theorem dueCommand_input {s : State} {k : Fin 4} {c : Instr} (idle : s.dueAlways = none) (live : s.live = true)
    (due : s.inputDue k = some c) (first : ∀ j < k, s.inputDue j = none) : dueCommand s = some c := by
  have lowest : s.dueInput = some c := by
    unfold State.dueInput
    rw [List.findSome?_eq_some_iff]
    exact ⟨_, k, _, fourInputs_split k, due, fun j before => first j (by simpa using (List.mem_filter.1 before).2)⟩
  unfold dueCommand; rw [idle, if_pos live, lowest]; rfl

/-- In START and INACTIVE no pin is sampled. -/
theorem passTick_pins_rest {s : State} (off : s.live = false) : (passTick s).pins = s.pins ∧ (passTick s).inputs = s.inputs := by
  unfold passTick restTick; rw [if_neg (by simp [off])]
  split <;> exact ⟨rfl, rfl⟩

/-! ## The CUTTER's inputs and its pose expiry -/

theorem withInput_keeps (s : State) (k : Fin 4) (active : Bool) : (s.withInput k active).live = s.live ∧
    (s.withInput k active).isRole .cutter = s.isRole .cutter := by
  unfold State.withInput; split <;> exact ⟨rfl, rfl⟩

theorem reasons_demand_held {r : Reasons} (h : r.demand = true) : r.none = false := by simp [Reasons.none, h]
theorem reasons_pose_held {r : Reasons} (h : r.pose = true) : r.none = false := by simp [Reasons.none, h]

theorem takeInput_cutter {s : State} (cutter : s.isRole .cutter = true) (k : Fin 4) (active : Bool) :
    takeInput .cutter k active id s = s.withInput k active := by
  unfold takeInput; rw [cutter, Bool.true_and]; split
  · rfl
  · rename_i same
    exact (State.withInput_same s k active (by simpa using same)).symm

/-- A dwell timer that does not run at the end of an event leaves no completion (R41). -/
theorem finish_notReached {pre s : State} (live : s.live = true) (cutter : s.isRole .cutter = true)
    (stopped : (finish pre s).dwellRuns = false) : (finish pre s).permit.reached = false := by
  by_contra reached
  have runs := finish_dwellStands (pre := pre) live cutter (Bool.not_eq_false _ ▸ reached)
  rw [stopped] at runs; cases runs

theorem dwellRuns_off {s : State} (off : s.permitOn = false) : s.dwellRuns = false := by
  rw [State.dwellRuns, off]; rfl

section
variable {s : State} (live : s.live = true) (cutter : s.isRole .cutter = true)
include live cutter

/-- A change of an input at the CUTTER, with what follows it. -/
theorem input_finishes (k : Fin 4) (active : Bool) :
    event (takeInput .cutter k active id) s = .next (finish s (s.withInput k active)) := by
  rw [event_live live, takeInput_cutter cutter]

/-- CUT_REQUEST (R28, R41). -/
theorem cutRequest_changes (active : Bool) : ∃ t, exec (.cutRequestChange active) s = .next t ∧
    t.inputs = { s.inputs with i0 := active } ∧ t.rest = (s.withInput 0 active).rest ∧ t.permit.reasons.demand = !active ∧
    (active = false → t.permitOn = false ∧ t.permit.dwell = s.permit.dwell ∧ t.permit.reached = false) := by
  refine ⟨_, input_finishes live cutter 0 active, ?_⟩
  obtain ⟨sameLive, sameRole⟩ := withInput_keeps s 0 active
  have liveW := sameLive.trans live
  have cutterW := sameRole.trans cutter
  have stands := finish_permitStands (pre := s) liveW cutterW
  have inputs : (finish s (s.withInput 0 active)).inputs = { s.inputs with i0 := active } := by
    rw [finish_inputs, State.withInput_inputs]; rfl
  have demand : (finish s (s.withInput 0 active)).permit.reasons.demand = !active := by
    rw [stands.1]
    exact congrArg (fun i : Inputs => !i.i0) inputs
  refine ⟨inputs, finish_rest _ _, demand, fun inactive => ?_⟩
  have off := stands.off (reasons_demand_held (demand.trans (by rw [inactive]; rfl)))
  exact ⟨off, by rw [finish_dwell, State.withInput_permit], finish_notReached liveW cutterW (dwellRuns_off off)⟩

/-- HEAD_RUNNING (R39, R41). -/
theorem headRunning_changes (active : Bool) : ∃ t, exec (.headRunningChange active) s = .next t ∧
    t.rest = (s.withInput 1 active).rest ∧
    (active = false → t.dwellRuns = false ∧ t.permit.dwell = s.permit.dwell ∧ t.permit.reached = false) := by
  refine ⟨_, input_finishes live cutter 1 active, finish_rest _ _, fun inactive => ?_⟩
  obtain ⟨sameLive, sameRole⟩ := withInput_keeps s 1 active
  have liveW := sameLive.trans live
  have cutterW := sameRole.trans cutter
  have stopped : (finish s (s.withInput 1 active)).dwellRuns = false := by
    have running : (finish s (s.withInput 1 active)).inputs.i1 = false := by
      rw [finish_inputs, State.withInput_inputs]; exact inactive
    rw [State.dwellRuns, running, Bool.and_false, Bool.false_and]
  exact ⟨stopped, by rw [finish_dwell, State.withInput_permit], finish_notReached liveW cutterW stopped⟩

/-- POSE_EXPIRY (R25, R30, R41). -/
theorem poseExpiry_holds (fresh : s.permit.fresh = true) : ∃ t, exec .poseExpiry s = .next t ∧ t.permit.fresh = false ∧
    t.permit.reasons.pose = true ∧ t.permitOn = false ∧ t.permit.head = s.permit.head ∧ t.permit.dwell = s.permit.dwell ∧
    t.face = s.face ∧ t.dust = s.dust ∧ t.inputs = s.inputs ∧ t.claim = s.claim ∧ t.replicas = s.replicas := by
  have expires : ∃ u : PermitUnit, poseExpires s = { s with permit := u } ∧ u.fresh = false ∧ u.head = s.permit.head ∧
      u.dwell = s.permit.dwell := by
    unfold poseExpires; rw [if_pos fresh]
    refine ⟨_, rfl, ?_⟩
    split <;> exact ⟨rfl, rfl, rfl⟩
  obtain ⟨u, expired, stale, head, dwell⟩ := expires
  have acts : atCutter poseExpires s = { s with permit := u } := (if_pos cutter).trans expired
  refine ⟨finish s { s with permit := u }, (event_live live).trans (by rw [acts]), ?_⟩
  have stands := finish_permitStands (pre := s) (s := { s with permit := u }) live cutter
  have pose : (finish s { s with permit := u }).permit.reasons.pose = true := by
    rw [stands.1]
    simp [State.reasonsNow, State.reasonPose, stale]
  rw [finish_fresh, finish_head, finish_dwell, finish_face, finish_dust, finish_inputs, finish_claim, finish_replicas]
  exact ⟨stale, pose, stands.off (reasons_pose_held pose), head, dwell, rfl, rfl, rfl, rfl, rfl⟩

end

/-- Settles O45: the debounce by its count at one pin, over any number of ticks, and the CUTTER's three events by the permit and
the dwell mark that stand at the end of each. -/
theorem cutterInputsAndPoseExpiry : Obligations.CutterInputsAndPoseExpiry := by
  refine ⟨fun s k high live input => ⟨fun n short => ?_, raw_comes live input⟩,
    fun s k c idle live due first => dueCommand_input idle live due first, fun s off => passTick_pins_rest off,
    fun s active live cutter => ⟨cutRequest_changes live cutter active, headRunning_changes live cutter active,
      poseExpiry_holds live cutter⟩⟩
  obtain ⟨due, value⟩ := raw_short live input short
  obtain ⟨liveN, -, -⟩ := passTick_iterate (s := s.withPinLevel k high) live k n
  exact ⟨due, value, raw_stands liveN value⟩

end Sys2Proof.Machine
end
